-- ==== Sys2Proof/Word.lean ====
section
/-!
DEFINITION. The machine words of the EF8064: 32-bit registers (R7) and 8-bit bytes (R1).
-/

namespace Sys2Proof

/-- A 32-bit register or memory word (R7). -/
abbrev Word := BitVec 32

/-- One byte of memory. -/
abbrev Byte := BitVec 8

end Sys2Proof
end

