-- ==== Sys2Proof/Syntax.lean ====
section
/-!
DEFINITION. The commands the block takes: one constructor of `Instr` for each row of the table of operations and
events, in the table's order, with the operands the row's rule gives it. Loop-core instructions carry the number of the
core that issues them and the operands of their encoding (R289 to R292).
-/

namespace Sys2Proof

/-- The header of a command descriptor (R401): the ledger it stands in, its sequence number, FENCE and IRQ. -/
structure CmdHead where
  ledger : Fin 16
  seq : BitVec 64
  fence : Bool := false
  irq : Bool := false
  deriving DecidableEq, Repr

/-- The commands of the host ledgers with their payloads (R402). A byte field keeps its whole byte: the check of its
value is the device's (R403). -/
inductive HostCmd where
  | nop
  | modeSet (target : Byte) (id : BitVec 16) (epoch : BitVec 64)
  | groupSet (group state : Byte)
  | segAppend (group : Byte) (count : Word) (addr : BitVec 64) (len : Word)
  | segSkip (group : Byte)
  | segFlush (group : Byte)
  | compareAdd (entry : BitVec 256)
  | compareRemove (tag : BitVec 16)
  | payloadSet (group link : Byte) (mass : Word) (com : BitVec 96) (inertia : BitVec 192)
  | lawParam (stall : Byte) (offset length : BitVec 16) (addr : BitVec 64)
  | dlInsert (list dir stall slot : Byte) (data : Word) (key : BitVec 64)
  | dlCancel (list stall slot : Byte)
  | stallToken (stall slot : Byte) (data : Word)
  | coordStep (coord : Byte) (delta : BitVec 64) (duration : Word)
  | overrideSet (coord : Byte) (factor : BitVec 16)
  | safetyLoad (addr : BitVec 64) (len : Word)
  | imageLoad (kind group : Byte) (addr : BitVec 64) (len : Word)
  | attest (addr : BitVec 64) (len : Word) (nonce : BitVec 256)
  | status
  | abort (seq : BitVec 64)
  deriving DecidableEq, Repr

/-- The civil-time registers of R49. -/
inductive CivilReg where
  | ofs | ref | rate
  deriving DecidableEq, Repr

/-- What the checks of a bank retest found (R21): the failing converters BxA, BxB and BxC, the failing comparators, a
misplaced sync pulse, and the slices whose latch did not inhibit. -/
structure RetestResult where
  conv : BitVec 3 := 0
  comp : BitVec 17 := 0
  sync : Bool := false
  trip : BitVec 8 := 0
  deriving DecidableEq, Repr

/-- The voltages at the IA and IB inputs of a slice above analogue earth, in nV, signed (R162, R174). -/
structure PhaseVolts where
  ia : BitVec 32
  ib : BitVec 32
  deriving DecidableEq, Repr

/-- What the comparators of a slice see: the voltages of its inputs, and the counts for which each of the four outputs, in
the order of OC TRIP.src, has been asserted, 5 bits a side (R174). -/
structure SideLevels where
  volts : PhaseVolts
  held : BitVec 20
  deriving DecidableEq, Repr

/-- The synchronised levels of F0, F1, F2 of a port, and the counts for which each has held its level, 8 bits a line
(R182). -/
structure LineLevels where
  level : BitVec 3
  held : BitVec 24
  deriving DecidableEq, Repr

/-- The level of one channel of a safe input, and the microseconds for which it has held it (R328). -/
structure ChanLevel where
  level : Bool
  held : BitVec 14
  deriving DecidableEq, Repr

/-- What the host and the PCIe link have set at the endpoint: whether the link is up, and of the configuration space Bus
Master Enable, the power state, the largest payload (128 or 256 bytes), the largest read request (128, 256 or 512 bytes)
and the addresses of BAR0 and BAR2 (R393, R394). -/
structure PcieSetup where
  link : Bool := false
  busMaster : Bool := false
  d3hot : Bool := false
  payload256 : Bool := false
  readRequest : Fin 3 := 2
  bar0 : BitVec 64 := 0
  bar2 : BitVec 64 := 0
  deriving DecidableEq, Repr

/-- The causes of a device reset (R435, R436, R468). -/
inductive ResetCause where
  | powerOn | resetBall | brownout | hotReset | serviceWatchdog
  deriving DecidableEq, Repr

/-- The memories a scrubber reads (R465, R466). -/
inductive ScrubMem where
  | sram | dram | retention | localData (core : Fin 12)
  deriving DecidableEq, Repr

/-- The two link channels (R341) and the ports of a node on each. -/
inductive Chan where
  | A | B
  deriving DecidableEq, Repr

inductive PortSide where
  | up | dn
  deriving DecidableEq, Repr

/-- The rings that have a consumer doorbell (R36, R398). -/
inductive ConsumerRing where
  | completion (m : Fin 16)
  | tally (k : Fin 4)
  deriving DecidableEq, Repr

/-- The condition codes of R291, in the order of their values. -/
inductive Cond where
  | AL | EQ | NE | LT | GE | LE | GT | LO | HS | MI | PL | VS | VC | GS | GC | DF
  deriving DecidableEq, Repr

/-- The commands of the block, one constructor per row of the table. -/
inductive Instr where
  /-- REGISTER_WRITE (R11): a host write of `bytes` bytes at offset `off` of BAR0, or of BAR2. -/
  | registerWrite (bar2 : Bool) (off : BitVec 22) (bytes : Fin 9) (data : BitVec 64)
  /-- SLICE_TRIP (R18): comparator outputs that are asserted, and reported feedback errors (R174, R200). -/
  | sliceTrip (s : Fin 64) (src : SideLevels) (err : BitVec 8)
  /-- BANK_FAULT (R20), with the cause of R436: 1 converter, 2 sync loss, 3 comparator self-test, 4 inhibit failure. -/
  | bankFault (b : Fin 8) (cause : Fin 5)
  /-- BANK_RETEST_REQUEST (R21): the mask written to SYS.BANKCLR.retest. -/
  | bankRetestRequest (mask : BitVec 8)
  /-- BANK_RETEST (R21): the end of a bank's retest with what its checks found. -/
  | bankRetest (b : Fin 8) (found : RetestResult)
  | escalated
  | tclkLost
  /-- SAFETY_FAULT (R298), with SAF.STATUS.fault_cause. -/
  | safetyFault (cause : BitVec 4)
  | coordinateTick
  | cmpLate
  | compareOutputAction
  | comparePulseEnd (s : Fin 64)
  | dlEntryFire (m : Fin 5)
  | pitchTimeout (g : Fin 8)
  /-- PPS_EDGE (R48): a filtered edge, rising or falling. -/
  | ppsEdge (rising : Bool)
  | ppsLost
  /-- CIVIL_SET (R49): a host write of one civil-time register. -/
  | civilSet (reg : CivilReg) (value : BitVec 64)
  | coordLost (n : Fin 16)
  | phaseEdge (rising : Bool)
  | phaseUnlock
  | modeSet (h : CmdHead) (target : Byte) (id : BitVec 16) (epoch : BitVec 64)
  /-- MODE_REQ_SUBMIT (R92): the value written to MODE.REQ.target. -/
  | modeReqSubmit (target : BitVec 3)
  | epoch
  | groupConfirm (g : Fin 8)
  | changeFailed
  /-- PEER_TIMEOUT (R87): the peer's node. -/
  | peerTimeout (node : BitVec 12)
  | groupSet (h : CmdHead) (group state : Byte)
  | loopsRunning (g : Fin 8)
  | lawStartTimeout (g : Fin 8)
  | stopTimeout (g : Fin 8)
  | bankRateApply
  | segAppend (h : CmdHead) (group : Byte) (count : Word) (addr : BitVec 64) (len : Word)
  | segSkip (h : CmdHead) (group : Byte)
  | segFlush (h : CmdHead) (group : Byte)
  /-- SEGMENT_FETCH (R99): a prefetch ends; `bad` when its data holds an uncorrectable error. -/
  | segmentFetch (g : Fin 8) (bad : Bool)
  | ffPost (g : Fin 8)
  | ffMiss (g : Fin 8)
  | payloadSet (h : CmdHead) (group link : Byte) (mass : Word) (com : BitVec 96) (inertia : BitVec 192)
  | compareAdd (h : CmdHead) (entry : BitVec 256)
  | compareRemove (h : CmdHead) (tag : BitVec 16)
  | stepTimer (s : Fin 64)
  /-- CARRIER (R145): `pulse` is the carrier sync pulse seen by the bank: at its position, misplaced, or missing. -/
  | carrier (s : Fin 64) (pulseGood : Bool)
  | reload (s : Fin 64)
  | outputEdge (s : Fin 64) (x : Fin 4)
  | commit (s : Fin 64)
  /-- CALIBRATION (R143): a line of a slice measured with its tap count and the code table found good or not. -/
  | calibration (s : Fin 64) (line : Fin 5) (taps : BitVec 7) (good : Bool)
  | motionHalt
  | motionResume
  | adcTrigger (c : Fin 25) (e : Fin 16)
  /-- CONVERSION_END (R162, R171): the voltage held at the input above analogue earth, in nV, signed; none when nothing
  drives the input (R494). -/
  | conversionEnd (c : Fin 25) (volts : Option (BitVec 32))
  | converterFailure (c : Fin 25)
  | comparatorSelftest (b : Fin 8)
  | comparatorTestEnd (b : Fin 8) (pass : Bool)
  /-- TRIP_CLEAR (R176): `over` are the comparators of the slice still outside their thresholds. -/
  | tripClear (s : Fin 64) (volts : PhaseVolts)
  /-- CM_CONVERSION (R179): the nine channels' results. -/
  | cmConversion (codes : List (BitVec 12))
  /-- FEEDBACK_EDGE (R185): the levels of the port's lines (R182). -/
  | feedbackEdge (s : Fin 64) (lines : LineLevels)
  | latch (s : Fin 64)
  /-- FRAME_END (R192, R194): the bits the encoder sent, first bit most significant, and their number; for BiSS-C also
  the measured delay d in counts, the clock periods from ACK to the Start bit, and `ack` false when SLO did not fall or
  the Start bit did not come in time. -/
  | frameEnd (s : Fin 64) (nbits : Fin 128) (bits : BitVec 128) (ack : Bool) (d : BitVec 16) (start : BitVec 8)
  | indexArm (s : Fin 64)
  | preset (s : Fin 64)
  | standstillTimeout (s : Fin 64)
  | emuChange (b : Fin 8)
  | emuEnable (b : Fin 8) (on : Bool)
  | lawParam (h : CmdHead) (stall : Byte) (offset length : BitVec 16) (addr : BitVec 64)
  | token
  | dispatch
  | deadlineMiss (n : BitVec 8)
  | stallEnable (n : BitVec 8) (on : Bool)
  | arm (n : BitVec 8)
  | coreSelftest
  | selftestEnd (c : Fin 12) (pass : Bool)
  | retest (c : Fin 12)
  /-- COUNTER_CLR (R260): the BAR0 offset of the CLR register written with 1. -/
  | counterClr (off : BitVec 22)
  | attention (c : Fin 12)
  | sharedLoadReturn (c : Fin 12)
  | cmtgArrival (c : Fin 12)
  | nop (c : Fin 12)
  | mov (c : Fin 12) (rd rs : Fin 64)
  | movi (c : Fin 12) (rd : Fin 16) (imm : BitVec 16)
  | movhi (c : Fin 12) (rd : Fin 16) (imm : BitVec 16)
  | ld (c : Fin 12) (r : Fin 64) (p : Fin 8) (mode : Fin 4) (off : BitVec 12)
  | st (c : Fin 12) (r : Fin 64) (p : Fin 8) (mode : Fin 4) (off : BitVec 12)
  | ldd (c : Fin 12) (d : Fin 64) (p : Fin 8) (mode : Fin 4) (off : BitVec 12)
  | std (c : Fin 12) (d : Fin 64) (p : Fin 8) (mode : Fin 4) (off : BitVec 12)
  | add (c : Fin 12) (rd rs rt : Fin 16)
  | sub (c : Fin 12) (rd rs rt : Fin 16)
  | addi (c : Fin 12) (rd rs : Fin 16) (imm : BitVec 16)
  | neg (c : Fin 12) (rd rs : Fin 16)
  | abs (c : Fin 12) (rd rs : Fin 16)
  | min (c : Fin 12) (rd rs rt : Fin 16)
  | max (c : Fin 12) (rd rs rt : Fin 16)
  | clp (c : Fin 12) (rd rs rt : Fin 16)
  | and (c : Fin 12) (rd rs rt : Fin 16)
  | or (c : Fin 12) (rd rs rt : Fin 16)
  | xor (c : Fin 12) (rd rs rt : Fin 16)
  | andi (c : Fin 12) (rd rs : Fin 16) (imm : BitVec 16)
  | ori (c : Fin 12) (rd rs : Fin 16) (imm : BitVec 16)
  | shl (c : Fin 12) (rd rs rt : Fin 16)
  | shr (c : Fin 12) (rd rs rt : Fin 16)
  | sar (c : Fin 12) (rd rs rt : Fin 16)
  | shli (c : Fin 12) (rd rs : Fin 16) (sh : BitVec 6)
  | shri (c : Fin 12) (rd rs : Fin 16) (sh : BitVec 6)
  | sari (c : Fin 12) (rd rs : Fin 16) (sh : BitVec 6)
  | cmp (c : Fin 12) (rs rt : Fin 16)
  | cmpi (c : Fin 12) (rs : Fin 16) (imm : BitVec 16)
  | norm (c : Fin 12) (rd rs : Fin 16)
  | mul (c : Fin 12) (rd rs rt : Fin 16)
  | sel (c : Fin 12) (rd rs rt : Fin 16) (cond : Cond)
  | mpy (c : Fin 12) (ax : Fin 4) (ds dt : Fin 16)
  | mac (c : Fin 12) (ax : Fin 4) (ds dt : Fin 16)
  | msu (c : Fin 12) (ax : Fin 4) (ds dt : Fin 16)
  | mac2 (c : Fin 12) (q : Fin 2) (ds dt du dv : Fin 16)
  | macl (c : Fin 12) (ax : Fin 4) (ds dt dl : Fin 16) (p : Fin 8) (post : Bool)
  | msul (c : Fin 12) (ax : Fin 4) (ds dt dl : Fin 16) (p : Fin 8) (post : Bool)
  | aclr (c : Fin 12) (ax : Fin 4)
  | aset (c : Fin 12) (ax : Fin 4) (ds : Fin 16) (sh : BitVec 6)
  | aadd (c : Fin 12) (ax ay : Fin 4)
  | asub (c : Fin 12) (ax ay : Fin 4)
  | ext (c : Fin 12) (dd : Fin 16) (ax : Fin 4) (sh : BitVec 6)
  | dstep (c : Fin 12) (ax : Fin 4) (ds : Fin 16)
  | padd (c : Fin 12) (p : Fin 8) (imm : BitVec 16)
  | b (c : Fin 12) (cond : Cond) (off : BitVec 16)
  | call (c : Fin 12) (off : BitVec 16)
  | jr (c : Fin 12) (p : Fin 8)
  | rep (c : Fin 12) (n : BitVec 8)
  | repr (c : Fin 12) (ds : Fin 16)
  /-- BLK: `len` words, 1 to 256, in `len - 1`. -/
  | blk (c : Fin 12) (n : BitVec 16) (lenLess1 : BitVec 8)
  | blkr (c : Fin 12) (ds : Fin 16) (lenLess1 : BitVec 8)
  | take (c : Fin 12)
  | done (c : Fin 12) (rearm : Bool)
  | post (c : Fin 12) (dA dB : Fin 16)
  | postg (c : Fin 12) (dA dB : Fin 16)
  | cmtg (c : Fin 12) (ds : Fin 16)
  | dli (c : Fin 12) (dK dA dB : Fin 16)
  | dlc (c : Fin 12) (dA : Fin 16)
  | sync (c : Fin 12)
  | bkpt (c : Fin 12)
  | dbgHalt (c : Fin 12)
  | dbgResume (c : Fin 12)
  | dbgStep (c : Fin 12)
  | dregWrite (c : Fin 12) (k : Fin 96) (data : Word)
  | separationCycle
  /-- SAFETY_FRAME (R362): a Ubkair frame of a connection, its bytes. -/
  | safetyFrame (conn : Fin 16) (bytes : List Byte)
  | connectionLost (conn : Fin 16)
  /-- SAFE_INPUT (R328): the filtered levels of the two channels of an input. -/
  | safeInput (k : Fin 16) (a b : ChanLevel)
  | discrepancy (k : Fin 16)
  /-- STO_TEST (R327): the outputs whose readback did not follow the test pulse: STO A, STO B per group, brakes. -/
  | stoTest (badA badB : BitVec 8) (badBrake : BitVec 64)
  /-- READBACK_FAULT (R327): the channel (0 A, 1 B) of a group's STO, or a brake of a slice, that differs. -/
  | readbackFault (g : Fin 8) (ch : Fin 2) (brake : Option (Fin 64))
  /-- PITCH_HOLD_LOST (R321): the pitch whose home's holder record is gone. -/
  | pitchHoldLost (k : Fin 64)
  | safetyLoad (h : CmdHead) (addr : BitVec 64) (len : Word)
  /-- FRAME_RECEIVE (R356): the bytes of a frame from header to frame check sequence, whose start a port saw in this count,
  `fine` sixteenths of a count later (R342); `bad` counts the invalid code groups and /V/ in it (R341, R372). -/
  | frameReceive (ch : Chan) (p : PortSide) (fine : Fin 16) (bad : BitVec 16) (bytes : List Byte)
  | probe (ch : Chan) (p : PortSide)
  /-- PROBE_ANSWER (R342): a probe received; `clear` when no frame interferes with the echo. -/
  | probeAnswer (ch : Chan) (p : PortSide) (clear : Bool)
  /-- ECHO (R342): the round trip that the answered probe shows, in sixteenths of a timing count. -/
  | echo (ch : Chan) (p : PortSide) (trip : BitVec 24)
  | portUp (ch : Chan) (p : PortSide)
  | portDown (ch : Chan) (p : PortSide)
  | reopen (ch : Chan)
  | scheduleCommit (ch : Chan)
  | leadRead (ch : Chan) (n : Fin 4096)
  | battenSend (ch : Chan) (n : Fin 4096)
  | missing (ch : Chan) (n : Fin 4096)
  | linkCycleEnd
  | listenTimeout
  | standalone (on : Bool)
  /-- CHANNEL_ENABLE (R367): the values written to LNK.CFG.ena_a and ena_b. -/
  | channelEnable (a b : Bool)
  | twinStart
  | claim
  | yield
  | mirrorLoss
  /-- ACT_IN_FALL (R377, R387): the glitch filter passes a fall of the ball. -/
  | actInFall
  /-- ACT_IN_RISE (R377, R390): the glitch filter passes a rise of the ball. -/
  | actInRise
  | yieldComplete
  | handover
  | mirrorConfirmTimeout (n : Fin 16)
  | doorbell (n : Fin 16) (count : Word)
  | completionDoorbell (r : ConsumerRing) (count : Word)
  /-- DESCRIPTOR_FETCH (R403): `ok` is false when the read returned an error or poisoned data (R424). -/
  | descriptorFetch (n : Fin 16) (ok : Bool)
  | nopCmd (h : CmdHead)
  | dlInsert (h : CmdHead) (list dir stall slot : Byte) (data : Word) (key : BitVec 64)
  | dlCancel (h : CmdHead) (list stall slot : Byte)
  | stallToken (h : CmdHead) (stall slot : Byte) (data : Word)
  | coordStep (h : CmdHead) (coord : Byte) (delta : BitVec 64) (duration : Word)
  | overrideSet (h : CmdHead) (coord : Byte) (factor : BitVec 16)
  | imageLoadLoop (h : CmdHead) (group : Byte) (addr : BitVec 64) (len : Word)
  | imageLoadFirmware (h : CmdHead) (addr : BitVec 64) (len : Word)
  | attest (h : CmdHead) (addr : BitVec 64) (len : Word) (nonce : BitVec 256)
  | status (h : CmdHead)
  | abort (h : CmdHead) (seq : BitVec 64)
  | ledgerFull (m : Fin 16)
  | moderationTimeout (r : ConsumerRing)
  /-- LINK_STATE (R394): the endpoint as the link and the host's configuration writes leave it. -/
  | linkState (c : PcieSetup)
  | tallyTake (k : Fin 4)
  | pctlRead
  | pctlWrite
  | mirrorCopy (point : BitVec 17)
  | brownout
  /-- DEVICE_RESET (R445): the cause, and whether the always-on domain was kept. -/
  | deviceReset (cause : ResetCause) (kept : Bool)
  /-- BOOT_FETCH (R447, R451): the bundle's fetch ends; `ok` false when a read of it returned an error. -/
  | bootFetch (ok : Bool)
  | bootVerify
  | bootComplete
  | bootRetry
  | memStart
  /-- TRAINING_DONE (R464): none when training passed, or the failing step. -/
  | trainingDone (failed : Option (BitVec 3))
  | retrain
  /-- SCRUB (R465): the word read, and what its code showed: clean, or an error, uncorrectable or corrected. -/
  | scrub (mem : ScrubMem) (addr : BitVec 33) (uncorrectable : Option Bool)
  | loopAreaWrite
  /-- LOOP_AREA_READBACK (R454): the cores whose readback differs. -/
  | loopAreaReadback (bad : BitVec 12)
  | firmwareSwitched
  | serviceWatchdog
  /-- ROLLBACK_ADVANCE (R456): the class and value written to SEC.ROLL_ADV. -/
  | rollbackAdvance (cls : BitVec 2) (value : BitVec 8)
  | keyProgram
  /-- KEY_PROGRAMMED (R457): whether the readback agreed. -/
  | keyProgrammed (same : Bool)
  | keyRevoke
  | provision
  /-- PROVISIONED (R458): whether the TRNG's health test passed. -/
  | provisioned (healthy : Bool)
  | debugUnlock
  | debugRelock
  | timingClockReturn
  | resetRelease
  | safetyRegionResetRelease
  /-- ALWAYS_ON_SOURCE_SWITCH (R477): whether VDDIO now stands above 2.9 V. -/
  | alwaysOnSourceSwitch (vddioAbove : Bool)
  | pcieFundamentalReset
  /-- REGISTER_READ (R8): a host read of `bytes` bytes at an offset of BAR0, or of BAR2. -/
  | registerRead (bar2 : Bool) (off : BitVec 22) (bytes : Fin 9)
  /-- STORE_TAKES_EFFECT (R284): the oldest entry of the core's store queue, or of its POST queue. -/
  | storeTakesEffect (c : Fin 12) (posts : Bool)
  | postgCheck (c : Fin 12)
  | dliOutcome (c : Fin 12)
  | imageVerified
  deriving DecidableEq, Repr

end Sys2Proof
end

