-- ==== Sys2Proof/WellFormed.lean ====
section
/-!
DEFINITION. Which commands are well formed: loop-core instructions without a reserved register number, an odd pair or a
reserved field value (R289, R290, R292), and events whose operands lie in the ranges their rules give. The machine
gives every command a meaning; an ill-formed loop-core instruction raises ILLEGAL.
-/

namespace Sys2Proof

/-- A mode without an offset field has offset 0 (R290). -/
def offsetOk (mode : Fin 4) (off : BitVec 12) : Bool := mode == 2 || off == 0

/-- An even register below 16: the pair of LDD and STD (R292). -/
def pairOk (d : Fin 64) : Bool := d.val < 16 && d.val % 2 == 0

/-- Well-formedness of a command. -/
def Instr.wf : Instr → Bool
  | .mov _ rd rs => rd.val ≤ 51 && rs.val ≤ 52
  | .ld _ r _ mode off => r.val ≤ 51 && offsetOk mode off
  | .st _ r _ mode off => r.val ≤ 52 && offsetOk mode off
  | .ldd _ d _ mode off => pairOk d && offsetOk mode off
  | .std _ d _ mode off => pairOk d && offsetOk mode off
  | .aset _ _ _ sh => sh.toNat ≤ 40
  | .dli _ dK _ _ => dK.val % 2 == 0
  | .bankFault _ cause => 1 ≤ cause.val
  | .stallEnable n _ => n != 0
  | .cmConversion codes => codes.length == 9
  | .registerWrite _ _ bytes _ => 1 ≤ bytes.val
  | .registerRead _ _ bytes => 1 ≤ bytes.val
  | _ => true

end Sys2Proof
end

