-- ==== Sys2Proof/Decode.lean ====
section
/-!
DEFINITION. Decoding. The opcode table gives no row of this block any bits, so no word of the table spells a command
(log 7). The loop cores' 32-bit instruction words have an encoding of their own (R289 to R292): `decodeCore` reads a
word as the instruction a core issues, and `encodeCore` writes it.
-/

namespace Sys2Proof

/-- The command that a word spells by the table's bits: the table of this block gives none (log 7). -/
def decodeTableWord (_nbits _w : Nat) : Option Instr := none

/-! ## Fields of an instruction word (R289, R290) -/

/-- Bits of a word from `lsb`, `width` of them. -/
def at' (w : Word) (lsb width : Nat) : Nat := w.toNat / 2 ^ lsb % 2 ^ width

/-- A register or accumulator number in a field. -/
def finAt (w : Word) (lsb width : Nat) : Fin (2 ^ width) := ⟨at' w lsb width, Nat.mod_lt _ (Nat.two_pow_pos width)⟩

/-- An immediate in a field. -/
def bvAt (w : Word) (lsb width : Nat) : BitVec width := BitVec.ofNat width (at' w lsb width)

/-- A flag as a bit. -/
def boolBit (b : Bool) : Nat := if b then 1 else 0

/-- The condition codes in the order of R291. -/
def conds : List Cond := [.AL, .EQ, .NE, .LT, .GE, .LE, .GT, .LO, .HS, .MI, .PL, .VS, .VC, .GS, .GC, .DF]

/-- The value of a condition (R291). -/
def Cond.code : Cond → Nat
  | .AL => 0 | .EQ => 1 | .NE => 2 | .LT => 3 | .GE => 4 | .LE => 5 | .GT => 6 | .LO => 7 | .HS => 8 | .MI => 9
  | .PL => 10 | .VS => 11 | .VC => 12 | .GS => 13 | .GC => 14 | .DF => 15

/-- The condition in a field (R291). -/
def condAt (w : Word) (lsb : Nat) : Cond := conds.getD (at' w lsb 4) .AL

/-- A decoded instruction is kept when its reserved bits are 0 and it is well formed; else the word is ILLEGAL (R289). -/
def keep (zero : Bool) (i : Instr) : Option Instr := if zero && i.wf then some i else none

/-- The instruction that a word spells for core c; none: ILLEGAL (R289 to R292). -/
def decodeCore (c : Fin 12) (w : Word) : Option Instr :=
  match at' w 26 6 with
  | 1 => keep (at' w 0 26 == 0) (.nop c)
  | 2 => keep (at' w 0 14 == 0) (.mov c (finAt w 20 6) (finAt w 14 6))
  | 3 => keep (at' w 16 6 == 0) (.movi c (finAt w 22 4) (bvAt w 0 16))
  | 4 => keep (at' w 16 6 == 0) (.movhi c (finAt w 22 4) (bvAt w 0 16))
  | 5 => keep (at' w 12 3 == 0) (.ld c (finAt w 20 6) (finAt w 17 3) (finAt w 15 2) (bvAt w 0 12))
  | 6 => keep (at' w 12 3 == 0) (.st c (finAt w 20 6) (finAt w 17 3) (finAt w 15 2) (bvAt w 0 12))
  | 7 => keep (at' w 12 3 == 0) (.ldd c (finAt w 20 6) (finAt w 17 3) (finAt w 15 2) (bvAt w 0 12))
  | 8 => keep (at' w 12 3 == 0) (.std c (finAt w 20 6) (finAt w 17 3) (finAt w 15 2) (bvAt w 0 12))
  | 9 => keep (at' w 0 14 == 0) (.add c (finAt w 22 4) (finAt w 18 4) (finAt w 14 4))
  | 10 => keep (at' w 0 14 == 0) (.sub c (finAt w 22 4) (finAt w 18 4) (finAt w 14 4))
  | 11 => keep (at' w 16 2 == 0) (.addi c (finAt w 22 4) (finAt w 18 4) (bvAt w 0 16))
  | 12 => keep (at' w 0 18 == 0) (.neg c (finAt w 22 4) (finAt w 18 4))
  | 13 => keep (at' w 0 18 == 0) (.abs c (finAt w 22 4) (finAt w 18 4))
  | 14 => keep (at' w 0 14 == 0) (.min c (finAt w 22 4) (finAt w 18 4) (finAt w 14 4))
  | 15 => keep (at' w 0 14 == 0) (.max c (finAt w 22 4) (finAt w 18 4) (finAt w 14 4))
  | 16 => keep (at' w 0 14 == 0) (.clp c (finAt w 22 4) (finAt w 18 4) (finAt w 14 4))
  | 17 => keep (at' w 0 14 == 0) (.and c (finAt w 22 4) (finAt w 18 4) (finAt w 14 4))
  | 18 => keep (at' w 0 14 == 0) (.or c (finAt w 22 4) (finAt w 18 4) (finAt w 14 4))
  | 19 => keep (at' w 0 14 == 0) (.xor c (finAt w 22 4) (finAt w 18 4) (finAt w 14 4))
  | 20 => keep (at' w 16 2 == 0) (.andi c (finAt w 22 4) (finAt w 18 4) (bvAt w 0 16))
  | 21 => keep (at' w 16 2 == 0) (.ori c (finAt w 22 4) (finAt w 18 4) (bvAt w 0 16))
  | 22 => keep (at' w 0 14 == 0) (.shl c (finAt w 22 4) (finAt w 18 4) (finAt w 14 4))
  | 23 => keep (at' w 0 14 == 0) (.shr c (finAt w 22 4) (finAt w 18 4) (finAt w 14 4))
  | 24 => keep (at' w 0 14 == 0) (.sar c (finAt w 22 4) (finAt w 18 4) (finAt w 14 4))
  | 25 => keep (at' w 6 12 == 0) (.shli c (finAt w 22 4) (finAt w 18 4) (bvAt w 0 6))
  | 26 => keep (at' w 6 12 == 0) (.shri c (finAt w 22 4) (finAt w 18 4) (bvAt w 0 6))
  | 27 => keep (at' w 6 12 == 0) (.sari c (finAt w 22 4) (finAt w 18 4) (bvAt w 0 6))
  | 28 => keep (at' w 22 4 == 0 && at' w 0 14 == 0) (.cmp c (finAt w 18 4) (finAt w 14 4))
  | 29 => keep (at' w 22 4 == 0 && at' w 16 2 == 0) (.cmpi c (finAt w 18 4) (bvAt w 0 16))
  | 30 => keep (at' w 0 18 == 0) (.norm c (finAt w 22 4) (finAt w 18 4))
  | 31 => keep (at' w 0 14 == 0) (.mul c (finAt w 22 4) (finAt w 18 4) (finAt w 14 4))
  | 32 => keep (at' w 0 10 == 0) (.sel c (finAt w 22 4) (finAt w 18 4) (finAt w 14 4) (condAt w 10))
  | 33 => keep (at' w 0 16 == 0) (.mpy c (finAt w 24 2) (finAt w 20 4) (finAt w 16 4))
  | 34 => keep (at' w 0 16 == 0) (.mac c (finAt w 24 2) (finAt w 20 4) (finAt w 16 4))
  | 35 => keep (at' w 0 16 == 0) (.msu c (finAt w 24 2) (finAt w 20 4) (finAt w 16 4))
  | 36 => keep (at' w 24 1 == 0 && at' w 0 8 == 0) (.mac2 c (finAt w 25 1) (finAt w 20 4) (finAt w 16 4) (finAt w 12 4) (finAt w 8 4))
  | 37 => keep (at' w 0 8 == 0) (.macl c (finAt w 24 2) (finAt w 20 4) (finAt w 16 4) (finAt w 12 4) (finAt w 9 3) (at' w 8 1 == 1))
  | 38 => keep (at' w 0 8 == 0) (.msul c (finAt w 24 2) (finAt w 20 4) (finAt w 16 4) (finAt w 12 4) (finAt w 9 3) (at' w 8 1 == 1))
  | 39 => keep (at' w 0 24 == 0) (.aclr c (finAt w 24 2))
  | 40 => keep (at' w 0 14 == 0) (.aset c (finAt w 20 2) (finAt w 22 4) (bvAt w 14 6))
  | 41 => keep (at' w 0 22 == 0) (.aadd c (finAt w 24 2) (finAt w 22 2))
  | 42 => keep (at' w 0 22 == 0) (.asub c (finAt w 24 2) (finAt w 22 2))
  | 43 => keep (at' w 0 14 == 0) (.ext c (finAt w 22 4) (finAt w 20 2) (bvAt w 14 6))
  | 44 => keep (at' w 0 20 == 0) (.dstep c (finAt w 24 2) (finAt w 20 4))
  | 45 => keep (at' w 16 7 == 0) (.padd c (finAt w 23 3) (bvAt w 0 16))
  | 46 => keep (at' w 16 6 == 0) (.b c (condAt w 22) (bvAt w 0 16))
  | 47 => keep (at' w 16 10 == 0) (.call c (bvAt w 0 16))
  | 48 => keep (at' w 0 23 == 0) (.jr c (finAt w 23 3))
  | 49 => keep (at' w 8 18 == 0) (.rep c (bvAt w 0 8))
  | 50 => keep (at' w 0 22 == 0) (.repr c (finAt w 22 4))
  | 51 => keep (at' w 16 2 == 0) (.blk c (bvAt w 0 16) (bvAt w 18 8))
  | 52 => keep (at' w 0 14 == 0) (.blkr c (finAt w 14 4) (bvAt w 18 8))
  | 53 => keep (at' w 0 26 == 0) (.take c)
  | 54 => keep (at' w 1 25 == 0) (.done c (at' w 0 1 == 1))
  | 55 => keep (at' w 0 18 == 0) (.post c (finAt w 22 4) (finAt w 18 4))
  | 56 => keep (at' w 0 18 == 0) (.postg c (finAt w 22 4) (finAt w 18 4))
  | 57 => keep (at' w 0 22 == 0) (.cmtg c (finAt w 22 4))
  | 58 => keep (at' w 0 14 == 0) (.dli c (finAt w 22 4) (finAt w 18 4) (finAt w 14 4))
  | 59 => keep (at' w 0 22 == 0) (.dlc c (finAt w 22 4))
  | 60 => keep (at' w 0 26 == 0) (.sync c)
  | 61 => keep (at' w 0 26 == 0) (.bkpt c)
  | _ => none

/-- A word from its opcode and its fields, each with its lowest bit. -/
def wordOf (op : Nat) (fields : List (Nat × Nat)) : Option Word :=
  some (BitVec.ofNat 32 (op * 2 ^ 26 + (fields.map fun f => f.1 * 2 ^ f.2).sum))

/-- The word of a loop-core instruction (R290, R292); none for a command that is no instruction. -/
def encodeCore : Instr → Option Word
  | .nop _ => wordOf 1 []
  | .mov _ x0 x1 => wordOf 2 [(x0.val, 20), (x1.val, 14)]
  | .movi _ x0 x1 => wordOf 3 [(x0.val, 22), (x1.toNat, 0)]
  | .movhi _ x0 x1 => wordOf 4 [(x0.val, 22), (x1.toNat, 0)]
  | .ld _ x0 x1 x2 x3 => wordOf 5 [(x0.val, 20), (x1.val, 17), (x2.val, 15), (x3.toNat, 0)]
  | .st _ x0 x1 x2 x3 => wordOf 6 [(x0.val, 20), (x1.val, 17), (x2.val, 15), (x3.toNat, 0)]
  | .ldd _ x0 x1 x2 x3 => wordOf 7 [(x0.val, 20), (x1.val, 17), (x2.val, 15), (x3.toNat, 0)]
  | .std _ x0 x1 x2 x3 => wordOf 8 [(x0.val, 20), (x1.val, 17), (x2.val, 15), (x3.toNat, 0)]
  | .add _ x0 x1 x2 => wordOf 9 [(x0.val, 22), (x1.val, 18), (x2.val, 14)]
  | .sub _ x0 x1 x2 => wordOf 10 [(x0.val, 22), (x1.val, 18), (x2.val, 14)]
  | .addi _ x0 x1 x2 => wordOf 11 [(x0.val, 22), (x1.val, 18), (x2.toNat, 0)]
  | .neg _ x0 x1 => wordOf 12 [(x0.val, 22), (x1.val, 18)]
  | .abs _ x0 x1 => wordOf 13 [(x0.val, 22), (x1.val, 18)]
  | .min _ x0 x1 x2 => wordOf 14 [(x0.val, 22), (x1.val, 18), (x2.val, 14)]
  | .max _ x0 x1 x2 => wordOf 15 [(x0.val, 22), (x1.val, 18), (x2.val, 14)]
  | .clp _ x0 x1 x2 => wordOf 16 [(x0.val, 22), (x1.val, 18), (x2.val, 14)]
  | .and _ x0 x1 x2 => wordOf 17 [(x0.val, 22), (x1.val, 18), (x2.val, 14)]
  | .or _ x0 x1 x2 => wordOf 18 [(x0.val, 22), (x1.val, 18), (x2.val, 14)]
  | .xor _ x0 x1 x2 => wordOf 19 [(x0.val, 22), (x1.val, 18), (x2.val, 14)]
  | .andi _ x0 x1 x2 => wordOf 20 [(x0.val, 22), (x1.val, 18), (x2.toNat, 0)]
  | .ori _ x0 x1 x2 => wordOf 21 [(x0.val, 22), (x1.val, 18), (x2.toNat, 0)]
  | .shl _ x0 x1 x2 => wordOf 22 [(x0.val, 22), (x1.val, 18), (x2.val, 14)]
  | .shr _ x0 x1 x2 => wordOf 23 [(x0.val, 22), (x1.val, 18), (x2.val, 14)]
  | .sar _ x0 x1 x2 => wordOf 24 [(x0.val, 22), (x1.val, 18), (x2.val, 14)]
  | .shli _ x0 x1 x2 => wordOf 25 [(x0.val, 22), (x1.val, 18), (x2.toNat, 0)]
  | .shri _ x0 x1 x2 => wordOf 26 [(x0.val, 22), (x1.val, 18), (x2.toNat, 0)]
  | .sari _ x0 x1 x2 => wordOf 27 [(x0.val, 22), (x1.val, 18), (x2.toNat, 0)]
  | .cmp _ x0 x1 => wordOf 28 [(x0.val, 18), (x1.val, 14)]
  | .cmpi _ x0 x1 => wordOf 29 [(x0.val, 18), (x1.toNat, 0)]
  | .norm _ x0 x1 => wordOf 30 [(x0.val, 22), (x1.val, 18)]
  | .mul _ x0 x1 x2 => wordOf 31 [(x0.val, 22), (x1.val, 18), (x2.val, 14)]
  | .sel _ x0 x1 x2 x3 => wordOf 32 [(x0.val, 22), (x1.val, 18), (x2.val, 14), (x3.code, 10)]
  | .mpy _ x0 x1 x2 => wordOf 33 [(x0.val, 24), (x1.val, 20), (x2.val, 16)]
  | .mac _ x0 x1 x2 => wordOf 34 [(x0.val, 24), (x1.val, 20), (x2.val, 16)]
  | .msu _ x0 x1 x2 => wordOf 35 [(x0.val, 24), (x1.val, 20), (x2.val, 16)]
  | .mac2 _ x0 x1 x2 x3 x4 => wordOf 36 [(x0.val, 25), (x1.val, 20), (x2.val, 16), (x3.val, 12), (x4.val, 8)]
  | .macl _ x0 x1 x2 x3 x4 x5 => wordOf 37 [(x0.val, 24), (x1.val, 20), (x2.val, 16), (x3.val, 12), (x4.val, 9), (boolBit x5, 8)]
  | .msul _ x0 x1 x2 x3 x4 x5 => wordOf 38 [(x0.val, 24), (x1.val, 20), (x2.val, 16), (x3.val, 12), (x4.val, 9), (boolBit x5, 8)]
  | .aclr _ x0 => wordOf 39 [(x0.val, 24)]
  | .aset _ x0 x1 x2 => wordOf 40 [(x0.val, 20), (x1.val, 22), (x2.toNat, 14)]
  | .aadd _ x0 x1 => wordOf 41 [(x0.val, 24), (x1.val, 22)]
  | .asub _ x0 x1 => wordOf 42 [(x0.val, 24), (x1.val, 22)]
  | .ext _ x0 x1 x2 => wordOf 43 [(x0.val, 22), (x1.val, 20), (x2.toNat, 14)]
  | .dstep _ x0 x1 => wordOf 44 [(x0.val, 24), (x1.val, 20)]
  | .padd _ x0 x1 => wordOf 45 [(x0.val, 23), (x1.toNat, 0)]
  | .b _ x0 x1 => wordOf 46 [(x0.code, 22), (x1.toNat, 0)]
  | .call _ x0 => wordOf 47 [(x0.toNat, 0)]
  | .jr _ x0 => wordOf 48 [(x0.val, 23)]
  | .rep _ x0 => wordOf 49 [(x0.toNat, 0)]
  | .repr _ x0 => wordOf 50 [(x0.val, 22)]
  | .blk _ x0 x1 => wordOf 51 [(x0.toNat, 0), (x1.toNat, 18)]
  | .blkr _ x0 x1 => wordOf 52 [(x0.val, 14), (x1.toNat, 18)]
  | .take _ => wordOf 53 []
  | .done _ x0 => wordOf 54 [(boolBit x0, 0)]
  | .post _ x0 x1 => wordOf 55 [(x0.val, 22), (x1.val, 18)]
  | .postg _ x0 x1 => wordOf 56 [(x0.val, 22), (x1.val, 18)]
  | .cmtg _ x0 => wordOf 57 [(x0.val, 22)]
  | .dli _ x0 x1 x2 => wordOf 58 [(x0.val, 22), (x1.val, 18), (x2.val, 14)]
  | .dlc _ x0 => wordOf 59 [(x0.val, 22)]
  | .sync _ => wordOf 60 []
  | .bkpt _ => wordOf 61 []
  | _ => none

end Sys2Proof
end

