-- ==== Sys2Proof/Machine/Bits.lean ====
section
/-!
DEFINITION. Bit fields (R2), signed fixed-point numbers (R3), little-endian bytes (R1), saturating counts, and the
sparse tables in canonical form that hold registers, memories and indexed state.
-/

namespace Sys2Proof.Machine

/-! ## Fields -/

/-- The place of a field: BAR0 offset of its register, its lowest bit and its width (R2). -/
structure Fld where
  addr : Nat
  lsb : Nat
  width : Nat
  deriving DecidableEq, Repr

/-- Bits [lsb+width-1 : lsb] of a number (R2). -/
def bitsOf (v lsb width : Nat) : Nat := (v >>> lsb) % 2 ^ width

/-- Bit `i` of a number. -/
def bitAt (v i : Nat) : Bool := v.testBit i

/-- Bits [lsb+width-1 : lsb] of a word (R2). -/
def fieldOf (w : Word) (lsb width : Nat) : Nat := bitsOf w.toNat lsb width

/-- The word with bits [lsb+width-1 : lsb] replaced by the low bits of `v`; every other bit stays (R2). -/
def withField (w : Word) (lsb width v : Nat) : Word :=
  BitVec.ofNat 32 ((w.toNat >>> (lsb + width) <<< (lsb + width)) + ((v % 2 ^ width) <<< lsb) + w.toNat % 2 ^ lsb)

/-! ## Signed numbers -/

/-- The two's-complement reading of the low `n` bits of `v` (R3). -/
def signedOf (n v : Nat) : Int :=
  let u := v % 2 ^ n
  if u < 2 ^ (n - 1) then (u : Int) else (u : Int) - 2 ^ n

/-- The low `n` bits of an integer, as an unsigned number (R3). -/
def unsignedOf (n : Nat) (i : Int) : Nat := (i % (2 ^ n : Int)).toNat

/-- An integer held within `lo` and `hi`. -/
def clampInt (lo hi i : Int) : Int := max lo (min hi i)

/-- Saturation to an `n`-bit signed number. -/
def satSigned (n : Nat) (i : Int) : Int := clampInt (-(2 ^ (n - 1) : Int)) (2 ^ (n - 1) - 1) i

/-- A count of `width` bits that saturates at its largest value. -/
def satCount (width n : Nat) : Nat := min n (2 ^ width - 1)

/-- Round an exact quotient to the nearest integer, halves away from zero. -/
def divRoundNearest (a : Int) (b : Nat) : Int :=
  if b = 0 then 0
  else if 0 ≤ a then (2 * a + b) / (2 * b) else -((2 * (-a) + b) / (2 * b))

/-- The integer square root, rounded down, by bisection over `k` bits. -/
def isqrtBits : Nat → Nat → Nat → Nat
  | 0, _, acc => acc
  | k + 1, n, acc => if (acc + 2 ^ k) * (acc + 2 ^ k) ≤ n then isqrtBits k n (acc + 2 ^ k) else isqrtBits k n acc

/-- The integer square root of a number below 2^256, rounded down. -/
def isqrt (n : Nat) : Nat := isqrtBits 128 n 0

/-! ## Bytes -/

/-- The number whose little-endian bytes are `bs` (R1). -/
def ofBytes : List Byte → Nat
  | [] => 0
  | b :: bs => b.toNat + 256 * ofBytes bs

/-- The `n` little-endian bytes of a number (R1). -/
def toBytes : Nat → Nat → List Byte
  | 0, _ => []
  | n + 1, v => BitVec.ofNat 8 v :: toBytes n (v / 256)

/-- Bytes `[at, at + n)` of a byte string, as a little-endian number; bytes past its end count as 0. -/
def bytesAt (bs : List Byte) (pos n : Nat) : Nat := ofBytes ((bs.drop pos).take n)

/-! ## Tables -/

/-- A sparse table in canonical form: keys strictly rising, no entry equal to what an unlisted key reads as. -/
abbrev Tab (α : Type) := List (Nat × α)

/-- The entry listed at `k`, if there is one. -/
def Tab.find? {α : Type} : Tab α → Nat → Option α
  | [], _ => none
  | (a, v) :: t, k => if k = a then some v else Tab.find? t k

/-- What the table holds at `k`: the listed entry, or the default `d k`. -/
def Tab.get {α : Type} (d : Nat → α) (t : Tab α) (k : Nat) : α := (Tab.find? t k).getD (d k)

/-- The table with `v` listed at `k`, in key order. -/
def Tab.insert {α : Type} : Tab α → Nat → α → Tab α
  | [], k, v => [(k, v)]
  | (a, w) :: t, k, v =>
    if k < a then (k, v) :: (a, w) :: t
    else if k = a then (k, v) :: t
    else (a, w) :: Tab.insert t k v

/-- The table without an entry at `k`. -/
def Tab.erase {α : Type} (t : Tab α) (k : Nat) : Tab α := t.filter fun e => e.1 ≠ k

/-- The table that holds `v` at `k` and is as before elsewhere; writing the default removes the entry. -/
def Tab.set {α : Type} [DecidableEq α] (d : Nat → α) (t : Tab α) (k : Nat) (v : α) : Tab α :=
  if v = d k then Tab.erase t k else Tab.insert t k v

/-- The keys of a table rise strictly above `lo`. -/
def Tab.sortedAbove {α : Type} : Option Nat → Tab α → Bool
  | _, [] => true
  | lo, (a, _) :: t => (match lo with | none => true | some l => decide (l < a)) && Tab.sortedAbove (some a) t

/-- Canonical form of a table: keys strictly rising, no listed default. -/
def Tab.wf {α : Type} [DecidableEq α] (d : Nat → α) (t : Tab α) : Bool :=
  Tab.sortedAbove none t && t.all fun e => decide (e.2 ≠ d e.1)

/-! ## Byte memories: an unlisted byte reads 0 (log 3) -/

/-- The byte at an address. -/
def memByte (m : Tab Byte) (a : Nat) : Byte := Tab.get (fun _ => 0) m a

/-- The memory with one byte written. -/
def memSetByte (m : Tab Byte) (a : Nat) (b : Byte) : Tab Byte := Tab.set (fun _ => 0) m a b

/-- The `n` bytes from an address, lowest first. -/
def memBytes (m : Tab Byte) (a : Nat) : Nat → List Byte
  | 0 => []
  | n + 1 => memByte m a :: memBytes m (a + 1) n

/-- The memory with a byte string written from an address. -/
def memWrite (m : Tab Byte) (a : Nat) : List Byte → Tab Byte
  | [] => m
  | b :: bs => memWrite (memSetByte m a b) (a + 1) bs

/-- The little-endian number of `n` bytes at an address (R1). -/
def memNat (m : Tab Byte) (a n : Nat) : Nat := ofBytes (memBytes m a n)

/-- The memory with the `n` little-endian bytes of a number written at an address (R1). -/
def memWriteNat (m : Tab Byte) (a n v : Nat) : Tab Byte := memWrite m a (toBytes n v)

/-! ## Lists -/

/-- Fold a function over the numbers 0 to n - 1. -/
def foldUpTo {β : Type} (n : Nat) (f : β → Nat → β) (b : β) : β := (List.range n).foldl f b

end Sys2Proof.Machine
end

