-- ==== Sys2Proof/Machine/Crc.lean ====
section
/-!
DEFINITION. The cyclic redundancy checks of Camyel Link (R349).
-/

namespace Sys2Proof.Machine

/-- `n` shifts of an MSB-first register of `width` bits. -/
def crcShift (width poly : Nat) : Nat → Nat → Nat
  | 0, r => r
  | n + 1, r =>
    let t := r * 2 % 2 ^ width
    crcShift width poly n (if r.testBit (width - 1) then t ^^^ poly else t)

/-- A CRC that takes the most significant bit of each byte first, with no final XOR (R349). -/
def crcMsb (width poly init : Nat) (bs : List Byte) : Nat :=
  bs.foldl (fun (r : Nat) (b : Byte) => crcShift width poly 8 (r ^^^ (b.toNat * 2 ^ (width - 8)))) init

/-- `n` bits of a number in reverse order. -/
def reverseBits (n v : Nat) : Nat :=
  (List.range n).foldl (fun (a : Nat) (i : Nat) => a * 2 + if v.testBit i then 1 else 0) 0

/-- The header CRC (R349). -/
def headerCrc (bs : List Byte) : Nat := crcMsb 16 0x1021 0xFFFF bs

/-- The frame check sequence: reflected input and output, as that of IEEE 802.3 (R349). -/
def frameCheck (bs : List Byte) : Nat :=
  reverseBits 32 (crcMsb 32 0x04C11DB7 0xFFFFFFFF (bs.map fun b => BitVec.ofNat 8 (reverseBits 8 b.toNat))) ^^^ 0xFFFFFFFF

/-- The Ubkair safety CRC of a sender's payload: over its node and the payload without its last four bytes (R351). -/
def safetyCrc (seed node : Nat) (payload : List Byte) : Nat :=
  crcMsb 32 0xF4ACFB13 seed (toBytes 2 node ++ payload.take (payload.length - 4))

end Sys2Proof.Machine
end

