-- ==== Sys2Proof/Config.lean ====
section
/-!
DEFINITION. What one implementation fixes and the spec leaves open: uninterpreted constants (no body), so that nothing
can be proved of their values. `freeValue n` is the n-th free value handed out in a run (State.free counts them).
-/

namespace Sys2Proof.Config

/-- The n-th value the spec leaves open in a run (log 2). -/
opaque freeValue : Nat → BitVec 64

/-- ML-DSA-65 signature check of FIPS 204 under a public key (log 6): key, message, signature. -/
opaque mlDsaVerify : List Byte → List Byte → List Byte → Bool

/-- ML-DSA-65 signature of FIPS 204 (log 6): secret seed, message. -/
opaque mlDsaSign : List Byte → List Byte → List Byte

/-- The ML-DSA-65 public key derived from a seed (log 6). -/
opaque mlDsaPublic : List Byte → List Byte

/-- SHAKE256 of FIPS 202 with an output of the given number of bytes (log 6). -/
opaque shake256 : Nat → List Byte → List Byte

/-- The key built into the boot ROM at manufacture for a key slot (log 6). -/
opaque vendorKey : Nat → List Byte

/-- The contents of the vendor area that a vendor firmware payload carries: their place in the payload is not stated
(log 8). -/
opaque vendorArea : List Byte → List Byte

/-- By how much comparator side i of slice n, number 4n + i, misses its threshold: each trips within ±6 codes of it (R484,
log 87). -/
opaque comparatorError : Nat → Nat

/-- What the device's own functions take a received point for: 1 a peer's mode-status record (R87), 2 another node's
pitch requests, 3 a home's holder record (R321), else nothing. No rule says how they know these points (log 29). -/
opaque pointRole : Nat → Nat

/-- Which ledger record a word of retention SRAM from 0x20000 to 0x20FFF belongs to: n for command ledger n, 16 + m for
completion ledger m, anything else for the tally counts. R467 gives the stretch and not its layout (log 24). -/
opaque retentionRecord : Nat → Nat

/-- In which order the bytes of a law record's working area, bytes [223:160], hold what the law keeps there: the spec gives
the area and not its layout (R212, log 30). -/
opaque workOrder : Equiv.Perm (Fin 64)

end Sys2Proof.Config
end

