-- ==== Sys2Proof/Machine/Fields.lean ====
section
/-!
DEFINITION. The registers and fields of the maps by the spec's names: `F.BLOCK_REGISTER_field` is the place of a field
(R2, R14), `P.BLOCK_REGISTER` the BAR0 offset of the lower word of a 64-bit pair (R8), and `A.BLOCK_REGISTER` the
offset of a register.
-/

namespace Sys2Proof.Machine

/-- BAR0 offset of SYS.ID (R37). -/
def A.SYS_ID : Nat := 0x0
/-- SYS.ID.part, bits [15:0]. -/
def F.SYS_ID_part : Fld := ⟨A.SYS_ID, 0, 16⟩
/-- SYS.ID.family, bits [31:16]. -/
def F.SYS_ID_family : Fld := ⟨A.SYS_ID, 16, 16⟩
/-- BAR0 offset of SYS.STEPPING (R37). -/
def A.SYS_STEPPING : Nat := 0x4
/-- SYS.STEPPING.metal, bits [7:0]. -/
def F.SYS_STEPPING_metal : Fld := ⟨A.SYS_STEPPING, 0, 8⟩
/-- SYS.STEPPING.base, bits [15:8]. -/
def F.SYS_STEPPING_base : Fld := ⟨A.SYS_STEPPING, 8, 8⟩
/-- BAR0 offset of SYS.CAPS (R37). -/
def A.SYS_CAPS : Nat := 0x8
/-- SYS.CAPS.slices, bits [7:0]. -/
def F.SYS_CAPS_slices : Fld := ⟨A.SYS_CAPS, 0, 8⟩
/-- SYS.CAPS.banks, bits [11:8]. -/
def F.SYS_CAPS_banks : Fld := ⟨A.SYS_CAPS, 8, 4⟩
/-- SYS.CAPS.groups, bits [15:12]. -/
def F.SYS_CAPS_groups : Fld := ⟨A.SYS_CAPS, 12, 4⟩
/-- SYS.CAPS.cores, bits [19:16]. -/
def F.SYS_CAPS_cores : Fld := ⟨A.SYS_CAPS, 16, 4⟩
/-- SYS.CAPS.coords, bits [24:20]. -/
def F.SYS_CAPS_coords : Fld := ⟨A.SYS_CAPS, 20, 5⟩
/-- BAR0 offset of SYS.FAULT (R37). -/
def A.SYS_FAULT : Nat := 0x10
/-- SYS.FAULT.bank_inh, bits [7:0]. -/
def F.SYS_FAULT_bank_inh : Fld := ⟨A.SYS_FAULT, 0, 8⟩
/-- SYS.FAULT.motion, bits [8:8]. -/
def F.SYS_FAULT_motion : Fld := ⟨A.SYS_FAULT, 8, 1⟩
/-- SYS.FAULT.safety, bits [9:9]. -/
def F.SYS_FAULT_safety : Fld := ⟨A.SYS_FAULT, 9, 1⟩
/-- SYS.FAULT.service, bits [10:10]. -/
def F.SYS_FAULT_service : Fld := ⟨A.SYS_FAULT, 10, 1⟩
/-- SYS.FAULT.tclk_lost, bits [11:11]. -/
def F.SYS_FAULT_tclk_lost : Fld := ⟨A.SYS_FAULT, 11, 1⟩
/-- SYS.FAULT.escalated, bits [12:12]. -/
def F.SYS_FAULT_escalated : Fld := ⟨A.SYS_FAULT, 12, 1⟩
/-- BAR0 offset of SYS.FAULT_STICKY (R37). -/
def A.SYS_FAULT_STICKY : Nat := 0x14
/-- SYS.FAULT_STICKY.bank_inh, bits [7:0]. -/
def F.SYS_FAULT_STICKY_bank_inh : Fld := ⟨A.SYS_FAULT_STICKY, 0, 8⟩
/-- SYS.FAULT_STICKY.motion, bits [8:8]. -/
def F.SYS_FAULT_STICKY_motion : Fld := ⟨A.SYS_FAULT_STICKY, 8, 1⟩
/-- SYS.FAULT_STICKY.safety, bits [9:9]. -/
def F.SYS_FAULT_STICKY_safety : Fld := ⟨A.SYS_FAULT_STICKY, 9, 1⟩
/-- SYS.FAULT_STICKY.service, bits [10:10]. -/
def F.SYS_FAULT_STICKY_service : Fld := ⟨A.SYS_FAULT_STICKY, 10, 1⟩
/-- SYS.FAULT_STICKY.tclk_lost, bits [11:11]. -/
def F.SYS_FAULT_STICKY_tclk_lost : Fld := ⟨A.SYS_FAULT_STICKY, 11, 1⟩
/-- SYS.FAULT_STICKY.escalated, bits [12:12]. -/
def F.SYS_FAULT_STICKY_escalated : Fld := ⟨A.SYS_FAULT_STICKY, 12, 1⟩
/-- BAR0 offset of SYS.ESCALATE (R37). -/
def A.SYS_ESCALATE : Nat := 0x18
/-- SYS.ESCALATE.time, bits [15:0]. -/
def F.SYS_ESCALATE_time : Fld := ⟨A.SYS_ESCALATE, 0, 16⟩
/-- BAR0 offset of SYS.BANKCLR (R37). -/
def A.SYS_BANKCLR : Nat := 0x1c
/-- SYS.BANKCLR.retest, bits [7:0]. -/
def F.SYS_BANKCLR_retest : Fld := ⟨A.SYS_BANKCLR, 0, 8⟩
/-- SYS.BANKCLR.busy, bits [15:8]. -/
def F.SYS_BANKCLR_busy : Fld := ⟨A.SYS_BANKCLR, 8, 8⟩
/-- SYS.BANKCLR.failed, bits [23:16]. -/
def F.SYS_BANKCLR_failed : Fld := ⟨A.SYS_BANKCLR, 16, 8⟩
/-- BAR0 offset of MODE.CELL (R92). -/
def A.MODE_CELL : Nat := 0x10000
/-- MODE.CELL.mode, bits [2:0]. -/
def F.MODE_CELL_mode : Fld := ⟨A.MODE_CELL, 0, 3⟩
/-- MODE.CELL.target, bits [5:3]. -/
def F.MODE_CELL_target : Fld := ⟨A.MODE_CELL, 3, 3⟩
/-- MODE.CELL.change, bits [7:6]. -/
def F.MODE_CELL_change : Fld := ⟨A.MODE_CELL, 6, 2⟩
/-- MODE.CELL.change_id, bits [31:16]. -/
def F.MODE_CELL_change_id : Fld := ⟨A.MODE_CELL, 16, 16⟩
/-- BAR0 offset of MODE.EPOCH (R92). -/
def A.MODE_EPOCH : Nat := 0x10008
/-- BAR0 offset of MODE.LAST (R92). -/
def A.MODE_LAST : Nat := 0x10010
/-- MODE.LAST.outcome, bits [1:0]. -/
def F.MODE_LAST_outcome : Fld := ⟨A.MODE_LAST, 0, 2⟩
/-- MODE.LAST.fail_cnt, bits [31:16]. -/
def F.MODE_LAST_fail_cnt : Fld := ⟨A.MODE_LAST, 16, 16⟩
/-- BAR0 offset of MODE.REQ_EPOCH (R92). -/
def A.MODE_REQ_EPOCH : Nat := 0x10018
/-- BAR0 offset of MODE.REQ (R92). -/
def A.MODE_REQ : Nat := 0x10020
/-- MODE.REQ.target, bits [2:0]. -/
def F.MODE_REQ_target : Fld := ⟨A.MODE_REQ, 0, 3⟩
/-- BAR0 offset of MODE.CFG (R92). -/
def A.MODE_CFG : Nat := 0x10024
/-- MODE.CFG.lead, bits [15:0]. -/
def F.MODE_CFG_lead : Fld := ⟨A.MODE_CFG, 0, 16⟩
/-- BAR0 offset of MODE.XCFG (R92). -/
def A.MODE_XCFG : Nat := 0x10028
/-- MODE.XCFG.domain, bits [7:0]. -/
def F.MODE_XCFG_domain : Fld := ⟨A.MODE_XCFG, 0, 8⟩
/-- MODE.XCFG.peers, bits [13:8]. -/
def F.MODE_XCFG_peers : Fld := ⟨A.MODE_XCFG, 8, 6⟩
/-- MODE.XCFG.timeout, bits [19:16]. -/
def F.MODE_XCFG_timeout : Fld := ⟨A.MODE_XCFG, 16, 4⟩
/-- BAR0 offset of MODE.XPOINT (R92). -/
def A.MODE_XPOINT : Nat := 0x1002c
/-- MODE.XPOINT.point, bits [16:0]. -/
def F.MODE_XPOINT_point : Fld := ⟨A.MODE_XPOINT, 0, 17⟩
/-- BAR0 offset of MODE.BANK (R92). -/
def A.MODE_BANK : Nat := 0x10030
/-- MODE.BANK.rate0, bits [1:0]. -/
def F.MODE_BANK_rate0 : Fld := ⟨A.MODE_BANK, 0, 2⟩
/-- MODE.BANK.rate1, bits [3:2]. -/
def F.MODE_BANK_rate1 : Fld := ⟨A.MODE_BANK, 2, 2⟩
/-- MODE.BANK.rate2, bits [5:4]. -/
def F.MODE_BANK_rate2 : Fld := ⟨A.MODE_BANK, 4, 2⟩
/-- MODE.BANK.rate3, bits [7:6]. -/
def F.MODE_BANK_rate3 : Fld := ⟨A.MODE_BANK, 6, 2⟩
/-- MODE.BANK.rate4, bits [9:8]. -/
def F.MODE_BANK_rate4 : Fld := ⟨A.MODE_BANK, 8, 2⟩
/-- MODE.BANK.rate5, bits [11:10]. -/
def F.MODE_BANK_rate5 : Fld := ⟨A.MODE_BANK, 10, 2⟩
/-- MODE.BANK.rate6, bits [13:12]. -/
def F.MODE_BANK_rate6 : Fld := ⟨A.MODE_BANK, 12, 2⟩
/-- MODE.BANK.rate7, bits [15:14]. -/
def F.MODE_BANK_rate7 : Fld := ⟨A.MODE_BANK, 14, 2⟩
/-- BAR0 offset of MODE.SEP (R92). -/
def A.MODE_SEP : Nat := 0x10034
/-- MODE.SEP.rate, bits [0:0]. -/
def F.MODE_SEP_rate : Fld := ⟨A.MODE_SEP, 0, 1⟩
/-- BAR0 offset of MODE.SLICEMAP (R92). -/
def A.MODE_SLICEMAP (k : Nat) : Nat := 0x10040 + k * 0x4
/-- MODE.SLICEMAP.group0, bits [2:0]. -/
def F.MODE_SLICEMAP_group0 (k : Nat) : Fld := ⟨A.MODE_SLICEMAP k, 0, 3⟩
/-- MODE.SLICEMAP.group1, bits [6:4]. -/
def F.MODE_SLICEMAP_group1 (k : Nat) : Fld := ⟨A.MODE_SLICEMAP k, 4, 3⟩
/-- MODE.SLICEMAP.group2, bits [10:8]. -/
def F.MODE_SLICEMAP_group2 (k : Nat) : Fld := ⟨A.MODE_SLICEMAP k, 8, 3⟩
/-- MODE.SLICEMAP.group3, bits [14:12]. -/
def F.MODE_SLICEMAP_group3 (k : Nat) : Fld := ⟨A.MODE_SLICEMAP k, 12, 3⟩
/-- MODE.SLICEMAP.group4, bits [18:16]. -/
def F.MODE_SLICEMAP_group4 (k : Nat) : Fld := ⟨A.MODE_SLICEMAP k, 16, 3⟩
/-- MODE.SLICEMAP.group5, bits [22:20]. -/
def F.MODE_SLICEMAP_group5 (k : Nat) : Fld := ⟨A.MODE_SLICEMAP k, 20, 3⟩
/-- MODE.SLICEMAP.group6, bits [26:24]. -/
def F.MODE_SLICEMAP_group6 (k : Nat) : Fld := ⟨A.MODE_SLICEMAP k, 24, 3⟩
/-- MODE.SLICEMAP.group7, bits [30:28]. -/
def F.MODE_SLICEMAP_group7 (k : Nat) : Fld := ⟨A.MODE_SLICEMAP k, 28, 3⟩
/-- MODE.SLICEMAP.used0, bits [3:3]. -/
def F.MODE_SLICEMAP_used0 (k : Nat) : Fld := ⟨A.MODE_SLICEMAP k, 3, 1⟩
/-- MODE.SLICEMAP.used1, bits [7:7]. -/
def F.MODE_SLICEMAP_used1 (k : Nat) : Fld := ⟨A.MODE_SLICEMAP k, 7, 1⟩
/-- MODE.SLICEMAP.used2, bits [11:11]. -/
def F.MODE_SLICEMAP_used2 (k : Nat) : Fld := ⟨A.MODE_SLICEMAP k, 11, 1⟩
/-- MODE.SLICEMAP.used3, bits [15:15]. -/
def F.MODE_SLICEMAP_used3 (k : Nat) : Fld := ⟨A.MODE_SLICEMAP k, 15, 1⟩
/-- MODE.SLICEMAP.used4, bits [19:19]. -/
def F.MODE_SLICEMAP_used4 (k : Nat) : Fld := ⟨A.MODE_SLICEMAP k, 19, 1⟩
/-- MODE.SLICEMAP.used5, bits [23:23]. -/
def F.MODE_SLICEMAP_used5 (k : Nat) : Fld := ⟨A.MODE_SLICEMAP k, 23, 1⟩
/-- MODE.SLICEMAP.used6, bits [27:27]. -/
def F.MODE_SLICEMAP_used6 (k : Nat) : Fld := ⟨A.MODE_SLICEMAP k, 27, 1⟩
/-- MODE.SLICEMAP.used7, bits [31:31]. -/
def F.MODE_SLICEMAP_used7 (k : Nat) : Fld := ⟨A.MODE_SLICEMAP k, 31, 1⟩
/-- BAR0 offset of MODE.G[g].STATUS (R92). -/
def A.GRP_STATUS (g : Nat) : Nat := 0x10100 + g * 0x20
/-- MODE.G[g].STATUS.state, bits [1:0]. -/
def F.GRP_STATUS_state (g : Nat) : Fld := ⟨A.GRP_STATUS g, 0, 2⟩
/-- MODE.G[g].STATUS.confirmed, bits [2:2]. -/
def F.GRP_STATUS_confirmed (g : Nat) : Fld := ⟨A.GRP_STATUS g, 2, 1⟩
/-- MODE.G[g].STATUS.stopping, bits [3:3]. -/
def F.GRP_STATUS_stopping (g : Nat) : Fld := ⟨A.GRP_STATUS g, 3, 1⟩
/-- MODE.G[g].STATUS.reason, bits [7:4]. -/
def F.GRP_STATUS_reason (g : Nat) : Fld := ⟨A.GRP_STATUS g, 4, 4⟩
/-- MODE.G[g].STATUS.joints, bits [12:8]. -/
def F.GRP_STATUS_joints (g : Nat) : Fld := ⟨A.GRP_STATUS g, 8, 5⟩
/-- BAR0 offset of MODE.G[g].STOP (R92). -/
def A.GRP_STOP (g : Nat) : Nat := 0x10104 + g * 0x20
/-- MODE.G[g].STOP.time, bits [15:0]. -/
def F.GRP_STOP_time (g : Nat) : Fld := ⟨A.GRP_STOP g, 0, 16⟩
/-- BAR0 offset of MODE.G[g].OUTCNT (R92). -/
def A.GRP_OUTCNT (g : Nat) : Nat := 0x10108 + g * 0x20
/-- MODE.G[g].OUTCNT.count, bits [15:0]. -/
def F.GRP_OUTCNT_count (g : Nat) : Fld := ⟨A.GRP_OUTCNT g, 0, 16⟩
/-- BAR0 offset of RT.NOW (R65). -/
def A.RT_NOW : Nat := 0x20000
/-- BAR0 offset of RT.CTRL (R65). -/
def A.RT_CTRL : Nat := 0x20008
/-- RT.CTRL.standalone, bits [0:0]. -/
def F.RT_CTRL_standalone : Fld := ⟨A.RT_CTRL, 0, 1⟩
/-- RT.CTRL.pps_en, bits [1:1]. -/
def F.RT_CTRL_pps_en : Fld := ⟨A.RT_CTRL, 1, 1⟩
/-- RT.CTRL.pps_pol, bits [2:2]. -/
def F.RT_CTRL_pps_pol : Fld := ⟨A.RT_CTRL, 2, 1⟩
/-- RT.CTRL.pps_track, bits [3:3]. -/
def F.RT_CTRL_pps_track : Fld := ⟨A.RT_CTRL, 3, 1⟩
/-- RT.CTRL.capture, bits [15:8]. -/
def F.RT_CTRL_capture : Fld := ⟨A.RT_CTRL, 8, 8⟩
/-- BAR0 offset of RT.STATUS (R65). -/
def A.RT_STATUS : Nat := 0x2000c
/-- RT.STATUS.state, bits [2:0]. -/
def F.RT_STATUS_state : Fld := ⟨A.RT_STATUS, 0, 3⟩
/-- RT.STATUS.grid, bits [3:3]. -/
def F.RT_STATUS_grid : Fld := ⟨A.RT_STATUS, 3, 1⟩
/-- RT.STATUS.pps_ok, bits [4:4]. -/
def F.RT_STATUS_pps_ok : Fld := ⟨A.RT_STATUS, 4, 1⟩
/-- RT.STATUS.pps_lost, bits [5:5]. -/
def F.RT_STATUS_pps_lost : Fld := ⟨A.RT_STATUS, 5, 1⟩
/-- RT.STATUS.capture_fail, bits [6:6]. -/
def F.RT_STATUS_capture_fail : Fld := ⟨A.RT_STATUS, 6, 1⟩
/-- BAR0 offset of RT.RATE (R65). -/
def A.RT_RATE : Nat := 0x20010
/-- RT.RATE.rate, bits [31:0]. -/
def F.RT_RATE_rate : Fld := ⟨A.RT_RATE, 0, 32⟩
/-- BAR0 offset of RT.OFS_CORR (R65). -/
def A.RT_OFS_CORR : Nat := 0x20014
/-- RT.OFS_CORR.ofs, bits [31:0]. -/
def F.RT_OFS_CORR_ofs : Fld := ⟨A.RT_OFS_CORR, 0, 32⟩
/-- BAR0 offset of RT.CIVIL_OFS (R65). -/
def A.RT_CIVIL_OFS : Nat := 0x20018
/-- BAR0 offset of RT.CIVIL_REF (R65). -/
def A.RT_CIVIL_REF : Nat := 0x20020
/-- BAR0 offset of RT.CIVIL_RATE (R65). -/
def A.RT_CIVIL_RATE : Nat := 0x20028
/-- RT.CIVIL_RATE.rate, bits [31:0]. -/
def F.RT_CIVIL_RATE_rate : Fld := ⟨A.RT_CIVIL_RATE, 0, 32⟩
/-- BAR0 offset of RT.CIVIL (R65). -/
def A.RT_CIVIL : Nat := 0x20030
/-- BAR0 offset of RT.PPS_STAMP (R65). -/
def A.RT_PPS_STAMP : Nat := 0x20038
/-- BAR0 offset of RT.PPS_ERR (R65). -/
def A.RT_PPS_ERR : Nat := 0x20040
/-- RT.PPS_ERR.err, bits [31:0]. -/
def F.RT_PPS_ERR_err : Fld := ⟨A.RT_PPS_ERR, 0, 32⟩
/-- BAR0 offset of RT.PPS_CNT (R65). -/
def A.RT_PPS_CNT : Nat := 0x20044
/-- RT.PPS_CNT.accepted, bits [15:0]. -/
def F.RT_PPS_CNT_accepted : Fld := ⟨A.RT_PPS_CNT, 0, 16⟩
/-- RT.PPS_CNT.discarded, bits [31:16]. -/
def F.RT_PPS_CNT_discarded : Fld := ⟨A.RT_PPS_CNT, 16, 16⟩
/-- BAR0 offset of CRD.K[n].CFG (R66). -/
def A.K_CFG (n : Nat) : Nat := 0x30000 + n * 0x40
/-- CRD.K[n].CFG.source, bits [2:0]. -/
def F.K_CFG_source (n : Nat) : Fld := ⟨A.K_CFG n, 0, 3⟩
/-- CRD.K[n].CFG.groups, bits [15:8]. -/
def F.K_CFG_groups (n : Nat) : Fld := ⟨A.K_CFG n, 8, 8⟩
/-- CRD.K[n].CFG.slice, bits [21:16]. -/
def F.K_CFG_slice (n : Nat) : Fld := ⟨A.K_CFG n, 16, 6⟩
/-- CRD.K[n].CFG.timeout, bits [27:24]. -/
def F.K_CFG_timeout (n : Nat) : Fld := ⟨A.K_CFG n, 24, 4⟩
/-- BAR0 offset of CRD.K[n].POINT (R66). -/
def A.K_POINT (n : Nat) : Nat := 0x30004 + n * 0x40
/-- CRD.K[n].POINT.point, bits [16:0]. -/
def F.K_POINT_point (n : Nat) : Fld := ⟨A.K_POINT n, 0, 17⟩
/-- BAR0 offset of CRD.K[n].SCALE (R66). -/
def A.K_SCALE (n : Nat) : Nat := 0x30008 + n * 0x40
/-- BAR0 offset of CRD.K[n].OVERRIDE (R66). -/
def A.K_OVERRIDE (n : Nat) : Nat := 0x30010 + n * 0x40
/-- CRD.K[n].OVERRIDE.factor, bits [10:0]. -/
def F.K_OVERRIDE_factor (n : Nat) : Fld := ⟨A.K_OVERRIDE n, 0, 11⟩
/-- BAR0 offset of CRD.K[n].RISE (R66). -/
def A.K_RISE (n : Nat) : Nat := 0x30014 + n * 0x40
/-- CRD.K[n].RISE.rate, bits [10:0]. -/
def F.K_RISE_rate (n : Nat) : Fld := ⟨A.K_RISE n, 0, 11⟩
/-- BAR0 offset of CRD.K[n].STATUS (R66). -/
def A.K_STATUS (n : Nat) : Nat := 0x30018 + n * 0x40
/-- CRD.K[n].STATUS.state, bits [1:0]. -/
def F.K_STATUS_state (n : Nat) : Fld := ⟨A.K_STATUS n, 0, 2⟩
/-- CRD.K[n].STATUS.lost_cnt, bits [31:16]. -/
def F.K_STATUS_lost_cnt (n : Nat) : Fld := ⟨A.K_STATUS n, 16, 16⟩
/-- BAR0 offset of CRD.K[n].FACTOR (R66). -/
def A.K_FACTOR (n : Nat) : Nat := 0x3001c + n * 0x40
/-- CRD.K[n].FACTOR.f, bits [10:0]. -/
def F.K_FACTOR_f (n : Nat) : Fld := ⟨A.K_FACTOR n, 0, 11⟩
/-- BAR0 offset of CRD.K[n].VALUE (R66). -/
def A.K_VALUE (n : Nat) : Nat := 0x30020 + n * 0x40
/-- BAR0 offset of CRD.K[n].RATE (R66). -/
def A.K_RATE (n : Nat) : Nat := 0x30028 + n * 0x40
/-- BAR0 offset of CRD.K[n].HOSTQ (R66). -/
def A.K_HOSTQ (n : Nat) : Nat := 0x30030 + n * 0x40
/-- CRD.K[n].HOSTQ.count, bits [15:0]. -/
def F.K_HOSTQ_count (n : Nat) : Fld := ⟨A.K_HOSTQ n, 0, 16⟩
/-- BAR0 offset of CRD.PHASE (R66). -/
def A.CRD_PHASE : Nat := 0x30800
/-- CRD.PHASE.pol, bits [0:0]. -/
def F.CRD_PHASE_pol : Fld := ⟨A.CRD_PHASE, 0, 1⟩
/-- CRD.PHASE.locked, bits [1:1]. -/
def F.CRD_PHASE_locked : Fld := ⟨A.CRD_PHASE, 1, 1⟩
/-- CRD.PHASE.freq, bits [31:16]. -/
def F.CRD_PHASE_freq : Fld := ⟨A.CRD_PHASE, 16, 16⟩
/-- BAR0 offset of CRD.DL[m].CFG (R66). -/
def A.DL_CFG (m : Nat) : Nat := 0x31000 + m * 0x10
/-- CRD.DL[m].CFG.coord, bits [3:0]. -/
def F.DL_CFG_coord (m : Nat) : Fld := ⟨A.DL_CFG m, 0, 4⟩
/-- BAR0 offset of CRD.DL[m].STAT (R66). -/
def A.DL_STAT (m : Nat) : Nat := 0x31004 + m * 0x10
/-- CRD.DL[m].STAT.count, bits [10:0]. -/
def F.DL_STAT_count (m : Nat) : Fld := ⟨A.DL_STAT m, 0, 11⟩
/-- CRD.DL[m].STAT.full_cnt, bits [31:16]. -/
def F.DL_STAT_full_cnt (m : Nat) : Fld := ⟨A.DL_STAT m, 16, 16⟩
/-- BAR0 offset of CRD.DL[m].LATE (R66). -/
def A.DL_LATE (m : Nat) : Nat := 0x31008 + m * 0x10
/-- CRD.DL[m].LATE.late, bits [15:0]. -/
def F.DL_LATE_late (m : Nat) : Fld := ⟨A.DL_LATE m, 0, 16⟩
/-- CRD.DL[m].LATE.deferred, bits [31:16]. -/
def F.DL_LATE_deferred (m : Nat) : Fld := ⟨A.DL_LATE m, 16, 16⟩
/-- BAR0 offset of CRD.DL[m].CLR (R66). -/
def A.DL_CLR (m : Nat) : Nat := 0x3100c + m * 0x10
/-- CRD.DL[m].CLR.clr, bits [0:0]. -/
def F.DL_CLR_clr (m : Nat) : Fld := ⟨A.DL_CLR m, 0, 1⟩
/-- BAR0 offset of MOT.G[g].QBASE (R130). -/
def A.MG_QBASE (g : Nat) : Nat := 0x40000 + g * 0x100
/-- BAR0 offset of MOT.G[g].QCFG (R130). -/
def A.MG_QCFG (g : Nat) : Nat := 0x40008 + g * 0x100
/-- MOT.G[g].QCFG.size, bits [4:0]. -/
def F.MG_QCFG_size (g : Nat) : Fld := ⟨A.MG_QCFG g, 0, 5⟩
/-- BAR0 offset of MOT.G[g].QSTAT (R130). -/
def A.MG_QSTAT (g : Nat) : Nat := 0x4000c + g * 0x100
/-- MOT.G[g].QSTAT.state, bits [2:0]. -/
def F.MG_QSTAT_state (g : Nat) : Fld := ⟨A.MG_QSTAT g, 0, 3⟩
/-- MOT.G[g].QSTAT.reason, bits [7:4]. -/
def F.MG_QSTAT_reason (g : Nat) : Fld := ⟨A.MG_QSTAT g, 4, 4⟩
/-- BAR0 offset of MOT.G[g].QCOUNT (R130). -/
def A.MG_QCOUNT (g : Nat) : Nat := 0x40010 + g * 0x100
/-- MOT.G[g].QCOUNT.count, bits [16:0]. -/
def F.MG_QCOUNT_count (g : Nat) : Fld := ⟨A.MG_QCOUNT g, 0, 17⟩
/-- BAR0 offset of MOT.G[g].CURSOR (R130). -/
def A.MG_CURSOR (g : Nat) : Nat := 0x40014 + g * 0x100
/-- MOT.G[g].CURSOR.slot, bits [15:0]. -/
def F.MG_CURSOR_slot (g : Nat) : Fld := ⟨A.MG_CURSOR g, 0, 16⟩
/-- BAR0 offset of MOT.G[g].TAG (R130). -/
def A.MG_TAG (g : Nat) : Nat := 0x40018 + g * 0x100
/-- MOT.G[g].TAG.tag, bits [31:0]. -/
def F.MG_TAG_tag (g : Nat) : Fld := ⟨A.MG_TAG g, 0, 32⟩
/-- BAR0 offset of MOT.G[g].STAT (R130). -/
def A.MG_STAT (g : Nat) : Nat := 0x4001c + g * 0x100
/-- MOT.G[g].STAT.blend_refused, bits [15:0]. -/
def F.MG_STAT_blend_refused (g : Nat) : Fld := ⟨A.MG_STAT g, 0, 16⟩
/-- MOT.G[g].STAT.interrupted, bits [31:16]. -/
def F.MG_STAT_interrupted (g : Nat) : Fld := ⟨A.MG_STAT g, 16, 16⟩
/-- BAR0 offset of MOT.G[g].U (R130). -/
def A.MG_U (g : Nat) : Nat := 0x40020 + g * 0x100
/-- BAR0 offset of MOT.G[g].RAMP (R130). -/
def A.MG_RAMP (g : Nat) : Nat := 0x40028 + g * 0x100
/-- MOT.G[g].RAMP.stop, bits [15:0]. -/
def F.MG_RAMP_stop (g : Nat) : Fld := ⟨A.MG_RAMP g, 0, 16⟩
/-- MOT.G[g].RAMP.resume, bits [31:16]. -/
def F.MG_RAMP_resume (g : Nat) : Fld := ⟨A.MG_RAMP g, 16, 16⟩
/-- BAR0 offset of MOT.G[g].HFACT (R130). -/
def A.MG_HFACT (g : Nat) : Nat := 0x4002c + g * 0x100
/-- MOT.G[g].HFACT.h, bits [10:0]. -/
def F.MG_HFACT_h (g : Nat) : Fld := ⟨A.MG_HFACT g, 0, 11⟩
/-- BAR0 offset of MOT.G[g].FF (R130). -/
def A.MG_FF (g : Nat) : Nat := 0x40030 + g * 0x100
/-- MOT.G[g].FF.enable, bits [0:0]. -/
def F.MG_FF_enable (g : Nat) : Fld := ⟨A.MG_FF g, 0, 1⟩
/-- MOT.G[g].FF.stall, bits [15:8]. -/
def F.MG_FF_stall (g : Nat) : Fld := ⟨A.MG_FF g, 8, 8⟩
/-- BAR0 offset of MOT.G[g].FFSTAT (R130). -/
def A.MG_FFSTAT (g : Nat) : Nat := 0x40034 + g * 0x100
/-- MOT.G[g].FFSTAT.state, bits [1:0]. -/
def F.MG_FFSTAT_state (g : Nat) : Fld := ⟨A.MG_FFSTAT g, 0, 2⟩
/-- MOT.G[g].FFSTAT.misses, bits [31:16]. -/
def F.MG_FFSTAT_misses (g : Nat) : Fld := ⟨A.MG_FFSTAT g, 16, 16⟩
/-- BAR0 offset of MOT.STP[s].CFG (R130). -/
def A.STP_CFG (s : Nat) : Nat := 0x41000 + s * 0x40
/-- MOT.STP[s].CFG.mode, bits [1:0]. -/
def F.STP_CFG_mode (s : Nat) : Fld := ⟨A.STP_CFG s, 0, 2⟩
/-- BAR0 offset of MOT.STP[s].SPR (R130). -/
def A.STP_SPR (s : Nat) : Nat := 0x41004 + s * 0x40
/-- MOT.STP[s].SPR.spr, bits [31:0]. -/
def F.STP_SPR_spr (s : Nat) : Fld := ⟨A.STP_SPR s, 0, 32⟩
/-- BAR0 offset of MOT.STP[s].THRESH (R130). -/
def A.STP_THRESH (s : Nat) : Nat := 0x41008 + s * 0x40
/-- MOT.STP[s].THRESH.up, bits [15:0]. -/
def F.STP_THRESH_up (s : Nat) : Fld := ⟨A.STP_THRESH s, 0, 16⟩
/-- MOT.STP[s].THRESH.down, bits [31:16]. -/
def F.STP_THRESH_down (s : Nat) : Fld := ⟨A.STP_THRESH s, 16, 16⟩
/-- BAR0 offset of MOT.STP[s].AMP (R130). -/
def A.STP_AMP (s : Nat) : Nat := 0x4100c + s * 0x40
/-- MOT.STP[s].AMP.qamp, bits [10:0]. -/
def F.STP_AMP_qamp (s : Nat) : Fld := ⟨A.STP_AMP s, 0, 11⟩
/-- BAR0 offset of MOT.STP[s].IRUN (R130). -/
def A.STP_IRUN (s : Nat) : Nat := 0x41010 + s * 0x40
/-- MOT.STP[s].IRUN.irun, bits [31:0]. -/
def F.STP_IRUN_irun (s : Nat) : Fld := ⟨A.STP_IRUN s, 0, 32⟩
/-- BAR0 offset of MOT.STP[s].TIMING (R130). -/
def A.STP_TIMING (s : Nat) : Nat := 0x41014 + s * 0x40
/-- MOT.STP[s].TIMING.pw, bits [15:0]. -/
def F.STP_TIMING_pw (s : Nat) : Fld := ⟨A.STP_TIMING s, 0, 16⟩
/-- MOT.STP[s].TIMING.dirsetup, bits [31:16]. -/
def F.STP_TIMING_dirsetup (s : Nat) : Fld := ⟨A.STP_TIMING s, 16, 16⟩
/-- BAR0 offset of MOT.STP[s].MINIV (R130). -/
def A.STP_MINIV (s : Nat) : Nat := 0x41018 + s * 0x40
/-- MOT.STP[s].MINIV.miniv, bits [31:0]. -/
def F.STP_MINIV_miniv (s : Nat) : Fld := ⟨A.STP_MINIV s, 0, 32⟩
/-- BAR0 offset of MOT.STP[s].STAT (R130). -/
def A.STP_STAT (s : Nat) : Nat := 0x4101c + s * 0x40
/-- MOT.STP[s].STAT.strong, bits [0:0]. -/
def F.STP_STAT_strong (s : Nat) : Fld := ⟨A.STP_STAT s, 0, 1⟩
/-- MOT.STP[s].STAT.lag, bits [1:1]. -/
def F.STP_STAT_lag (s : Nat) : Fld := ⟨A.STP_STAT s, 1, 1⟩
/-- BAR0 offset of MOT.STP[s].POS (R130). -/
def A.STP_POS (s : Nat) : Nat := 0x41020 + s * 0x40
/-- MOT.STP[s].POS.pos, bits [31:0]. -/
def F.STP_POS_pos (s : Nat) : Fld := ⟨A.STP_POS s, 0, 32⟩
/-- BAR0 offset of MOT.CMP.STAT (R130). -/
def A.CMP_STAT : Nat := 0x42000
/-- MOT.CMP.STAT.count, bits [10:0]. -/
def F.CMP_STAT_count : Fld := ⟨A.CMP_STAT, 0, 11⟩
/-- MOT.CMP.STAT.passed, bits [16:16]. -/
def F.CMP_STAT_passed : Fld := ⟨A.CMP_STAT, 16, 1⟩
/-- BAR0 offset of MOT.CMP.CNT1 (R130). -/
def A.CMP_CNT1 : Nat := 0x42004
/-- MOT.CMP.CNT1.passed_cnt, bits [15:0]. -/
def F.CMP_CNT1_passed_cnt : Fld := ⟨A.CMP_CNT1, 0, 16⟩
/-- MOT.CMP.CNT1.late_cnt, bits [31:16]. -/
def F.CMP_CNT1_late_cnt : Fld := ⟨A.CMP_CNT1, 16, 16⟩
/-- BAR0 offset of MOT.CMP.CNT2 (R130). -/
def A.CMP_CNT2 : Nat := 0x42008
/-- MOT.CMP.CNT2.full_cnt, bits [15:0]. -/
def F.CMP_CNT2_full_cnt : Fld := ⟨A.CMP_CNT2, 0, 16⟩
/-- MOT.CMP.CNT2.deferred, bits [31:16]. -/
def F.CMP_CNT2_deferred : Fld := ⟨A.CMP_CNT2, 16, 16⟩
/-- BAR0 offset of MOT.CMP.LAST_PASSED (R130). -/
def A.CMP_LAST_PASSED : Nat := 0x4200c
/-- MOT.CMP.LAST_PASSED.tag, bits [15:0]. -/
def F.CMP_LAST_PASSED_tag : Fld := ⟨A.CMP_LAST_PASSED, 0, 16⟩
/-- BAR0 offset of MOT.CMP.CLR (R130). -/
def A.CMP_CLR : Nat := 0x42010
/-- MOT.CMP.CLR.clr, bits [0:0]. -/
def F.CMP_CLR_clr : Fld := ⟨A.CMP_CLR, 0, 1⟩
/-- BAR0 offset of MOT.LIM[g][j].V_A_J (R130). -/
def A.LIM_V_A_J (g : Nat) (j : Nat) (q : Nat) : Nat := 0x44000 + g * 0x100 + j * 0x10 + q * 0x4
/-- MOT.LIM[g][j].V_A_J.limit, bits [31:0]. -/
def F.LIM_V_A_J_limit (g : Nat) (j : Nat) (q : Nat) : Fld := ⟨A.LIM_V_A_J g j q, 0, 32⟩
/-- BAR0 offset of MOT.CMPV[i].WORD (R130). -/
def A.CMPV_WORD (i : Nat) (w : Nat) : Nat := 0x50000 + i * 0x20 + w * 0x4
/-- MOT.CMPV[i].WORD.v, bits [31:0]. -/
def F.CMPV_WORD_v (i : Nat) (w : Nat) : Fld := ⟨A.CMPV_WORD i w, 0, 32⟩
/-- BAR0 offset of MOT.MODEL[g].GRAVITY (R119). -/
def A.MODEL_GRAVITY (g : Nat) (i : Nat) : Nat := 0x60000 + g * 0x1000 + i * 0x4
/-- MOT.MODEL[g].GRAVITY.v, bits [31:0]. -/
def F.MODEL_GRAVITY_v (g : Nat) (i : Nat) : Fld := ⟨A.MODEL_GRAVITY g i, 0, 32⟩
/-- BAR0 offset of MOT.MODEL[g].COUNT (R119). -/
def A.MODEL_COUNT (g : Nat) : Nat := 0x6000c + g * 0x1000
/-- MOT.MODEL[g].COUNT.count, bits [7:0]. -/
def F.MODEL_COUNT_count (g : Nat) : Fld := ⟨A.MODEL_COUNT g, 0, 8⟩
/-- MOT.MODEL[g].COUNT.pl_link, bits [15:8]. -/
def F.MODEL_COUNT_pl_link (g : Nat) : Fld := ⟨A.MODEL_COUNT g, 8, 8⟩
/-- BAR0 offset of MOT.MODEL[g].PL_MASS (R119). -/
def A.MODEL_PL_MASS (g : Nat) : Nat := 0x60010 + g * 0x1000
/-- MOT.MODEL[g].PL_MASS.v, bits [31:0]. -/
def F.MODEL_PL_MASS_v (g : Nat) : Fld := ⟨A.MODEL_PL_MASS g, 0, 32⟩
/-- BAR0 offset of MOT.MODEL[g].PL_COM (R119). -/
def A.MODEL_PL_COM (g : Nat) (i : Nat) : Nat := 0x60014 + g * 0x1000 + i * 0x4
/-- MOT.MODEL[g].PL_COM.v, bits [31:0]. -/
def F.MODEL_PL_COM_v (g : Nat) (i : Nat) : Fld := ⟨A.MODEL_PL_COM g i, 0, 32⟩
/-- BAR0 offset of MOT.MODEL[g].PL_INERTIA (R119). -/
def A.MODEL_PL_INERTIA (g : Nat) (i : Nat) : Nat := 0x60020 + g * 0x1000 + i * 0x4
/-- MOT.MODEL[g].PL_INERTIA.v, bits [31:0]. -/
def F.MODEL_PL_INERTIA_v (g : Nat) (i : Nat) : Fld := ⟨A.MODEL_PL_INERTIA g i, 0, 32⟩
/-- BAR0 offset of MOT.MODEL[g].KIND (R119). -/
def A.MODEL_KIND (g : Nat) (j : Nat) : Nat := 0x60100 + g * 0x1000 + j * 0x80
/-- MOT.MODEL[g].KIND.kind, bits [7:0]. -/
def F.MODEL_KIND_kind (g : Nat) (j : Nat) : Fld := ⟨A.MODEL_KIND g j, 0, 8⟩
/-- MOT.MODEL[g].KIND.parent, bits [15:8]. -/
def F.MODEL_KIND_parent (g : Nat) (j : Nat) : Fld := ⟨A.MODEL_KIND g j, 8, 8⟩
/-- BAR0 offset of MOT.MODEL[g].ORIGIN (R119). -/
def A.MODEL_ORIGIN (g : Nat) (j : Nat) (i : Nat) : Nat := 0x60104 + g * 0x1000 + j * 0x80 + i * 0x4
/-- MOT.MODEL[g].ORIGIN.v, bits [31:0]. -/
def F.MODEL_ORIGIN_v (g : Nat) (j : Nat) (i : Nat) : Fld := ⟨A.MODEL_ORIGIN g j i, 0, 32⟩
/-- BAR0 offset of MOT.MODEL[g].ROT (R119). -/
def A.MODEL_ROT (g : Nat) (j : Nat) (i : Nat) : Nat := 0x60110 + g * 0x1000 + j * 0x80 + i * 0x4
/-- MOT.MODEL[g].ROT.v, bits [31:0]. -/
def F.MODEL_ROT_v (g : Nat) (j : Nat) (i : Nat) : Fld := ⟨A.MODEL_ROT g j i, 0, 32⟩
/-- BAR0 offset of MOT.MODEL[g].MASS (R119). -/
def A.MODEL_MASS (g : Nat) (j : Nat) : Nat := 0x60134 + g * 0x1000 + j * 0x80
/-- MOT.MODEL[g].MASS.v, bits [31:0]. -/
def F.MODEL_MASS_v (g : Nat) (j : Nat) : Fld := ⟨A.MODEL_MASS g j, 0, 32⟩
/-- BAR0 offset of MOT.MODEL[g].COM (R119). -/
def A.MODEL_COM (g : Nat) (j : Nat) (i : Nat) : Nat := 0x60138 + g * 0x1000 + j * 0x80 + i * 0x4
/-- MOT.MODEL[g].COM.v, bits [31:0]. -/
def F.MODEL_COM_v (g : Nat) (j : Nat) (i : Nat) : Fld := ⟨A.MODEL_COM g j i, 0, 32⟩
/-- BAR0 offset of MOT.MODEL[g].INERTIA (R119). -/
def A.MODEL_INERTIA (g : Nat) (j : Nat) (i : Nat) : Nat := 0x60144 + g * 0x1000 + j * 0x80 + i * 0x4
/-- MOT.MODEL[g].INERTIA.v, bits [31:0]. -/
def F.MODEL_INERTIA_v (g : Nat) (j : Nat) (i : Nat) : Fld := ⟨A.MODEL_INERTIA g j i, 0, 32⟩
/-- BAR0 offset of MOT.MODEL[g].ROTOR (R119). -/
def A.MODEL_ROTOR (g : Nat) (j : Nat) : Nat := 0x6015c + g * 0x1000 + j * 0x80
/-- MOT.MODEL[g].ROTOR.v, bits [31:0]. -/
def F.MODEL_ROTOR_v (g : Nat) (j : Nat) : Fld := ⟨A.MODEL_ROTOR g j, 0, 32⟩
/-- BAR0 offset of MOT.MODEL[g].FV (R119). -/
def A.MODEL_FV (g : Nat) (j : Nat) : Nat := 0x60160 + g * 0x1000 + j * 0x80
/-- MOT.MODEL[g].FV.v, bits [31:0]. -/
def F.MODEL_FV_v (g : Nat) (j : Nat) : Fld := ⟨A.MODEL_FV g j, 0, 32⟩
/-- BAR0 offset of MOT.MODEL[g].FC (R119). -/
def A.MODEL_FC (g : Nat) (j : Nat) : Nat := 0x60164 + g * 0x1000 + j * 0x80
/-- MOT.MODEL[g].FC.v, bits [31:0]. -/
def F.MODEL_FC_v (g : Nat) (j : Nat) : Fld := ⟨A.MODEL_FC g j, 0, 32⟩
/-- BAR0 offset of MOT.MODEL[g].KI (R119). -/
def A.MODEL_KI (g : Nat) (j : Nat) : Nat := 0x60168 + g * 0x1000 + j * 0x80
/-- MOT.MODEL[g].KI.v, bits [31:0]. -/
def F.MODEL_KI_v (g : Nat) (j : Nat) : Fld := ⟨A.MODEL_KI g j, 0, 32⟩
/-- BAR0 offset of PWM.S[n].CTRL (R159). -/
def A.S_CTRL (n : Nat) : Nat := 0x100000 + n * 0x400
/-- PWM.S[n].CTRL.stagger, bits [15:0]. -/
def F.S_CTRL_stagger (n : Nat) : Fld := ⟨A.S_CTRL n, 0, 16⟩
/-- PWM.S[n].CTRL.stagger_fine, bits [21:16]. -/
def F.S_CTRL_stagger_fine (n : Nat) : Fld := ⟨A.S_CTRL n, 16, 6⟩
/-- PWM.S[n].CTRL.manual, bits [22:22]. -/
def F.S_CTRL_manual (n : Nat) : Fld := ⟨A.S_CTRL n, 22, 1⟩
/-- BAR0 offset of PWM.S[n].CFG (R159). -/
def A.S_CFG (n : Nat) : Nat := 0x100004 + n * 0x400
/-- PWM.S[n].CFG.enable, bits [0:0]. -/
def F.S_CFG_enable (n : Nat) : Fld := ⟨A.S_CFG n, 0, 1⟩
/-- PWM.S[n].CFG.commut, bits [1:1]. -/
def F.S_CFG_commut (n : Nat) : Fld := ⟨A.S_CFG n, 1, 1⟩
/-- PWM.S[n].CFG.fine_en, bits [2:2]. -/
def F.S_CFG_fine_en (n : Nat) : Fld := ⟨A.S_CFG n, 2, 1⟩
/-- PWM.S[n].CFG.xfer, bits [3:3]. -/
def F.S_CFG_xfer (n : Nat) : Fld := ⟨A.S_CFG n, 3, 1⟩
/-- PWM.S[n].CFG.pol, bits [7:4]. -/
def F.S_CFG_pol (n : Nat) : Fld := ⟨A.S_CFG n, 4, 4⟩
/-- PWM.S[n].CFG.slew, bits [9:8]. -/
def F.S_CFG_slew (n : Nat) : Fld := ⟨A.S_CFG n, 8, 2⟩
/-- BAR0 offset of PWM.S[n].PERIOD (R159). -/
def A.S_PERIOD (n : Nat) : Nat := 0x100008 + n * 0x400
/-- PWM.S[n].PERIOD.period, bits [15:0]. -/
def F.S_PERIOD_period (n : Nat) : Fld := ⟨A.S_PERIOD n, 0, 16⟩
/-- BAR0 offset of PWM.S[n].DUTYMAX (R159). -/
def A.S_DUTYMAX (n : Nat) : Nat := 0x10000c + n * 0x400
/-- PWM.S[n].DUTYMAX.max, bits [10:0]. -/
def F.S_DUTYMAX_max (n : Nat) : Fld := ⟨A.S_DUTYMAX n, 0, 11⟩
/-- BAR0 offset of PWM.S[n].DUTY (R159). -/
def A.S_DUTY (n : Nat) (x : Nat) : Nat := 0x100010 + n * 0x400 + x * 0x4
/-- PWM.S[n].DUTY.count, bits [15:0]. -/
def F.S_DUTY_count (n : Nat) (x : Nat) : Fld := ⟨A.S_DUTY n x, 0, 16⟩
/-- PWM.S[n].DUTY.fine, bits [21:16]. -/
def F.S_DUTY_fine (n : Nat) (x : Nat) : Fld := ⟨A.S_DUTY n x, 16, 6⟩
/-- BAR0 offset of PWM.S[n].COMMIT (R159). -/
def A.S_COMMIT (n : Nat) : Nat := 0x100020 + n * 0x400
/-- PWM.S[n].COMMIT.commit, bits [0:0]. -/
def F.S_COMMIT_commit (n : Nat) : Fld := ⟨A.S_COMMIT n, 0, 1⟩
/-- BAR0 offset of PWM.S[n].ACT_PERIOD (R159). -/
def A.S_ACT_PERIOD (n : Nat) : Nat := 0x100024 + n * 0x400
/-- PWM.S[n].ACT_PERIOD.period, bits [15:0]. -/
def F.S_ACT_PERIOD_period (n : Nat) : Fld := ⟨A.S_ACT_PERIOD n, 0, 16⟩
/-- BAR0 offset of PWM.S[n].ACT_DUTY (R159). -/
def A.S_ACT_DUTY (n : Nat) (x : Nat) : Nat := 0x100028 + n * 0x400 + x * 0x4
/-- PWM.S[n].ACT_DUTY.duty, bits [21:0]. -/
def F.S_ACT_DUTY_duty (n : Nat) (x : Nat) : Fld := ⟨A.S_ACT_DUTY n x, 0, 22⟩
/-- BAR0 offset of PWM.S[n].STATUS (R159). -/
def A.S_STATUS (n : Nat) : Nat := 0x100040 + n * 0x400
/-- PWM.S[n].STATUS.late, bits [0:0]. -/
def F.S_STATUS_late (n : Nat) : Fld := ⟨A.S_STATUS n, 0, 1⟩
/-- PWM.S[n].STATUS.clamp, bits [1:1]. -/
def F.S_STATUS_clamp (n : Nat) : Fld := ⟨A.S_STATUS n, 1, 1⟩
/-- PWM.S[n].STATUS.perr, bits [2:2]. -/
def F.S_STATUS_perr (n : Nat) : Fld := ⟨A.S_STATUS n, 2, 1⟩
/-- PWM.S[n].STATUS.genwr, bits [3:3]. -/
def F.S_STATUS_genwr (n : Nat) : Fld := ⟨A.S_STATUS n, 3, 1⟩
/-- PWM.S[n].STATUS.pending, bits [4:4]. -/
def F.S_STATUS_pending (n : Nat) : Fld := ⟨A.S_STATUS n, 4, 1⟩
/-- PWM.S[n].STATUS.frozen, bits [5:5]. -/
def F.S_STATUS_frozen (n : Nat) : Fld := ⟨A.S_STATUS n, 5, 1⟩
/-- PWM.S[n].STATUS.calerr, bits [6:6]. -/
def F.S_STATUS_calerr (n : Nat) : Fld := ⟨A.S_STATUS n, 6, 1⟩
/-- PWM.S[n].STATUS.fine_off, bits [7:7]. -/
def F.S_STATUS_fine_off (n : Nat) : Fld := ⟨A.S_STATUS n, 7, 1⟩
/-- PWM.S[n].STATUS.inh, bits [11:8]. -/
def F.S_STATUS_inh (n : Nat) : Fld := ⟨A.S_STATUS n, 8, 4⟩
/-- PWM.S[n].STATUS.hall, bits [14:12]. -/
def F.S_STATUS_hall (n : Nat) : Fld := ⟨A.S_STATUS n, 12, 3⟩
/-- BAR0 offset of PWM.S[n].CNT (R159). -/
def A.S_CNT (n : Nat) : Nat := 0x100044 + n * 0x400
/-- PWM.S[n].CNT.late_cnt, bits [15:0]. -/
def F.S_CNT_late_cnt (n : Nat) : Fld := ⟨A.S_CNT n, 0, 16⟩
/-- PWM.S[n].CNT.clamp_cnt, bits [31:16]. -/
def F.S_CNT_clamp_cnt (n : Nat) : Fld := ⟨A.S_CNT n, 16, 16⟩
/-- BAR0 offset of PWM.S[n].COUNT (R159). -/
def A.S_COUNT (n : Nat) : Nat := 0x100048 + n * 0x400
/-- PWM.S[n].COUNT.count, bits [15:0]. -/
def F.S_COUNT_count (n : Nat) : Fld := ⟨A.S_COUNT n, 0, 16⟩
/-- PWM.S[n].COUNT.index, bits [19:16]. -/
def F.S_COUNT_index (n : Nat) : Fld := ⟨A.S_COUNT n, 16, 4⟩
/-- BAR0 offset of PWM.S[n].CLR (R159). -/
def A.S_CLR (n : Nat) : Nat := 0x10004c + n * 0x400
/-- PWM.S[n].CLR.clr, bits [0:0]. -/
def F.S_CLR_clr (n : Nat) : Fld := ⟨A.S_CLR n, 0, 1⟩
/-- BAR0 offset of PWM.S[n].COMMUT (R159). -/
def A.S_COMMUT (n : Nat) (h : Nat) : Nat := 0x100080 + n * 0x400 + h * 0x4
/-- PWM.S[n].COMMUT.p0, bits [1:0]. -/
def F.S_COMMUT_p0 (n : Nat) (h : Nat) : Fld := ⟨A.S_COMMUT n h, 0, 2⟩
/-- PWM.S[n].COMMUT.p1, bits [3:2]. -/
def F.S_COMMUT_p1 (n : Nat) (h : Nat) : Fld := ⟨A.S_COMMUT n h, 2, 2⟩
/-- PWM.S[n].COMMUT.p2, bits [5:4]. -/
def F.S_COMMUT_p2 (n : Nat) (h : Nat) : Fld := ⟨A.S_COMMUT n h, 4, 2⟩
/-- PWM.S[n].COMMUT.p3, bits [7:6]. -/
def F.S_COMMUT_p3 (n : Nat) (h : Nat) : Fld := ⟨A.S_COMMUT n h, 6, 2⟩
/-- BAR0 offset of PWM.BANK[b].OFFSET (R159). -/
def A.BANK_OFFSET (b : Nat) : Nat := 0x110000 + b * 0x40
/-- PWM.BANK[b].OFFSET.offset, bits [15:0]. -/
def F.BANK_OFFSET_offset (b : Nat) : Fld := ⟨A.BANK_OFFSET b, 0, 16⟩
/-- BAR0 offset of PWM.BANK[b].SYNC (R159). -/
def A.BANK_SYNC (b : Nat) : Nat := 0x110004 + b * 0x40
/-- PWM.BANK[b].SYNC.lost, bits [0:0]. -/
def F.BANK_SYNC_lost (b : Nat) : Fld := ⟨A.BANK_SYNC b, 0, 1⟩
/-- PWM.BANK[b].SYNC.lost_cnt, bits [31:16]. -/
def F.BANK_SYNC_lost_cnt (b : Nat) : Fld := ⟨A.BANK_SYNC b, 16, 16⟩
/-- BAR0 offset of PWM.BANK[b].CAL (R159). -/
def A.BANK_CAL (b : Nat) : Nat := 0x110008 + b * 0x40
/-- PWM.BANK[b].CAL.taps, bits [6:0]. -/
def F.BANK_CAL_taps (b : Nat) : Fld := ⟨A.BANK_CAL b, 0, 7⟩
/-- PWM.BANK[b].CAL.failed, bits [15:8]. -/
def F.BANK_CAL_failed (b : Nat) : Fld := ⟨A.BANK_CAL b, 8, 8⟩
/-- PWM.BANK[b].CAL.rotations, bits [31:16]. -/
def F.BANK_CAL_rotations (b : Nat) : Fld := ⟨A.BANK_CAL b, 16, 16⟩
/-- BAR0 offset of ADC.CV[c].SEQ_CFG (R180). -/
def A.CV_SEQ_CFG (c : Nat) (e : Nat) : Nat := 0x140000 + c * 0x400 + e * 0x8
/-- ADC.CV[c].SEQ_CFG.channel, bits [3:0]. -/
def F.CV_SEQ_CFG_channel (c : Nat) (e : Nat) : Fld := ⟨A.CV_SEQ_CFG c e, 0, 4⟩
/-- ADC.CV[c].SEQ_CFG.gain, bits [5:4]. -/
def F.CV_SEQ_CFG_gain (c : Nat) (e : Nat) : Fld := ⟨A.CV_SEQ_CFG c e, 4, 2⟩
/-- ADC.CV[c].SEQ_CFG.depth, bits [7:6]. -/
def F.CV_SEQ_CFG_depth (c : Nat) (e : Nat) : Fld := ⟨A.CV_SEQ_CFG c e, 6, 2⟩
/-- ADC.CV[c].SEQ_CFG.event, bits [11:8]. -/
def F.CV_SEQ_CFG_event (c : Nat) (e : Nat) : Fld := ⟨A.CV_SEQ_CFG c e, 8, 4⟩
/-- ADC.CV[c].SEQ_CFG.slice, bits [14:12]. -/
def F.CV_SEQ_CFG_slice (c : Nat) (e : Nat) : Fld := ⟨A.CV_SEQ_CFG c e, 12, 3⟩
/-- ADC.CV[c].SEQ_CFG.delay, bits [31:16]. -/
def F.CV_SEQ_CFG_delay (c : Nat) (e : Nat) : Fld := ⟨A.CV_SEQ_CFG c e, 16, 16⟩
/-- BAR0 offset of ADC.CV[c].SEQ_DEST (R180). -/
def A.CV_SEQ_DEST (c : Nat) (e : Nat) : Nat := 0x140004 + c * 0x400 + e * 0x8
/-- ADC.CV[c].SEQ_DEST.stall, bits [7:0]. -/
def F.CV_SEQ_DEST_stall (c : Nat) (e : Nat) : Fld := ⟨A.CV_SEQ_DEST c e, 0, 8⟩
/-- ADC.CV[c].SEQ_DEST.slot, bits [10:8]. -/
def F.CV_SEQ_DEST_slot (c : Nat) (e : Nat) : Fld := ⟨A.CV_SEQ_DEST c e, 8, 3⟩
/-- BAR0 offset of ADC.CV[c].RES (R180). -/
def A.CV_RES (c : Nat) (e : Nat) : Nat := 0x140100 + c * 0x400 + e * 0x4
/-- ADC.CV[c].RES.result, bits [31:0]. -/
def F.CV_RES_result (c : Nat) (e : Nat) : Fld := ⟨A.CV_RES c e, 0, 32⟩
/-- BAR0 offset of ADC.CV[c].STAMP (R180). -/
def A.CV_STAMP (c : Nat) (e : Nat) : Nat := 0x140180 + c * 0x400 + e * 0x8
/-- BAR0 offset of ADC.CV[c].STATUS (R180). -/
def A.CV_STATUS (c : Nat) : Nat := 0x140200 + c * 0x400
/-- ADC.CV[c].STATUS.busy, bits [0:0]. -/
def F.CV_STATUS_busy (c : Nat) : Fld := ⟨A.CV_STATUS c, 0, 1⟩
/-- ADC.CV[c].STATUS.pending, bits [1:1]. -/
def F.CV_STATUS_pending (c : Nat) : Fld := ⟨A.CV_STATUS c, 1, 1⟩
/-- ADC.CV[c].STATUS.trigovr, bits [2:2]. -/
def F.CV_STATUS_trigovr (c : Nat) : Fld := ⟨A.CV_STATUS c, 2, 1⟩
/-- ADC.CV[c].STATUS.fail, bits [3:3]. -/
def F.CV_STATUS_fail (c : Nat) : Fld := ⟨A.CV_STATUS c, 3, 1⟩
/-- BAR0 offset of ADC.CV[c].CNT (R180). -/
def A.CV_CNT (c : Nat) : Nat := 0x140204 + c * 0x400
/-- ADC.CV[c].CNT.trigovr_cnt, bits [15:0]. -/
def F.CV_CNT_trigovr_cnt (c : Nat) : Fld := ⟨A.CV_CNT c, 0, 16⟩
/-- ADC.CV[c].CNT.delay_ovr, bits [31:16]. -/
def F.CV_CNT_delay_ovr (c : Nat) : Fld := ⟨A.CV_CNT c, 16, 16⟩
/-- BAR0 offset of ADC.CV[c].CNT2 (R180). -/
def A.CV_CNT2 (c : Nat) : Nat := 0x140208 + c * 0x400
/-- ADC.CV[c].CNT2.held_cnt, bits [15:0]. -/
def F.CV_CNT2_held_cnt (c : Nat) : Fld := ⟨A.CV_CNT2 c, 0, 16⟩
/-- BAR0 offset of ADC.CV[c].CLR (R180). -/
def A.CV_CLR (c : Nat) : Nat := 0x14020c + c * 0x400
/-- ADC.CV[c].CLR.clr, bits [0:0]. -/
def F.CV_CLR_clr (c : Nat) : Fld := ⟨A.CV_CLR c, 0, 1⟩
/-- BAR0 offset of ADC.OC[s].TH (R180). -/
def A.OC_TH (s : Nat) (i : Nat) : Nat := 0x148000 + s * 0x20 + i * 0x4
/-- ADC.OC[s].TH.high, bits [11:0]. -/
def F.OC_TH_high (s : Nat) (i : Nat) : Fld := ⟨A.OC_TH s i, 0, 12⟩
/-- ADC.OC[s].TH.low, bits [27:16]. -/
def F.OC_TH_low (s : Nat) (i : Nat) : Fld := ⟨A.OC_TH s i, 16, 12⟩
/-- BAR0 offset of ADC.OC[s].CFG (R180). -/
def A.OC_CFG (s : Nat) : Nat := 0x148008 + s * 0x20
/-- ADC.OC[s].CFG.ia_en, bits [0:0]. -/
def F.OC_CFG_ia_en (s : Nat) : Fld := ⟨A.OC_CFG s, 0, 1⟩
/-- ADC.OC[s].CFG.ib_en, bits [1:1]. -/
def F.OC_CFG_ib_en (s : Nat) : Fld := ⟨A.OC_CFG s, 1, 1⟩
/-- ADC.OC[s].CFG.filt, bits [12:8]. -/
def F.OC_CFG_filt (s : Nat) : Fld := ⟨A.OC_CFG s, 8, 5⟩
/-- BAR0 offset of ADC.OC[s].TRIP (R180). -/
def A.OC_TRIP (s : Nat) : Nat := 0x14800c + s * 0x20
/-- ADC.OC[s].TRIP.src, bits [3:0]. -/
def F.OC_TRIP_src (s : Nat) : Fld := ⟨A.OC_TRIP s, 0, 4⟩
/-- ADC.OC[s].TRIP.fbk, bits [4:4]. -/
def F.OC_TRIP_fbk (s : Nat) : Fld := ⟨A.OC_TRIP s, 4, 1⟩
/-- ADC.OC[s].TRIP.latched, bits [5:5]. -/
def F.OC_TRIP_latched (s : Nat) : Fld := ⟨A.OC_TRIP s, 5, 1⟩
/-- ADC.OC[s].TRIP.clr, bits [8:8]. -/
def F.OC_TRIP_clr (s : Nat) : Fld := ⟨A.OC_TRIP s, 8, 1⟩
/-- BAR0 offset of ADC.OC[s].CNT (R180). -/
def A.OC_CNT (s : Nat) : Nat := 0x148010 + s * 0x20
/-- ADC.OC[s].CNT.trips, bits [15:0]. -/
def F.OC_CNT_trips (s : Nat) : Fld := ⟨A.OC_CNT s, 0, 16⟩
/-- BAR0 offset of ADC.OCB[b].STAT (R180). -/
def A.OCB_STAT (b : Nat) : Nat := 0x149000 + b * 0x10
/-- ADC.OCB[b].STAT.fail, bits [0:0]. -/
def F.OCB_STAT_fail (b : Nat) : Fld := ⟨A.OCB_STAT b, 0, 1⟩
/-- ADC.OCB[b].STAT.spare, bits [7:4]. -/
def F.OCB_STAT_spare (b : Nat) : Fld := ⟨A.OCB_STAT b, 4, 4⟩
/-- ADC.OCB[b].STAT.rounds, bits [31:16]. -/
def F.OCB_STAT_rounds (b : Nat) : Fld := ⟨A.OCB_STAT b, 16, 16⟩
/-- BAR0 offset of FBK.S[s].CFG (R209). -/
def A.FB_CFG (s : Nat) : Nat := 0x180000 + s * 0x100
/-- FBK.S[s].CFG.mode, bits [2:0]. -/
def F.FB_CFG_mode (s : Nat) : Fld := ⟨A.FB_CFG s, 0, 3⟩
/-- FBK.S[s].CFG.rev, bits [3:3]. -/
def F.FB_CFG_rev (s : Nat) : Fld := ⟨A.FB_CFG s, 3, 1⟩
/-- FBK.S[s].CFG.index, bits [5:4]. -/
def F.FB_CFG_index (s : Nat) : Fld := ⟨A.FB_CFG s, 4, 2⟩
/-- FBK.S[s].CFG.zqual, bits [7:6]. -/
def F.FB_CFG_zqual (s : Nat) : Fld := ⟨A.FB_CFG s, 6, 2⟩
/-- FBK.S[s].CFG.zpol, bits [8:8]. -/
def F.FB_CFG_zpol (s : Nat) : Fld := ⟨A.FB_CFG s, 8, 1⟩
/-- FBK.S[s].CFG.f2_out, bits [9:9]. -/
def F.FB_CFG_f2_out (s : Nat) : Fld := ⟨A.FB_CFG s, 9, 1⟩
/-- FBK.S[s].CFG.cmp_pol, bits [10:10]. -/
def F.FB_CFG_cmp_pol (s : Nat) : Fld := ⟨A.FB_CFG s, 10, 1⟩
/-- FBK.S[s].CFG.step_edge, bits [11:11]. -/
def F.FB_CFG_step_edge (s : Nat) : Fld := ⟨A.FB_CFG s, 11, 1⟩
/-- FBK.S[s].CFG.spd_shift, bits [15:12]. -/
def F.FB_CFG_spd_shift (s : Nat) : Fld := ⟨A.FB_CFG s, 12, 4⟩
/-- BAR0 offset of FBK.S[s].FILT (R209). -/
def A.FB_FILT (s : Nat) : Nat := 0x180004 + s * 0x100
/-- FBK.S[s].FILT.f0, bits [7:0]. -/
def F.FB_FILT_f0 (s : Nat) : Fld := ⟨A.FB_FILT s, 0, 8⟩
/-- FBK.S[s].FILT.f1, bits [15:8]. -/
def F.FB_FILT_f1 (s : Nat) : Fld := ⟨A.FB_FILT s, 8, 8⟩
/-- FBK.S[s].FILT.f2, bits [23:16]. -/
def F.FB_FILT_f2 (s : Nat) : Fld := ⟨A.FB_FILT s, 16, 8⟩
/-- BAR0 offset of FBK.S[s].SPD (R209). -/
def A.FB_SPD (s : Nat) : Nat := 0x180008 + s * 0x100
/-- FBK.S[s].SPD.still, bits [15:0]. -/
def F.FB_SPD_still (s : Nat) : Fld := ⟨A.FB_SPD s, 0, 16⟩
/-- FBK.S[s].SPD.win, bits [31:16]. -/
def F.FB_SPD_win (s : Nat) : Fld := ⟨A.FB_SPD s, 16, 16⟩
/-- BAR0 offset of FBK.S[s].SER (R209). -/
def A.FB_SER (s : Nat) : Nat := 0x18000c + s * 0x100
/-- FBK.S[s].SER.st, bits [5:0]. -/
def F.FB_SER_st (s : Nat) : Fld := ⟨A.FB_SER s, 0, 6⟩
/-- FBK.S[s].SER.mt, bits [10:6]. -/
def F.FB_SER_mt (s : Nat) : Fld := ⟨A.FB_SER s, 6, 5⟩
/-- FBK.S[s].SER.gray, bits [11:11]. -/
def F.FB_SER_gray (s : Nat) : Fld := ⟨A.FB_SER s, 11, 1⟩
/-- FBK.S[s].SER.parity, bits [13:12]. -/
def F.FB_SER_parity (s : Nat) : Fld := ⟨A.FB_SER s, 12, 2⟩
/-- FBK.S[s].SER.lead, bits [16:14]. -/
def F.FB_SER_lead (s : Nat) : Fld := ⟨A.FB_SER s, 14, 3⟩
/-- FBK.S[s].SER.ackmax, bits [24:17]. -/
def F.FB_SER_ackmax (s : Nat) : Fld := ⟨A.FB_SER s, 17, 8⟩
/-- BAR0 offset of FBK.S[s].SERT (R209). -/
def A.FB_SERT (s : Nat) : Nat := 0x180010 + s * 0x100
/-- FBK.S[s].SERT.div, bits [10:0]. -/
def F.FB_SERT_div (s : Nat) : Fld := ⟨A.FB_SERT s, 0, 11⟩
/-- FBK.S[s].SERT.tm, bits [23:16]. -/
def F.FB_SERT_tm (s : Nat) : Fld := ⟨A.FB_SERT s, 16, 8⟩
/-- FBK.S[s].SERT.comp, bits [31:24]. -/
def F.FB_SERT_comp (s : Nat) : Fld := ⟨A.FB_SERT s, 24, 8⟩
/-- BAR0 offset of FBK.S[s].LATCH (R209). -/
def A.FB_LATCH (s : Nat) : Nat := 0x180014 + s * 0x100
/-- FBK.S[s].LATCH.event, bits [3:0]. -/
def F.FB_LATCH_event (s : Nat) : Fld := ⟨A.FB_LATCH s, 0, 4⟩
/-- FBK.S[s].LATCH.delay, bits [31:16]. -/
def F.FB_LATCH_delay (s : Nat) : Fld := ⟨A.FB_LATCH s, 16, 16⟩
/-- BAR0 offset of FBK.S[s].DEST (R209). -/
def A.FB_DEST (s : Nat) : Nat := 0x180018 + s * 0x100
/-- FBK.S[s].DEST.stall, bits [7:0]. -/
def F.FB_DEST_stall (s : Nat) : Fld := ⟨A.FB_DEST s, 0, 8⟩
/-- FBK.S[s].DEST.pslot, bits [10:8]. -/
def F.FB_DEST_pslot (s : Nat) : Fld := ⟨A.FB_DEST s, 8, 3⟩
/-- FBK.S[s].DEST.sslot, bits [14:12]. -/
def F.FB_DEST_sslot (s : Nat) : Fld := ⟨A.FB_DEST s, 12, 3⟩
/-- FBK.S[s].DEST.fslot, bits [18:16]. -/
def F.FB_DEST_fslot (s : Nat) : Fld := ⟨A.FB_DEST s, 16, 3⟩
/-- FBK.S[s].DEST.pen, bits [11:11]. -/
def F.FB_DEST_pen (s : Nat) : Fld := ⟨A.FB_DEST s, 11, 1⟩
/-- FBK.S[s].DEST.sen, bits [15:15]. -/
def F.FB_DEST_sen (s : Nat) : Fld := ⟨A.FB_DEST s, 15, 1⟩
/-- FBK.S[s].DEST.fen, bits [19:19]. -/
def F.FB_DEST_fen (s : Nat) : Fld := ⟨A.FB_DEST s, 19, 1⟩
/-- BAR0 offset of FBK.S[s].ATTN (R209). -/
def A.FB_ATTN (s : Nat) : Nat := 0x18001c + s * 0x100
/-- FBK.S[s].ATTN.stall, bits [7:0]. -/
def F.FB_ATTN_stall (s : Nat) : Fld := ⟨A.FB_ATTN s, 0, 8⟩
/-- FBK.S[s].ATTN.slot, bits [10:8]. -/
def F.FB_ATTN_slot (s : Nat) : Fld := ⟨A.FB_ATTN s, 8, 3⟩
/-- BAR0 offset of FBK.S[s].IDXVAL (R209). -/
def A.FB_IDXVAL (s : Nat) : Nat := 0x180020 + s * 0x100
/-- FBK.S[s].IDXVAL.value, bits [31:0]. -/
def F.FB_IDXVAL_value (s : Nat) : Fld := ⟨A.FB_IDXVAL s, 0, 32⟩
/-- BAR0 offset of FBK.S[s].CTL (R209). -/
def A.FB_CTL (s : Nat) : Nat := 0x180024 + s * 0x100
/-- FBK.S[s].CTL.arm, bits [0:0]. -/
def F.FB_CTL_arm (s : Nat) : Fld := ⟨A.FB_CTL s, 0, 1⟩
/-- FBK.S[s].CTL.preset, bits [1:1]. -/
def F.FB_CTL_preset (s : Nat) : Fld := ⟨A.FB_CTL s, 1, 1⟩
/-- BAR0 offset of FBK.S[s].PRESET (R209). -/
def A.FB_PRESET (s : Nat) : Nat := 0x180028 + s * 0x100
/-- FBK.S[s].PRESET.value, bits [31:0]. -/
def F.FB_PRESET_value (s : Nat) : Fld := ⟨A.FB_PRESET s, 0, 32⟩
/-- BAR0 offset of FBK.S[s].ERRCFG (R209). -/
def A.FB_ERRCFG (s : Nat) : Nat := 0x18002c + s * 0x100
/-- FBK.S[s].ERRCFG.trip, bits [6:0]. -/
def F.FB_ERRCFG_trip (s : Nat) : Fld := ⟨A.FB_ERRCFG s, 0, 7⟩
/-- FBK.S[s].ERRCFG.limit, bits [11:8]. -/
def F.FB_ERRCFG_limit (s : Nat) : Fld := ⟨A.FB_ERRCFG s, 8, 4⟩
/-- BAR0 offset of FBK.S[s].MAXSTEP (R209). -/
def A.FB_MAXSTEP (s : Nat) : Nat := 0x180030 + s * 0x100
/-- FBK.S[s].MAXSTEP.step, bits [31:0]. -/
def F.FB_MAXSTEP_step (s : Nat) : Fld := ⟨A.FB_MAXSTEP s, 0, 32⟩
/-- BAR0 offset of FBK.S[s].POS (R209). -/
def A.FB_POS (s : Nat) : Nat := 0x180034 + s * 0x100
/-- FBK.S[s].POS.pos, bits [31:0]. -/
def F.FB_POS_pos (s : Nat) : Fld := ⟨A.FB_POS s, 0, 32⟩
/-- BAR0 offset of FBK.S[s].SPEED (R209). -/
def A.FB_SPEED (s : Nat) : Nat := 0x180038 + s * 0x100
/-- FBK.S[s].SPEED.speed, bits [31:0]. -/
def F.FB_SPEED_speed (s : Nat) : Fld := ⟨A.FB_SPEED s, 0, 32⟩
/-- BAR0 offset of FBK.S[s].FSTAT (R209). -/
def A.FB_FSTAT (s : Nat) : Nat := 0x18003c + s * 0x100
/-- FBK.S[s].FSTAT.valid, bits [2:0]. -/
def F.FB_FSTAT_valid (s : Nat) : Fld := ⟨A.FB_FSTAT s, 0, 3⟩
/-- FBK.S[s].FSTAT.dir, bits [3:3]. -/
def F.FB_FSTAT_dir (s : Nat) : Fld := ⟨A.FB_FSTAT s, 3, 1⟩
/-- FBK.S[s].FSTAT.rev, bits [4:4]. -/
def F.FB_FSTAT_rev (s : Nat) : Fld := ⟨A.FB_FSTAT s, 4, 1⟩
/-- FBK.S[s].FSTAT.stale, bits [5:5]. -/
def F.FB_FSTAT_stale (s : Nat) : Fld := ⟨A.FB_FSTAT s, 5, 1⟩
/-- FBK.S[s].FSTAT.hold, bits [6:6]. -/
def F.FB_FSTAT_hold (s : Nat) : Fld := ⟨A.FB_FSTAT s, 6, 1⟩
/-- FBK.S[s].FSTAT.homed, bits [7:7]. -/
def F.FB_FSTAT_homed (s : Nat) : Fld := ⟨A.FB_FSTAT s, 7, 1⟩
/-- FBK.S[s].FSTAT.hall, bits [10:8]. -/
def F.FB_FSTAT_hall (s : Nat) : Fld := ⟨A.FB_FSTAT s, 8, 3⟩
/-- FBK.S[s].FSTAT.cmp, bits [11:11]. -/
def F.FB_FSTAT_cmp (s : Nat) : Fld := ⟨A.FB_FSTAT s, 11, 1⟩
/-- BAR0 offset of FBK.S[s].STATUS (R209). -/
def A.FB_STATUS (s : Nat) : Nat := 0x180040 + s * 0x100
/-- FBK.S[s].STATUS.dirchg, bits [0:0]. -/
def F.FB_STATUS_dirchg (s : Nat) : Fld := ⟨A.FB_STATUS s, 0, 1⟩
/-- FBK.S[s].STATUS.index, bits [1:1]. -/
def F.FB_STATUS_index (s : Nat) : Fld := ⟨A.FB_STATUS s, 1, 1⟩
/-- FBK.S[s].STATUS.dropped, bits [2:2]. -/
def F.FB_STATUS_dropped (s : Nat) : Fld := ⟨A.FB_STATUS s, 2, 1⟩
/-- BAR0 offset of FBK.S[s].ERR (R209). -/
def A.FB_ERR (s : Nat) : Nat := 0x180044 + s * 0x100
/-- FBK.S[s].ERR.src, bits [7:0]. -/
def F.FB_ERR_src (s : Nat) : Fld := ⟨A.FB_ERR s, 0, 8⟩
/-- FBK.S[s].ERR.consec, bits [19:16]. -/
def F.FB_ERR_consec (s : Nat) : Fld := ⟨A.FB_ERR s, 16, 4⟩
/-- BAR0 offset of FBK.S[s].MTPOS (R209). -/
def A.FB_MTPOS (s : Nat) : Nat := 0x180048 + s * 0x100
/-- BAR0 offset of FBK.S[s].STAMP (R209). -/
def A.FB_STAMP (s : Nat) : Nat := 0x180050 + s * 0x100
/-- BAR0 offset of FBK.S[s].EDGE_STAMP (R209). -/
def A.FB_EDGE_STAMP (s : Nat) : Nat := 0x180058 + s * 0x100
/-- BAR0 offset of FBK.S[s].IDXSTAMP (R209). -/
def A.FB_IDXSTAMP (s : Nat) : Nat := 0x180060 + s * 0x100
/-- BAR0 offset of FBK.S[s].IDXPOS (R209). -/
def A.FB_IDXPOS (s : Nat) : Nat := 0x180068 + s * 0x100
/-- FBK.S[s].IDXPOS.pos, bits [31:0]. -/
def F.FB_IDXPOS_pos (s : Nat) : Fld := ⟨A.FB_IDXPOS s, 0, 32⟩
/-- BAR0 offset of FBK.S[s].CNT (R209). -/
def A.FB_CNT (s : Nat) : Nat := 0x18006c + s * 0x100
/-- FBK.S[s].CNT.rev_cnt, bits [15:0]. -/
def F.FB_CNT_rev_cnt (s : Nat) : Fld := ⟨A.FB_CNT s, 0, 16⟩
/-- FBK.S[s].CNT.err_cnt, bits [31:16]. -/
def F.FB_CNT_err_cnt (s : Nat) : Fld := ⟨A.FB_CNT s, 16, 16⟩
/-- BAR0 offset of FBK.S[s].CNT2 (R209). -/
def A.FB_CNT2 (s : Nat) : Nat := 0x180070 + s * 0x100
/-- FBK.S[s].CNT2.drop_cnt, bits [15:0]. -/
def F.FB_CNT2_drop_cnt (s : Nat) : Fld := ⟨A.FB_CNT2 s, 0, 16⟩
/-- BAR0 offset of FBK.S[s].CLR (R209). -/
def A.FB_CLR (s : Nat) : Nat := 0x180074 + s * 0x100
/-- FBK.S[s].CLR.clr, bits [0:0]. -/
def F.FB_CLR_clr (s : Nat) : Fld := ⟨A.FB_CLR s, 0, 1⟩
/-- BAR0 offset of FBK.S[s].BDELAY (R209). -/
def A.FB_BDELAY (s : Nat) : Nat := 0x180078 + s * 0x100
/-- FBK.S[s].BDELAY.d, bits [15:0]. -/
def F.FB_BDELAY_d (s : Nat) : Fld := ⟨A.FB_BDELAY s, 0, 16⟩
/-- BAR0 offset of FBK.EMU[b].CFG (R209). -/
def A.EMU_CFG (b : Nat) : Nat := 0x190000 + b * 0x40
/-- FBK.EMU[b].CFG.enable, bits [0:0]. -/
def F.EMU_CFG_enable (b : Nat) : Fld := ⟨A.EMU_CFG b, 0, 1⟩
/-- FBK.EMU[b].CFG.src, bits [1:1]. -/
def F.EMU_CFG_src (b : Nat) : Fld := ⟨A.EMU_CFG b, 1, 1⟩
/-- FBK.EMU[b].CFG.slice, bits [7:2]. -/
def F.EMU_CFG_slice (b : Nat) : Fld := ⟨A.EMU_CFG b, 2, 6⟩
/-- FBK.EMU[b].CFG.coord, bits [11:8]. -/
def F.EMU_CFG_coord (b : Nat) : Fld := ⟨A.EMU_CFG b, 8, 4⟩
/-- FBK.EMU[b].CFG.pol, bits [12:12]. -/
def F.EMU_CFG_pol (b : Nat) : Fld := ⟨A.EMU_CFG b, 12, 1⟩
/-- BAR0 offset of FBK.EMU[b].MINSEP (R209). -/
def A.EMU_MINSEP (b : Nat) : Nat := 0x19000c + b * 0x40
/-- FBK.EMU[b].MINSEP.sep, bits [15:0]. -/
def F.EMU_MINSEP_sep (b : Nat) : Fld := ⟨A.EMU_MINSEP b, 0, 16⟩
/-- BAR0 offset of FBK.EMU[b].ZPER (R209). -/
def A.EMU_ZPER (b : Nat) : Nat := 0x190010 + b * 0x40
/-- FBK.EMU[b].ZPER.per, bits [31:0]. -/
def F.EMU_ZPER_per (b : Nat) : Fld := ⟨A.EMU_ZPER b, 0, 32⟩
/-- BAR0 offset of FBK.EMU[b].ZPOS (R209). -/
def A.EMU_ZPOS (b : Nat) : Nat := 0x190014 + b * 0x40
/-- FBK.EMU[b].ZPOS.pos, bits [31:0]. -/
def F.EMU_ZPOS_pos (b : Nat) : Fld := ⟨A.EMU_ZPOS b, 0, 32⟩
/-- BAR0 offset of FBK.EMU[b].BACKLOG (R209). -/
def A.EMU_BACKLOG (b : Nat) : Nat := 0x190018 + b * 0x40
/-- FBK.EMU[b].BACKLOG.backlog, bits [31:0]. -/
def F.EMU_BACKLOG_backlog (b : Nat) : Fld := ⟨A.EMU_BACKLOG b, 0, 32⟩
/-- BAR0 offset of FBK.EMU[b].STAT (R209). -/
def A.EMU_STAT (b : Nat) : Nat := 0x19001c + b * 0x40
/-- FBK.EMU[b].STAT.lag, bits [0:0]. -/
def F.EMU_STAT_lag (b : Nat) : Fld := ⟨A.EMU_STAT b, 0, 1⟩
/-- BAR0 offset of FBK.EMU[b].EMITTED (R209). -/
def A.EMU_EMITTED (b : Nat) : Nat := 0x190020 + b * 0x40
/-- BAR0 offset of FBK.EMU[b].SCALE (R209). -/
def A.EMU_SCALE (b : Nat) : Nat := 0x190028 + b * 0x40
/-- BAR0 offset of HWK.ST[n].CFG (R261). -/
def A.ST_CFG (n : Nat) : Nat := 0x200000 + n * 0x80
/-- HWK.ST[n].CFG.enable, bits [0:0]. -/
def F.ST_CFG_enable (n : Nat) : Fld := ⟨A.ST_CFG n, 0, 1⟩
/-- HWK.ST[n].CFG.dual, bits [1:1]. -/
def F.ST_CFG_dual (n : Nat) : Fld := ⟨A.ST_CFG n, 1, 1⟩
/-- HWK.ST[n].CFG.safe, bits [2:2]. -/
def F.ST_CFG_safe (n : Nat) : Fld := ⟨A.ST_CFG n, 2, 1⟩
/-- HWK.ST[n].CFG.prio, bits [7:4]. -/
def F.ST_CFG_prio (n : Nat) : Fld := ⟨A.ST_CFG n, 4, 4⟩
/-- HWK.ST[n].CFG.mask, bits [15:8]. -/
def F.ST_CFG_mask (n : Nat) : Fld := ⟨A.ST_CFG n, 8, 8⟩
/-- HWK.ST[n].CFG.owner, bits [19:16]. -/
def F.ST_CFG_owner (n : Nat) : Fld := ⟨A.ST_CFG n, 16, 4⟩
/-- BAR0 offset of HWK.ST[n].ENTRY (R261). -/
def A.ST_ENTRY (n : Nat) : Nat := 0x200004 + n * 0x80
/-- HWK.ST[n].ENTRY.entry, bits [15:0]. -/
def F.ST_ENTRY_entry (n : Nat) : Fld := ⟨A.ST_ENTRY n, 0, 16⟩
/-- BAR0 offset of HWK.ST[n].CORES (R261). -/
def A.ST_CORES (n : Nat) : Nat := 0x200008 + n * 0x80
/-- HWK.ST[n].CORES.cores, bits [11:0]. -/
def F.ST_CORES_cores (n : Nat) : Fld := ⟨A.ST_CORES n, 0, 12⟩
/-- BAR0 offset of HWK.ST[n].DEADLINE (R261). -/
def A.ST_DEADLINE (n : Nat) : Nat := 0x20000c + n * 0x80
/-- HWK.ST[n].DEADLINE.kind, bits [1:0]. -/
def F.ST_DEADLINE_kind (n : Nat) : Fld := ⟨A.ST_DEADLINE n, 0, 2⟩
/-- HWK.ST[n].DEADLINE.slice, bits [7:2]. -/
def F.ST_DEADLINE_slice (n : Nat) : Fld := ⟨A.ST_DEADLINE n, 2, 6⟩
/-- HWK.ST[n].DEADLINE.rel, bits [31:8]. -/
def F.ST_DEADLINE_rel (n : Nat) : Fld := ⟨A.ST_DEADLINE n, 8, 24⟩
/-- BAR0 offset of HWK.ST[n].STATE (R261). -/
def A.ST_STATE (n : Nat) : Nat := 0x200010 + n * 0x80
/-- HWK.ST[n].STATE.state, bits [2:0]. -/
def F.ST_STATE_state (n : Nat) : Fld := ⟨A.ST_STATE n, 0, 3⟩
/-- HWK.ST[n].STATE.missed, bits [3:3]. -/
def F.ST_STATE_missed (n : Nat) : Fld := ⟨A.ST_STATE n, 3, 1⟩
/-- HWK.ST[n].STATE.overrun, bits [4:4]. -/
def F.ST_STATE_overrun (n : Nat) : Fld := ⟨A.ST_STATE n, 4, 1⟩
/-- HWK.ST[n].STATE.vfail, bits [5:5]. -/
def F.ST_STATE_vfail (n : Nat) : Fld := ⟨A.ST_STATE n, 5, 1⟩
/-- HWK.ST[n].STATE.fresh, bits [15:8]. -/
def F.ST_STATE_fresh (n : Nat) : Fld := ⟨A.ST_STATE n, 8, 8⟩
/-- HWK.ST[n].STATE.core, bits [19:16]. -/
def F.ST_STATE_core (n : Nat) : Fld := ⟨A.ST_STATE n, 16, 4⟩
/-- BAR0 offset of HWK.ST[n].CTL (R261). -/
def A.ST_CTL (n : Nat) : Nat := 0x200014 + n * 0x80
/-- HWK.ST[n].CTL.arm, bits [0:0]. -/
def F.ST_CTL_arm (n : Nat) : Fld := ⟨A.ST_CTL n, 0, 1⟩
/-- BAR0 offset of HWK.ST[n].WAIT_LAST (R261). -/
def A.ST_WAIT_LAST (n : Nat) : Nat := 0x200018 + n * 0x80
/-- HWK.ST[n].WAIT_LAST.ns, bits [31:0]. -/
def F.ST_WAIT_LAST_ns (n : Nat) : Fld := ⟨A.ST_WAIT_LAST n, 0, 32⟩
/-- BAR0 offset of HWK.ST[n].WAIT_MAX (R261). -/
def A.ST_WAIT_MAX (n : Nat) : Nat := 0x20001c + n * 0x80
/-- HWK.ST[n].WAIT_MAX.ns, bits [31:0]. -/
def F.ST_WAIT_MAX_ns (n : Nat) : Fld := ⟨A.ST_WAIT_MAX n, 0, 32⟩
/-- BAR0 offset of HWK.ST[n].CNT1 (R261). -/
def A.ST_CNT1 (n : Nat) : Nat := 0x200020 + n * 0x80
/-- HWK.ST[n].CNT1.misses, bits [15:0]. -/
def F.ST_CNT1_misses (n : Nat) : Fld := ⟨A.ST_CNT1 n, 0, 16⟩
/-- HWK.ST[n].CNT1.overruns, bits [31:16]. -/
def F.ST_CNT1_overruns (n : Nat) : Fld := ⟨A.ST_CNT1 n, 16, 16⟩
/-- BAR0 offset of HWK.ST[n].CNT2 (R261). -/
def A.ST_CNT2 (n : Nat) : Nat := 0x200024 + n * 0x80
/-- HWK.ST[n].CNT2.votes, bits [15:0]. -/
def F.ST_CNT2_votes (n : Nat) : Fld := ⟨A.ST_CNT2 n, 0, 16⟩
/-- HWK.ST[n].CNT2.dropped, bits [31:16]. -/
def F.ST_CNT2_dropped (n : Nat) : Fld := ⟨A.ST_CNT2 n, 16, 16⟩
/-- BAR0 offset of HWK.ST[n].RUNS (R261). -/
def A.ST_RUNS (n : Nat) : Nat := 0x200028 + n * 0x80
/-- HWK.ST[n].RUNS.runs, bits [31:0]. -/
def F.ST_RUNS_runs (n : Nat) : Fld := ⟨A.ST_RUNS n, 0, 32⟩
/-- BAR0 offset of HWK.ST[n].SLOT (R261). -/
def A.ST_SLOT (n : Nat) (k : Nat) : Nat := 0x200040 + n * 0x80 + k * 0x4
/-- HWK.ST[n].SLOT.value, bits [31:0]. -/
def F.ST_SLOT_value (n : Nat) (k : Nat) : Fld := ⟨A.ST_SLOT n k, 0, 32⟩
/-- BAR0 offset of HWK.ST[n].CLR (R261). -/
def A.ST_CLR (n : Nat) : Nat := 0x200060 + n * 0x80
/-- HWK.ST[n].CLR.clr, bits [0:0]. -/
def F.ST_CLR_clr (n : Nat) : Fld := ⟨A.ST_CLR n, 0, 1⟩
/-- BAR0 offset of HWK.LVL[p].DEPTH (R261). -/
def A.LVL_DEPTH (p : Nat) : Nat := 0x208000 + p * 0x4
/-- HWK.LVL[p].DEPTH.depth, bits [15:0]. -/
def F.LVL_DEPTH_depth (p : Nat) : Fld := ⟨A.LVL_DEPTH p, 0, 16⟩
/-- HWK.LVL[p].DEPTH.max, bits [31:16]. -/
def F.LVL_DEPTH_max (p : Nat) : Fld := ⟨A.LVL_DEPTH p, 16, 16⟩
/-- BAR0 offset of HWK.CORE[c].STATUS (R261). -/
def A.HC_STATUS (c : Nat) : Nat := 0x208100 + c * 0x20
/-- HWK.CORE[c].STATUS.state, bits [2:0]. -/
def F.HC_STATUS_state (c : Nat) : Fld := ⟨A.HC_STATUS c, 0, 3⟩
/-- HWK.CORE[c].STATUS.stall, bits [15:8]. -/
def F.HC_STATUS_stall (c : Nat) : Fld := ⟨A.HC_STATUS c, 8, 8⟩
/-- HWK.CORE[c].STATUS.exec, bits [17:16]. -/
def F.HC_STATUS_exec (c : Nat) : Fld := ⟨A.HC_STATUS c, 16, 2⟩
/-- BAR0 offset of HWK.CORE[c].HEALTH (R261). -/
def A.HC_HEALTH (c : Nat) : Nat := 0x208104 + c * 0x20
/-- HWK.CORE[c].HEALTH.pass, bits [0:0]. -/
def F.HC_HEALTH_pass (c : Nat) : Fld := ⟨A.HC_HEALTH c, 0, 1⟩
/-- HWK.CORE[c].HEALTH.quarantined, bits [1:1]. -/
def F.HC_HEALTH_quarantined (c : Nat) : Fld := ⟨A.HC_HEALTH c, 1, 1⟩
/-- HWK.CORE[c].HEALTH.cause, bits [2:2]. -/
def F.HC_HEALTH_cause (c : Nat) : Fld := ⟨A.HC_HEALTH c, 2, 1⟩
/-- HWK.CORE[c].HEALTH.tests, bits [15:8]. -/
def F.HC_HEALTH_tests (c : Nat) : Fld := ⟨A.HC_HEALTH c, 8, 8⟩
/-- HWK.CORE[c].HEALTH.fails, bits [23:16]. -/
def F.HC_HEALTH_fails (c : Nat) : Fld := ⟨A.HC_HEALTH c, 16, 8⟩
/-- HWK.CORE[c].HEALTH.qcount, bits [31:24]. -/
def F.HC_HEALTH_qcount (c : Nat) : Fld := ⟨A.HC_HEALTH c, 24, 8⟩
/-- BAR0 offset of HWK.CORE[c].BUSY (R261). -/
def A.HC_BUSY (c : Nat) : Nat := 0x208108 + c * 0x20
/-- HWK.CORE[c].BUSY.last, bits [19:0]. -/
def F.HC_BUSY_last (c : Nat) : Fld := ⟨A.HC_BUSY c, 0, 20⟩
/-- BAR0 offset of HWK.CORE[c].BUSY_MAX (R261). -/
def A.HC_BUSY_MAX (c : Nat) : Nat := 0x20810c + c * 0x20
/-- HWK.CORE[c].BUSY_MAX.max, bits [19:0]. -/
def F.HC_BUSY_MAX_max (c : Nat) : Fld := ⟨A.HC_BUSY_MAX c, 0, 20⟩
/-- BAR0 offset of HWK.CORE[c].IDLE (R261). -/
def A.HC_IDLE (c : Nat) : Nat := 0x208110 + c * 0x20
/-- HWK.CORE[c].IDLE.addr, bits [15:0]. -/
def F.HC_IDLE_addr (c : Nat) : Fld := ⟨A.HC_IDLE c, 0, 16⟩
/-- BAR0 offset of HWK.CORE[c].CTL (R261). -/
def A.HC_CTL (c : Nat) : Nat := 0x208114 + c * 0x20
/-- HWK.CORE[c].CTL.retest, bits [0:0]. -/
def F.HC_CTL_retest (c : Nat) : Fld := ⟨A.HC_CTL c, 0, 1⟩
/-- BAR0 offset of HWK.CFG (R261). -/
def A.HWK_CFG : Nat := 0x208400
/-- HWK.CFG.preempt, bits [3:0]. -/
def F.HWK_CFG_preempt : Fld := ⟨A.HWK_CFG, 0, 4⟩
/-- HWK.CFG.preempt_en, bits [4:4]. -/
def F.HWK_CFG_preempt_en : Fld := ⟨A.HWK_CFG, 4, 1⟩
/-- BAR0 offset of HWK.MISSDEST (R261). -/
def A.HWK_MISSDEST : Nat := 0x208404
/-- HWK.MISSDEST.stall, bits [7:0]. -/
def F.HWK_MISSDEST_stall : Fld := ⟨A.HWK_MISSDEST, 0, 8⟩
/-- HWK.MISSDEST.slot, bits [10:8]. -/
def F.HWK_MISSDEST_slot : Fld := ⟨A.HWK_MISSDEST, 8, 3⟩
/-- BAR0 offset of HWK.STAT (R261). -/
def A.HWK_STAT : Nat := 0x208408
/-- HWK.STAT.misses, bits [15:0]. -/
def F.HWK_STAT_misses : Fld := ⟨A.HWK_STAT, 0, 16⟩
/-- HWK.STAT.quarantines, bits [31:16]. -/
def F.HWK_STAT_quarantines : Fld := ⟨A.HWK_STAT, 16, 16⟩
/-- BAR0 offset of HWK.CLR (R261). -/
def A.HWK_CLR : Nat := 0x20840c
/-- HWK.CLR.clr, bits [0:0]. -/
def F.HWK_CLR_clr : Fld := ⟨A.HWK_CLR, 0, 1⟩
/-- BAR0 offset of LC.CORE[c].STATUS (R295). -/
def A.LC_STATUS (c : Nat) : Nat := 0x240000 + c * 0x400
/-- LC.CORE[c].STATUS.pc, bits [15:0]. -/
def F.LC_STATUS_pc (c : Nat) : Fld := ⟨A.LC_STATUS c, 0, 16⟩
/-- LC.CORE[c].STATUS.halted, bits [16:16]. -/
def F.LC_STATUS_halted (c : Nat) : Fld := ⟨A.LC_STATUS c, 16, 1⟩
/-- LC.CORE[c].STATUS.take, bits [17:17]. -/
def F.LC_STATUS_take (c : Nat) : Fld := ⟨A.LC_STATUS c, 17, 1⟩
/-- LC.CORE[c].STATUS.levels, bits [19:18]. -/
def F.LC_STATUS_levels (c : Nat) : Fld := ⟨A.LC_STATUS c, 18, 2⟩
/-- BAR0 offset of LC.CORE[c].FAULT (R295). -/
def A.LC_FAULT (c : Nat) : Nat := 0x240004 + c * 0x400
/-- LC.CORE[c].FAULT.cause, bits [3:0]. -/
def F.LC_FAULT_cause (c : Nat) : Fld := ⟨A.LC_FAULT c, 0, 4⟩
/-- LC.CORE[c].FAULT.stall, bits [15:8]. -/
def F.LC_FAULT_stall (c : Nat) : Fld := ⟨A.LC_FAULT c, 8, 8⟩
/-- BAR0 offset of LC.CORE[c].FAULT_PC (R295). -/
def A.LC_FAULT_PC (c : Nat) : Nat := 0x240008 + c * 0x400
/-- LC.CORE[c].FAULT_PC.addr, bits [15:0]. -/
def F.LC_FAULT_PC_addr (c : Nat) : Fld := ⟨A.LC_FAULT_PC c, 0, 16⟩
/-- BAR0 offset of LC.CORE[c].FCNT (R295). -/
def A.LC_FCNT (c : Nat) : Nat := 0x24000c + c * 0x400
/-- LC.CORE[c].FCNT.faults, bits [15:0]. -/
def F.LC_FCNT_faults (c : Nat) : Fld := ⟨A.LC_FCNT c, 0, 16⟩
/-- LC.CORE[c].FCNT.ecc_corr, bits [31:16]. -/
def F.LC_FCNT_ecc_corr (c : Nat) : Fld := ⟨A.LC_FCNT c, 16, 16⟩
/-- BAR0 offset of LC.CORE[c].ISSUED (R295). -/
def A.LC_ISSUED (c : Nat) : Nat := 0x240010 + c * 0x400
/-- LC.CORE[c].ISSUED.count, bits [31:0]. -/
def F.LC_ISSUED_count (c : Nat) : Fld := ⟨A.LC_ISSUED c, 0, 32⟩
/-- BAR0 offset of LC.CORE[c].STALLED (R295). -/
def A.LC_STALLED (c : Nat) : Nat := 0x240014 + c * 0x400
/-- LC.CORE[c].STALLED.count, bits [31:0]. -/
def F.LC_STALLED_count (c : Nat) : Fld := ⟨A.LC_STALLED c, 0, 32⟩
/-- BAR0 offset of LC.CORE[c].DBG (R295). -/
def A.LC_DBG (c : Nat) : Nat := 0x240018 + c * 0x400
/-- LC.CORE[c].DBG.halt, bits [0:0]. -/
def F.LC_DBG_halt (c : Nat) : Fld := ⟨A.LC_DBG c, 0, 1⟩
/-- LC.CORE[c].DBG.resume, bits [1:1]. -/
def F.LC_DBG_resume (c : Nat) : Fld := ⟨A.LC_DBG c, 1, 1⟩
/-- LC.CORE[c].DBG.step, bits [2:2]. -/
def F.LC_DBG_step (c : Nat) : Fld := ⟨A.LC_DBG c, 2, 1⟩
/-- LC.CORE[c].DBG.bkpt_en, bits [3:3]. -/
def F.LC_DBG_bkpt_en (c : Nat) : Fld := ⟨A.LC_DBG c, 3, 1⟩
/-- BAR0 offset of LC.CORE[c].CLR (R295). -/
def A.LC_CLR (c : Nat) : Nat := 0x24001c + c * 0x400
/-- LC.CORE[c].CLR.clr, bits [0:0]. -/
def F.LC_CLR_clr (c : Nat) : Fld := ⟨A.LC_CLR c, 0, 1⟩
/-- BAR0 offset of LC.CORE[c].DREG (R295). -/
def A.LC_DREG (c : Nat) (k : Nat) : Nat := 0x240200 + c * 0x400 + k * 0x4
/-- LC.CORE[c].DREG.word, bits [31:0]. -/
def F.LC_DREG_word (c : Nat) (k : Nat) : Fld := ⟨A.LC_DREG c k, 0, 32⟩
/-- BAR0 offset of LC.RHALT (R295). -/
def A.LCR_RHALT : Nat := 0x248000
/-- LC.RHALT.halt, bits [0:0]. -/
def F.LCR_RHALT_halt : Fld := ⟨A.LCR_RHALT, 0, 1⟩
/-- LC.RHALT.resume, bits [1:1]. -/
def F.LCR_RHALT_resume : Fld := ⟨A.LCR_RHALT, 1, 1⟩
/-- LC.RHALT.halted, bits [2:2]. -/
def F.LCR_RHALT_halted : Fld := ⟨A.LCR_RHALT, 2, 1⟩
/-- BAR0 offset of SAF.STATUS (R339). -/
def A.SAF_STATUS : Nat := 0x280000
/-- SAF.STATUS.image_ok, bits [0:0]. -/
def F.SAF_STATUS_image_ok : Fld := ⟨A.SAF_STATUS, 0, 1⟩
/-- SAF.STATUS.running, bits [1:1]. -/
def F.SAF_STATUS_running : Fld := ⟨A.SAF_STATUS, 1, 1⟩
/-- SAF.STATUS.sep, bits [2:2]. -/
def F.SAF_STATUS_sep : Fld := ⟨A.SAF_STATUS, 2, 1⟩
/-- SAF.STATUS.fault, bits [3:3]. -/
def F.SAF_STATUS_fault : Fld := ⟨A.SAF_STATUS, 3, 1⟩
/-- SAF.STATUS.fault_cause, bits [7:4]. -/
def F.SAF_STATUS_fault_cause : Fld := ⟨A.SAF_STATUS, 4, 4⟩
/-- BAR0 offset of SAF.IMG_REV (R339). -/
def A.SAF_IMG_REV : Nat := 0x280004
/-- SAF.IMG_REV.rev, bits [31:0]. -/
def F.SAF_IMG_REV_rev : Fld := ⟨A.SAF_IMG_REV, 0, 32⟩
/-- BAR0 offset of SAF.IMG_DIGEST (R339). -/
def A.SAF_IMG_DIGEST (k : Nat) : Nat := 0x280010 + k * 0x4
/-- SAF.IMG_DIGEST.digest, bits [31:0]. -/
def F.SAF_IMG_DIGEST_digest (k : Nat) : Fld := ⟨A.SAF_IMG_DIGEST k, 0, 32⟩
/-- BAR0 offset of SAF.CYCLES (R339). -/
def A.SAF_CYCLES : Nat := 0x280030
/-- SAF.CYCLES.count, bits [31:0]. -/
def F.SAF_CYCLES_count : Fld := ⟨A.SAF_CYCLES, 0, 32⟩
/-- BAR0 offset of SAF.TIMING (R339). -/
def A.SAF_TIMING : Nat := 0x280034
/-- SAF.TIMING.last, bits [15:0]. -/
def F.SAF_TIMING_last : Fld := ⟨A.SAF_TIMING, 0, 16⟩
/-- SAF.TIMING.max, bits [31:16]. -/
def F.SAF_TIMING_max : Fld := ⟨A.SAF_TIMING, 16, 16⟩
/-- BAR0 offset of SAF.DISAGREE (R339). -/
def A.SAF_DISAGREE : Nat := 0x280038
/-- SAF.DISAGREE.count, bits [15:0]. -/
def F.SAF_DISAGREE_count : Fld := ⟨A.SAF_DISAGREE, 0, 16⟩
/-- SAF.DISAGREE.pair, bits [31:16]. -/
def F.SAF_DISAGREE_pair : Fld := ⟨A.SAF_DISAGREE, 16, 16⟩
/-- BAR0 offset of SAF.VIOL (R339). -/
def A.SAF_VIOL : Nat := 0x28003c
/-- SAF.VIOL.last, bits [15:0]. -/
def F.SAF_VIOL_last : Fld := ⟨A.SAF_VIOL, 0, 16⟩
/-- SAF.VIOL.max, bits [31:16]. -/
def F.SAF_VIOL_max : Fld := ⟨A.SAF_VIOL, 16, 16⟩
/-- BAR0 offset of SAF.G[g].FACTOR (R339). -/
def A.SG_FACTOR (g : Nat) : Nat := 0x280100 + g * 0x20
/-- SAF.G[g].FACTOR.f, bits [10:0]. -/
def F.SG_FACTOR_f (g : Nat) : Fld := ⟨A.SG_FACTOR g, 0, 11⟩
/-- SAF.G[g].FACTOR.pair, bits [31:16]. -/
def F.SG_FACTOR_pair (g : Nat) : Fld := ⟨A.SG_FACTOR g, 16, 16⟩
/-- BAR0 offset of SAF.G[g].STAT (R339). -/
def A.SG_STAT (g : Nat) : Nat := 0x280104 + g * 0x20
/-- SAF.G[g].STAT.pstop, bits [0:0]. -/
def F.SG_STAT_pstop (g : Nat) : Fld := ⟨A.SG_STAT g, 0, 1⟩
/-- SAF.G[g].STAT.sto, bits [1:1]. -/
def F.SG_STAT_sto (g : Nat) : Fld := ⟨A.SG_STAT g, 1, 1⟩
/-- SAF.G[g].STAT.still, bits [2:2]. -/
def F.SG_STAT_still (g : Nat) : Fld := ⟨A.SG_STAT g, 2, 1⟩
/-- SAF.G[g].STAT.uncertain, bits [3:3]. -/
def F.SG_STAT_uncertain (g : Nat) : Fld := ⟨A.SG_STAT g, 3, 1⟩
/-- SAF.G[g].STAT.scalable, bits [4:4]. -/
def F.SG_STAT_scalable (g : Nat) : Fld := ⟨A.SG_STAT g, 4, 1⟩
/-- SAF.G[g].STAT.cause, bits [11:8]. -/
def F.SG_STAT_cause (g : Nat) : Fld := ⟨A.SG_STAT g, 8, 4⟩
/-- BAR0 offset of SAF.G[g].TCP (R339). -/
def A.SG_TCP (g : Nat) : Nat := 0x280108 + g * 0x20
/-- SAF.G[g].TCP.speed, bits [15:0]. -/
def F.SG_TCP_speed (g : Nat) : Fld := ⟨A.SG_TCP g, 0, 16⟩
/-- SAF.G[g].TCP.max, bits [31:16]. -/
def F.SG_TCP_max (g : Nat) : Fld := ⟨A.SG_TCP g, 16, 16⟩
/-- BAR0 offset of SAF.G[g].VCAP (R339). -/
def A.SG_VCAP (g : Nat) : Nat := 0x28010c + g * 0x20
/-- SAF.G[g].VCAP.speed, bits [15:0]. -/
def F.SG_VCAP_speed (g : Nat) : Fld := ⟨A.SG_VCAP g, 0, 16⟩
/-- BAR0 offset of SAF.G[g].CNT (R339). -/
def A.SG_CNT (g : Nat) : Nat := 0x280110 + g * 0x20
/-- SAF.G[g].CNT.pstops, bits [15:0]. -/
def F.SG_CNT_pstops (g : Nat) : Fld := ⟨A.SG_CNT g, 0, 16⟩
/-- SAF.G[g].CNT.stos, bits [31:16]. -/
def F.SG_CNT_stos (g : Nat) : Fld := ⟨A.SG_CNT g, 16, 16⟩
/-- BAR0 offset of SAF.STO (R339). -/
def A.SAF_STO : Nat := 0x280200
/-- SAF.STO.a, bits [7:0]. -/
def F.SAF_STO_a : Fld := ⟨A.SAF_STO, 0, 8⟩
/-- SAF.STO.b, bits [15:8]. -/
def F.SAF_STO_b : Fld := ⟨A.SAF_STO, 8, 8⟩
/-- SAF.STO.fault, bits [23:16]. -/
def F.SAF_STO_fault : Fld := ⟨A.SAF_STO, 16, 8⟩
/-- BAR0 offset of SAF.SIN (R339). -/
def A.SAF_SIN : Nat := 0x280204
/-- SAF.SIN.ok, bits [15:0]. -/
def F.SAF_SIN_ok : Fld := ⟨A.SAF_SIN, 0, 16⟩
/-- SAF.SIN.fault, bits [31:16]. -/
def F.SAF_SIN_fault : Fld := ⟨A.SAF_SIN, 16, 16⟩
/-- BAR0 offset of SAF.BRK (R339). -/
def A.SAF_BRK : Nat := 0x280210
/-- BAR0 offset of SAF.BRKF (R339). -/
def A.SAF_BRKF : Nat := 0x280218
/-- BAR0 offset of SAF.PITCH[k].W (R339). -/
def A.SPITCH_W (k : Nat) : Nat := 0x280300 + k * 0x4
/-- SAF.PITCH[k].W.group, bits [2:0]. -/
def F.SPITCH_W_group (k : Nat) : Fld := ⟨A.SPITCH_W k, 0, 3⟩
/-- SAF.PITCH[k].W.held, bits [3:3]. -/
def F.SPITCH_W_held (k : Nat) : Fld := ⟨A.SPITCH_W k, 3, 1⟩
/-- SAF.PITCH[k].W.requested, bits [4:4]. -/
def F.SPITCH_W_requested (k : Nat) : Fld := ⟨A.SPITCH_W k, 4, 1⟩
/-- SAF.PITCH[k].W.node, bits [27:16]. -/
def F.SPITCH_W_node (k : Nat) : Fld := ⟨A.SPITCH_W k, 16, 12⟩
/-- BAR0 offset of SAF.CONN[c].STAT (R339). -/
def A.SCONN_STAT (c : Nat) : Nat := 0x280400 + c * 0x10
/-- SAF.CONN[c].STAT.state, bits [1:0]. -/
def F.SCONN_STAT_state (c : Nat) : Fld := ⟨A.SCONN_STAT c, 0, 2⟩
/-- SAF.CONN[c].STAT.lost_cnt, bits [31:16]. -/
def F.SCONN_STAT_lost_cnt (c : Nat) : Fld := ⟨A.SCONN_STAT c, 16, 16⟩
/-- BAR0 offset of SAF.CONN[c].FRAMES (R339). -/
def A.SCONN_FRAMES (c : Nat) : Nat := 0x280404 + c * 0x10
/-- SAF.CONN[c].FRAMES.good, bits [15:0]. -/
def F.SCONN_FRAMES_good (c : Nat) : Fld := ⟨A.SCONN_FRAMES c, 0, 16⟩
/-- SAF.CONN[c].FRAMES.bad, bits [31:16]. -/
def F.SCONN_FRAMES_bad (c : Nat) : Fld := ⟨A.SCONN_FRAMES c, 16, 16⟩
/-- BAR0 offset of SAF.CONN[c].AGE (R339). -/
def A.SCONN_AGE (c : Nat) : Nat := 0x280408 + c * 0x10
/-- SAF.CONN[c].AGE.age, bits [15:0]. -/
def F.SCONN_AGE_age (c : Nat) : Fld := ⟨A.SCONN_AGE c, 0, 16⟩
/-- BAR0 offset of SAF.VLIST[i].W (R339). -/
def A.SVLIST_W (i : Nat) : Nat := 0x280500 + i * 0x4
/-- SAF.VLIST[i].W.pair, bits [13:0]. -/
def F.SVLIST_W_pair (i : Nat) : Fld := ⟨A.SVLIST_W i, 0, 14⟩
/-- SAF.VLIST[i].W.valid, bits [14:14]. -/
def F.SVLIST_W_valid (i : Nat) : Fld := ⟨A.SVLIST_W i, 14, 1⟩
/-- SAF.VLIST[i].W.by_g1, bits [15:15]. -/
def F.SVLIST_W_by_g1 (i : Nat) : Fld := ⟨A.SVLIST_W i, 15, 1⟩
/-- SAF.VLIST[i].W.by_g2, bits [16:16]. -/
def F.SVLIST_W_by_g2 (i : Nat) : Fld := ⟨A.SVLIST_W i, 16, 1⟩
/-- BAR0 offset of LNK.CFG (R372). -/
def A.LNK_CFG : Nat := 0x2c0000
/-- LNK.CFG.node, bits [11:0]. -/
def F.LNK_CFG_node : Fld := ⟨A.LNK_CFG, 0, 12⟩
/-- LNK.CFG.ena_a, bits [12:12]. -/
def F.LNK_CFG_ena_a : Fld := ⟨A.LNK_CFG, 12, 1⟩
/-- LNK.CFG.ena_b, bits [13:13]. -/
def F.LNK_CFG_ena_b : Fld := ⟨A.LNK_CFG, 13, 1⟩
/-- LNK.CFG.branch, bits [14:14]. -/
def F.LNK_CFG_branch : Fld := ⟨A.LNK_CFG, 14, 1⟩
/-- LNK.CFG.cs_en, bits [15:15]. -/
def F.LNK_CFG_cs_en : Fld := ⟨A.LNK_CFG, 15, 1⟩
/-- BAR0 offset of LNK.CYCLE (R372). -/
def A.LNK_CYCLE : Nat := 0x2c0004
/-- LNK.CYCLE.n, bits [3:0]. -/
def F.LNK_CYCLE_n : Fld := ⟨A.LNK_CYCLE, 0, 4⟩
/-- BAR0 offset of LNK.SCHED_ID (R372). -/
def A.LNK_SCHED_ID : Nat := 0x2c0008
/-- LNK.SCHED_ID.id, bits [15:0]. -/
def F.LNK_SCHED_ID_id : Fld := ⟨A.LNK_SCHED_ID, 0, 16⟩
/-- BAR0 offset of LNK.TIMING (R372). -/
def A.LNK_TIMING : Nat := 0x2c000c
/-- LNK.TIMING.eave, bits [9:0]. -/
def F.LNK_TIMING_eave : Fld := ⟨A.LNK_TIMING, 0, 10⟩
/-- LNK.TIMING.prec, bits [25:16]. -/
def F.LNK_TIMING_prec : Fld := ⟨A.LNK_TIMING, 16, 10⟩
/-- BAR0 offset of LNK.LEAD (R372). -/
def A.LNK_LEAD : Nat := 0x2c0010
/-- LNK.LEAD.lead, bits [6:0]. -/
def F.LNK_LEAD_lead : Fld := ⟨A.LNK_LEAD, 0, 7⟩
/-- BAR0 offset of LNK.SYNC (R372). -/
def A.LNK_SYNC : Nat := 0x2c0014
/-- LNK.SYNC.k, bits [1:0]. -/
def F.LNK_SYNC_k : Fld := ⟨A.LNK_SYNC, 0, 2⟩
/-- LNK.SYNC.min, bits [7:4]. -/
def F.LNK_SYNC_min : Fld := ⟨A.LNK_SYNC, 4, 4⟩
/-- LNK.SYNC.integ, bits [11:8]. -/
def F.LNK_SYNC_integ : Fld := ⟨A.LNK_SYNC, 8, 4⟩
/-- LNK.SYNC.lose, bits [15:12]. -/
def F.LNK_SYNC_lose : Fld := ⟨A.LNK_SYNC, 12, 4⟩
/-- LNK.SYNC.climit, bits [31:16]. -/
def F.LNK_SYNC_climit : Fld := ⟨A.LNK_SYNC, 16, 16⟩
/-- BAR0 offset of LNK.RLIMIT (R372). -/
def A.LNK_RLIMIT : Nat := 0x2c0018
/-- LNK.RLIMIT.ppm, bits [7:0]. -/
def F.LNK_RLIMIT_ppm : Fld := ⟨A.LNK_RLIMIT, 0, 8⟩
/-- BAR0 offset of LNK.CS (R372). -/
def A.LNK_CS : Nat := 0x2c001c
/-- LNK.CS.listen, bits [3:0]. -/
def F.LNK_CS_listen : Fld := ⟨A.LNK_CS, 0, 4⟩
/-- LNK.CS.rounds, bits [7:4]. -/
def F.LNK_CS_rounds : Fld := ⟨A.LNK_CS, 4, 4⟩
/-- LNK.CS.step, bits [31:16]. -/
def F.LNK_CS_step : Fld := ⟨A.LNK_CS, 16, 16⟩
/-- BAR0 offset of LNK.STATE (R372). -/
def A.LNK_STATE : Nat := 0x2c0020
/-- LNK.STATE.state, bits [2:0]. -/
def F.LNK_STATE_state : Fld := ⟨A.LNK_STATE, 0, 3⟩
/-- LNK.STATE.nvals, bits [7:4]. -/
def F.LNK_STATE_nvals : Fld := ⟨A.LNK_STATE, 4, 4⟩
/-- BAR0 offset of LNK.CNT (R372). -/
def A.LNK_CNT : Nat := 0x2c0028
/-- LNK.CNT.mutes, bits [15:0]. -/
def F.LNK_CNT_mutes : Fld := ⟨A.LNK_CNT, 0, 16⟩
/-- LNK.CNT.collisions, bits [31:16]. -/
def F.LNK_CNT_collisions : Fld := ⟨A.LNK_CNT, 16, 16⟩
/-- BAR0 offset of LNK.CNT2 (R372). -/
def A.LNK_CNT2 : Nat := 0x2c002c
/-- LNK.CNT2.coldstarts, bits [15:0]. -/
def F.LNK_CNT2_coldstarts : Fld := ⟨A.LNK_CNT2, 0, 16⟩
/-- LNK.CNT2.own_cnt, bits [31:16]. -/
def F.LNK_CNT2_own_cnt : Fld := ⟨A.LNK_CNT2, 16, 16⟩
/-- BAR0 offset of LNK.CLR (R372). -/
def A.LNK_CLR : Nat := 0x2c0030
/-- LNK.CLR.clr, bits [0:0]. -/
def F.LNK_CLR_clr : Fld := ⟨A.LNK_CLR, 0, 1⟩
/-- BAR0 offset of LNK.CYCNUM (R372). -/
def A.LNK_CYCNUM : Nat := 0x2c0038
/-- BAR0 offset of LNK.CH[ch].CFG (R372). -/
def A.CH_CFG (ch : Nat) : Nat := 0x2c0100 + ch * 0x100
/-- LNK.CH[ch].CFG.ring, bits [0:0]. -/
def F.CH_CFG_ring (ch : Nat) : Fld := ⟨A.CH_CFG ch, 0, 1⟩
/-- LNK.CH[ch].CFG.brk, bits [1:1]. -/
def F.CH_CFG_brk (ch : Nat) : Fld := ⟨A.CH_CFG ch, 1, 1⟩
/-- BAR0 offset of LNK.CH[ch].SCHED_N (R372). -/
def A.CH_SCHED_N (ch : Nat) : Nat := 0x2c0104 + ch * 0x100
/-- LNK.CH[ch].SCHED_N.count, bits [12:0]. -/
def F.CH_SCHED_N_count (ch : Nat) : Fld := ⟨A.CH_SCHED_N ch, 0, 13⟩
/-- BAR0 offset of LNK.CH[ch].CTL (R372). -/
def A.CH_CTL (ch : Nat) : Nat := 0x2c0108 + ch * 0x100
/-- LNK.CH[ch].CTL.commit, bits [0:0]. -/
def F.CH_CTL_commit (ch : Nat) : Fld := ⟨A.CH_CTL ch, 0, 1⟩
/-- LNK.CH[ch].CTL.reopen, bits [1:1]. -/
def F.CH_CTL_reopen (ch : Nat) : Fld := ⟨A.CH_CTL ch, 1, 1⟩
/-- BAR0 offset of LNK.CH[ch].STAT (R372). -/
def A.CH_STAT (ch : Nat) : Nat := 0x2c010c + ch * 0x100
/-- LNK.CH[ch].STAT.sched_ok, bits [0:0]. -/
def F.CH_STAT_sched_ok (ch : Nat) : Fld := ⟨A.CH_STAT ch, 0, 1⟩
/-- LNK.CH[ch].STAT.closed, bits [1:1]. -/
def F.CH_STAT_closed (ch : Nat) : Fld := ⟨A.CH_STAT ch, 1, 1⟩
/-- LNK.CH[ch].STAT.sched_err, bits [27:16]. -/
def F.CH_STAT_sched_err (ch : Nat) : Fld := ⟨A.CH_STAT ch, 16, 12⟩
/-- LNK.CH[ch].STAT.err_kind, bits [31:28]. -/
def F.CH_STAT_err_kind (ch : Nat) : Fld := ⟨A.CH_STAT ch, 28, 4⟩
/-- BAR0 offset of LNK.CH[ch].CNT_WIN (R372). -/
def A.CH_CNT_WIN (ch : Nat) : Nat := 0x2c0110 + ch * 0x100
/-- LNK.CH[ch].CNT_WIN.window, bits [15:0]. -/
def F.CH_CNT_WIN_window (ch : Nat) : Fld := ⟨A.CH_CNT_WIN ch, 0, 16⟩
/-- LNK.CH[ch].CNT_WIN.ident, bits [31:16]. -/
def F.CH_CNT_WIN_ident (ch : Nat) : Fld := ⟨A.CH_CNT_WIN ch, 16, 16⟩
/-- BAR0 offset of LNK.CH[ch].CNT_RX (R372). -/
def A.CH_CNT_RX (ch : Nat) : Nat := 0x2c0114 + ch * 0x100
/-- LNK.CH[ch].CNT_RX.nulls, bits [15:0]. -/
def F.CH_CNT_RX_nulls (ch : Nat) : Fld := ⟨A.CH_CNT_RX ch, 0, 16⟩
/-- LNK.CH[ch].CNT_RX.missing, bits [31:16]. -/
def F.CH_CNT_RX_missing (ch : Nat) : Fld := ⟨A.CH_CNT_RX ch, 16, 16⟩
/-- BAR0 offset of LNK.CH[ch].CNT_TX (R372). -/
def A.CH_CNT_TX (ch : Nat) : Nat := 0x2c0118 + ch * 0x100
/-- LNK.CH[ch].CNT_TX.notready, bits [15:0]. -/
def F.CH_CNT_TX_notready (ch : Nat) : Fld := ⟨A.CH_CNT_TX ch, 0, 16⟩
/-- LNK.CH[ch].CNT_TX.trunc, bits [31:16]. -/
def F.CH_CNT_TX_trunc (ch : Nat) : Fld := ⟨A.CH_CNT_TX ch, 16, 16⟩
/-- BAR0 offset of LNK.CH[ch].CNT_DUP (R372). -/
def A.CH_CNT_DUP (ch : Nat) : Nat := 0x2c011c + ch * 0x100
/-- LNK.CH[ch].CNT_DUP.dup, bits [15:0]. -/
def F.CH_CNT_DUP_dup (ch : Nat) : Fld := ⟨A.CH_CNT_DUP ch, 0, 16⟩
/-- LNK.CH[ch].CNT_DUP.crc, bits [31:16]. -/
def F.CH_CNT_DUP_crc (ch : Nat) : Fld := ⟨A.CH_CNT_DUP ch, 16, 16⟩
/-- BAR0 offset of LNK.CH[ch].CLR (R372). -/
def A.CH_CLR (ch : Nat) : Nat := 0x2c0120 + ch * 0x100
/-- LNK.CH[ch].CLR.clr, bits [0:0]. -/
def F.CH_CLR_clr (ch : Nat) : Fld := ⟨A.CH_CLR ch, 0, 1⟩
/-- BAR0 offset of LNK.PORT[ch][p].STAT (R372). -/
def A.PORT_STAT (ch : Nat) (p : Nat) : Nat := 0x2c0180 + ch * 0x100 + p * 0x20
/-- LNK.PORT[ch][p].STAT.up, bits [0:0]. -/
def F.PORT_STAT_up (ch : Nat) (p : Nat) : Fld := ⟨A.PORT_STAT ch p, 0, 1⟩
/-- LNK.PORT[ch][p].STAT.probe_ok, bits [1:1]. -/
def F.PORT_STAT_probe_ok (ch : Nat) (p : Nat) : Fld := ⟨A.PORT_STAT ch p, 1, 1⟩
/-- BAR0 offset of LNK.PORT[ch][p].DELAY (R372). -/
def A.PORT_DELAY (ch : Nat) (p : Nat) : Nat := 0x2c0184 + ch * 0x100 + p * 0x20
/-- LNK.PORT[ch][p].DELAY.d, bits [19:0]. -/
def F.PORT_DELAY_d (ch : Nat) (p : Nat) : Fld := ⟨A.PORT_DELAY ch p, 0, 20⟩
/-- BAR0 offset of LNK.PORT[ch][p].ERR (R372). -/
def A.PORT_ERR (ch : Nat) (p : Nat) : Nat := 0x2c0188 + ch * 0x100 + p * 0x20
/-- LNK.PORT[ch][p].ERR.code, bits [15:0]. -/
def F.PORT_ERR_code (ch : Nat) (p : Nat) : Fld := ⟨A.PORT_ERR ch p, 0, 16⟩
/-- LNK.PORT[ch][p].ERR.hdr, bits [31:16]. -/
def F.PORT_ERR_hdr (ch : Nat) (p : Nat) : Fld := ⟨A.PORT_ERR ch p, 16, 16⟩
/-- BAR0 offset of LNK.PORT[ch][p].DOWN (R372). -/
def A.PORT_DOWN (ch : Nat) (p : Nat) : Nat := 0x2c018c + ch * 0x100 + p * 0x20
/-- LNK.PORT[ch][p].DOWN.downs, bits [15:0]. -/
def F.PORT_DOWN_downs (ch : Nat) (p : Nat) : Fld := ⟨A.PORT_DOWN ch p, 0, 16⟩
/-- BAR0 offset of LNK.PORT[ch][p].LAT (R372). -/
def A.PORT_LAT (ch : Nat) (p : Nat) : Nat := 0x2c0190 + ch * 0x100 + p * 0x20
/-- LNK.PORT[ch][p].LAT.lat, bits [11:0]. -/
def F.PORT_LAT_lat (ch : Nat) (p : Nat) : Fld := ⟨A.PORT_LAT ch p, 0, 12⟩
/-- BAR0 offset of LNK.MAP[i].POINT (R372). -/
def A.MAP_POINT (i : Nat) : Nat := 0x2d0000 + i * 0x8
/-- LNK.MAP[i].POINT.point, bits [16:0]. -/
def F.MAP_POINT_point (i : Nat) : Fld := ⟨A.MAP_POINT i, 0, 17⟩
/-- BAR0 offset of LNK.MAP[i].RANGE (R372). -/
def A.MAP_RANGE (i : Nat) : Nat := 0x2d0004 + i * 0x8
/-- LNK.MAP[i].RANGE.offset, bits [5:0]. -/
def F.MAP_RANGE_offset (i : Nat) : Fld := ⟨A.MAP_RANGE i, 0, 6⟩
/-- LNK.MAP[i].RANGE.len, bits [14:8]. -/
def F.MAP_RANGE_len (i : Nat) : Fld := ⟨A.MAP_RANGE i, 8, 7⟩
/-- BAR0 offset of LNK.SCHED[ch][n].START (R352). -/
def A.SCHED_START (ch : Nat) (n : Nat) : Nat := 0x2e0000 + ch * 0x10000 + n * 0x10
/-- LNK.SCHED[ch][n].START.start, bits [21:0]. -/
def F.SCHED_START_start (ch : Nat) (n : Nat) : Fld := ⟨A.SCHED_START ch n, 0, 22⟩
/-- BAR0 offset of LNK.SCHED[ch][n].LEN (R352). -/
def A.SCHED_LEN (ch : Nat) (n : Nat) : Nat := 0x2e0004 + ch * 0x10000 + n * 0x10
/-- LNK.SCHED[ch][n].LEN.length, bits [15:0]. -/
def F.SCHED_LEN_length (ch : Nat) (n : Nat) : Fld := ⟨A.SCHED_LEN ch n, 0, 16⟩
/-- LNK.SCHED[ch][n].LEN.sender, bits [27:16]. -/
def F.SCHED_LEN_sender (ch : Nat) (n : Nat) : Fld := ⟨A.SCHED_LEN ch n, 16, 12⟩
/-- BAR0 offset of LNK.SCHED[ch][n].KIND (R352). -/
def A.SCHED_KIND (ch : Nat) (n : Nat) : Nat := 0x2e0008 + ch * 0x10000 + n * 0x10
/-- LNK.SCHED[ch][n].KIND.type, bits [2:0]. -/
def F.SCHED_KIND_type (ch : Nat) (n : Nat) : Fld := ⟨A.SCHED_KIND ch n, 0, 3⟩
/-- LNK.SCHED[ch][n].KIND.rx, bits [4:4]. -/
def F.SCHED_KIND_rx (ch : Nat) (n : Nat) : Fld := ⟨A.SCHED_KIND ch n, 4, 1⟩
/-- LNK.SCHED[ch][n].KIND.fresh, bits [5:5]. -/
def F.SCHED_KIND_fresh (ch : Nat) (n : Nat) : Fld := ⟨A.SCHED_KIND ch n, 5, 1⟩
/-- LNK.SCHED[ch][n].KIND.token, bits [6:6]. -/
def F.SCHED_KIND_token (ch : Nat) (n : Nat) : Fld := ⟨A.SCHED_KIND ch n, 6, 1⟩
/-- LNK.SCHED[ch][n].KIND.plen, bits [14:8]. -/
def F.SCHED_KIND_plen (ch : Nat) (n : Nat) : Fld := ⟨A.SCHED_KIND ch n, 8, 7⟩
/-- LNK.SCHED[ch][n].KIND.mcount, bits [21:16]. -/
def F.SCHED_KIND_mcount (ch : Nat) (n : Nat) : Fld := ⟨A.SCHED_KIND ch n, 16, 6⟩
/-- BAR0 offset of LNK.SCHED[ch][n].MAP (R352). -/
def A.SCHED_MAP (ch : Nat) (n : Nat) : Nat := 0x2e000c + ch * 0x10000 + n * 0x10
/-- LNK.SCHED[ch][n].MAP.mfirst, bits [12:0]. -/
def F.SCHED_MAP_mfirst (ch : Nat) (n : Nat) : Fld := ⟨A.SCHED_MAP ch n, 0, 13⟩
/-- LNK.SCHED[ch][n].MAP.stall, bits [23:16]. -/
def F.SCHED_MAP_stall (ch : Nat) (n : Nat) : Fld := ⟨A.SCHED_MAP ch n, 16, 8⟩
/-- LNK.SCHED[ch][n].MAP.slot, bits [26:24]. -/
def F.SCHED_MAP_slot (ch : Nat) (n : Nat) : Fld := ⟨A.SCHED_MAP ch n, 24, 3⟩
/-- BAR0 offset of TWN.CFG (R392). -/
def A.TWN_CFG : Nat := 0x300000
/-- TWN.CFG.enable, bits [0:0]. -/
def F.TWN_CFG_enable : Fld := ⟨A.TWN_CFG, 0, 1⟩
/-- TWN.CFG.prefer, bits [1:1]. -/
def F.TWN_CFG_prefer : Fld := ⟨A.TWN_CFG, 1, 1⟩
/-- TWN.CFG.loss, bits [11:8]. -/
def F.TWN_CFG_loss : Fld := ⟨A.TWN_CFG, 8, 4⟩
/-- TWN.CFG.resync, bits [15:12]. -/
def F.TWN_CFG_resync : Fld := ⟨A.TWN_CFG, 12, 4⟩
/-- TWN.CFG.peer, bits [27:16]. -/
def F.TWN_CFG_peer : Fld := ⟨A.TWN_CFG, 16, 12⟩
/-- BAR0 offset of TWN.BAT (R392). -/
def A.TWN_BAT : Nat := 0x300004
/-- TWN.BAT.own_mir, bits [11:0]. -/
def F.TWN_BAT_own_mir : Fld := ⟨A.TWN_BAT, 0, 12⟩
/-- TWN.BAT.peer_mir, bits [27:16]. -/
def F.TWN_BAT_peer_mir : Fld := ⟨A.TWN_BAT, 16, 12⟩
/-- BAR0 offset of TWN.BAT2 (R392). -/
def A.TWN_BAT2 : Nat := 0x300008
/-- TWN.BAT2.own_conf, bits [11:0]. -/
def F.TWN_BAT2_own_conf : Fld := ⟨A.TWN_BAT2, 0, 12⟩
/-- TWN.BAT2.peer_conf, bits [27:16]. -/
def F.TWN_BAT2_peer_conf : Fld := ⟨A.TWN_BAT2, 16, 12⟩
/-- BAR0 offset of TWN.TOL (R392). -/
def A.TWN_TOL : Nat := 0x30000c
/-- TWN.TOL.tol, bits [31:0]. -/
def F.TWN_TOL_tol : Fld := ⟨A.TWN_TOL, 0, 32⟩
/-- BAR0 offset of TWN.STAT (R392). -/
def A.TWN_STAT : Nat := 0x300010
/-- TWN.STAT.role, bits [2:0]. -/
def F.TWN_STAT_role : Fld := ⟨A.TWN_STAT, 0, 3⟩
/-- TWN.STAT.act_in, bits [3:3]. -/
def F.TWN_STAT_act_in : Fld := ⟨A.TWN_STAT, 3, 1⟩
/-- TWN.STAT.act_out, bits [4:4]. -/
def F.TWN_STAT_act_out : Fld := ⟨A.TWN_STAT, 4, 1⟩
/-- TWN.STAT.bat_err, bits [5:5]. -/
def F.TWN_STAT_bat_err : Fld := ⟨A.TWN_STAT, 5, 1⟩
/-- TWN.STAT.mismatch, bits [11:8]. -/
def F.TWN_STAT_mismatch : Fld := ⟨A.TWN_STAT, 8, 4⟩
/-- TWN.STAT.slice, bits [21:16]. -/
def F.TWN_STAT_slice : Fld := ⟨A.TWN_STAT, 16, 6⟩
/-- BAR0 offset of TWN.HEALTH (R392). -/
def A.TWN_HEALTH : Nat := 0x300014
/-- TWN.HEALTH.word, bits [15:0]. -/
def F.TWN_HEALTH_word : Fld := ⟨A.TWN_HEALTH, 0, 16⟩
/-- BAR0 offset of TWN.PEER_HEALTH (R392). -/
def A.TWN_PEER_HEALTH : Nat := 0x300018
/-- TWN.PEER_HEALTH.word, bits [15:0]. -/
def F.TWN_PEER_HEALTH_word : Fld := ⟨A.TWN_PEER_HEALTH, 0, 16⟩
/-- BAR0 offset of TWN.CTL (R392). -/
def A.TWN_CTL : Nat := 0x30001c
/-- TWN.CTL.yield, bits [0:0]. -/
def F.TWN_CTL_yield : Fld := ⟨A.TWN_CTL, 0, 1⟩
/-- TWN.CTL.claim, bits [1:1]. -/
def F.TWN_CTL_claim : Fld := ⟨A.TWN_CTL, 1, 1⟩
/-- BAR0 offset of TWN.CNT (R392). -/
def A.TWN_CNT : Nat := 0x300020
/-- TWN.CNT.handovers, bits [15:0]. -/
def F.TWN_CNT_handovers : Fld := ⟨A.TWN_CNT, 0, 16⟩
/-- TWN.CNT.incomplete, bits [31:16]. -/
def F.TWN_CNT_incomplete : Fld := ⟨A.TWN_CNT, 16, 16⟩
/-- BAR0 offset of TWN.LAST (R392). -/
def A.TWN_LAST : Nat := 0x300024
/-- TWN.LAST.outcome, bits [2:0]. -/
def F.TWN_LAST_outcome : Fld := ⟨A.TWN_LAST, 0, 3⟩
/-- TWN.LAST.cause, bits [7:4]. -/
def F.TWN_LAST_cause : Fld := ⟨A.TWN_LAST, 4, 4⟩
/-- BAR0 offset of TWN.CLR (R392). -/
def A.TWN_CLR : Nat := 0x300028
/-- TWN.CLR.clr, bits [0:0]. -/
def F.TWN_CLR_clr : Fld := ⟨A.TWN_CLR, 0, 1⟩
/-- BAR0 offset of LDG.CFG (R425). -/
def A.LDG_CFG : Nat := 0x340000
/-- LDG.CFG.anchor_en, bits [0:0]. -/
def F.LDG_CFG_anchor_en : Fld := ⟨A.LDG_CFG, 0, 1⟩
/-- BAR0 offset of LDG.ANCHOR (R425). -/
def A.LDG_ANCHOR : Nat := 0x340008
/-- BAR0 offset of LDG.TAG (R425). -/
def A.LDG_TAG : Nat := 0x340010
/-- BAR0 offset of LDG.STAT (R425). -/
def A.LDG_STAT : Nat := 0x340018
/-- LDG.STAT.recovery, bits [1:0]. -/
def F.LDG_STAT_recovery : Fld := ⟨A.LDG_STAT, 0, 2⟩
/-- LDG.STAT.ready, bits [2:2]. -/
def F.LDG_STAT_ready : Fld := ⟨A.LDG_STAT, 2, 1⟩
/-- LDG.STAT.link, bits [3:3]. -/
def F.LDG_STAT_link : Fld := ⟨A.LDG_STAT, 3, 1⟩
/-- BAR0 offset of LDG.LIMIT (R425). -/
def A.LDG_LIMIT : Nat := 0x34001c
/-- LDG.LIMIT.stall, bits [15:0]. -/
def F.LDG_LIMIT_stall : Fld := ⟨A.LDG_LIMIT, 0, 16⟩
/-- BAR0 offset of LDG.CMD[n].BASE (R425). -/
def A.CMD_BASE (n : Nat) : Nat := 0x340100 + n * 0x20
/-- BAR0 offset of LDG.CMD[n].CFG (R425). -/
def A.CMD_CFG (n : Nat) : Nat := 0x340108 + n * 0x20
/-- LDG.CMD[n].CFG.enable, bits [0:0]. -/
def F.CMD_CFG_enable (n : Nat) : Fld := ⟨A.CMD_CFG n, 0, 1⟩
/-- LDG.CMD[n].CFG.size, bits [8:4]. -/
def F.CMD_CFG_size (n : Nat) : Fld := ⟨A.CMD_CFG n, 4, 5⟩
/-- LDG.CMD[n].CFG.cpl, bits [15:12]. -/
def F.CMD_CFG_cpl (n : Nat) : Fld := ⟨A.CMD_CFG n, 12, 4⟩
/-- LDG.CMD[n].CFG.window, bits [26:16]. -/
def F.CMD_CFG_window (n : Nat) : Fld := ⟨A.CMD_CFG n, 16, 11⟩
/-- BAR0 offset of LDG.CMD[n].CONSUMED (R425). -/
def A.CMD_CONSUMED (n : Nat) : Nat := 0x34010c + n * 0x20
/-- LDG.CMD[n].CONSUMED.count, bits [31:0]. -/
def F.CMD_CONSUMED_count (n : Nat) : Fld := ⟨A.CMD_CONSUMED n, 0, 32⟩
/-- BAR0 offset of LDG.CMD[n].SEQ_BASE (R425). -/
def A.CMD_SEQ_BASE (n : Nat) : Nat := 0x340110 + n * 0x20
/-- BAR0 offset of LDG.CMD[n].STAT (R425). -/
def A.CMD_STAT (n : Nat) : Nat := 0x340118 + n * 0x20
/-- LDG.CMD[n].STAT.db_err, bits [0:0]. -/
def F.CMD_STAT_db_err (n : Nat) : Fld := ⟨A.CMD_STAT n, 0, 1⟩
/-- LDG.CMD[n].STAT.fetch_err, bits [1:1]. -/
def F.CMD_STAT_fetch_err (n : Nat) : Fld := ⟨A.CMD_STAT n, 1, 1⟩
/-- LDG.CMD[n].STAT.waiting, bits [2:2]. -/
def F.CMD_STAT_waiting (n : Nat) : Fld := ⟨A.CMD_STAT n, 2, 1⟩
/-- LDG.CMD[n].STAT.outstanding, bits [26:16]. -/
def F.CMD_STAT_outstanding (n : Nat) : Fld := ⟨A.CMD_STAT n, 16, 11⟩
/-- BAR0 offset of LDG.CPL[m].BASE (R425). -/
def A.CPL_BASE (m : Nat) : Nat := 0x340300 + m * 0x20
/-- BAR0 offset of LDG.CPL[m].CFG (R425). -/
def A.CPL_CFG (m : Nat) : Nat := 0x340308 + m * 0x20
/-- LDG.CPL[m].CFG.enable, bits [0:0]. -/
def F.CPL_CFG_enable (m : Nat) : Fld := ⟨A.CPL_CFG m, 0, 1⟩
/-- LDG.CPL[m].CFG.size, bits [8:4]. -/
def F.CPL_CFG_size (m : Nat) : Fld := ⟨A.CPL_CFG m, 4, 5⟩
/-- LDG.CPL[m].CFG.count, bits [23:16]. -/
def F.CPL_CFG_count (m : Nat) : Fld := ⟨A.CPL_CFG m, 16, 8⟩
/-- BAR0 offset of LDG.CPL[m].MOD (R425). -/
def A.CPL_MOD (m : Nat) : Nat := 0x34030c + m * 0x20
/-- LDG.CPL[m].MOD.time, bits [9:0]. -/
def F.CPL_MOD_time (m : Nat) : Fld := ⟨A.CPL_MOD m, 0, 10⟩
/-- BAR0 offset of LDG.CPL[m].PRODUCED (R425). -/
def A.CPL_PRODUCED (m : Nat) : Nat := 0x340310 + m * 0x20
/-- LDG.CPL[m].PRODUCED.count, bits [31:0]. -/
def F.CPL_PRODUCED_count (m : Nat) : Fld := ⟨A.CPL_PRODUCED m, 0, 32⟩
/-- BAR0 offset of LDG.CPL[m].CONSUMED (R425). -/
def A.CPL_CONSUMED (m : Nat) : Nat := 0x340314 + m * 0x20
/-- LDG.CPL[m].CONSUMED.count, bits [31:0]. -/
def F.CPL_CONSUMED_count (m : Nat) : Fld := ⟨A.CPL_CONSUMED m, 0, 32⟩
/-- BAR0 offset of LDG.CPL[m].STAT (R425). -/
def A.CPL_STAT (m : Nat) : Nat := 0x340318 + m * 0x20
/-- LDG.CPL[m].STAT.full, bits [0:0]. -/
def F.CPL_STAT_full (m : Nat) : Fld := ⟨A.CPL_STAT m, 0, 1⟩
/-- LDG.CPL[m].STAT.db_err, bits [1:1]. -/
def F.CPL_STAT_db_err (m : Nat) : Fld := ⟨A.CPL_STAT m, 1, 1⟩
/-- LDG.CPL[m].STAT.full_cnt, bits [31:16]. -/
def F.CPL_STAT_full_cnt (m : Nat) : Fld := ⟨A.CPL_STAT m, 16, 16⟩
/-- BAR0 offset of LDG.TAL[k].BASE (R425). -/
def A.TAL_BASE (k : Nat) : Nat := 0x340500 + k * 0x20
/-- BAR0 offset of LDG.TAL[k].CFG (R425). -/
def A.TAL_CFG (k : Nat) : Nat := 0x340508 + k * 0x20
/-- LDG.TAL[k].CFG.enable, bits [0:0]. -/
def F.TAL_CFG_enable (k : Nat) : Fld := ⟨A.TAL_CFG k, 0, 1⟩
/-- LDG.TAL[k].CFG.size, bits [8:4]. -/
def F.TAL_CFG_size (k : Nat) : Fld := ⟨A.TAL_CFG k, 4, 5⟩
/-- LDG.TAL[k].CFG.count, bits [23:16]. -/
def F.TAL_CFG_count (k : Nat) : Fld := ⟨A.TAL_CFG k, 16, 8⟩
/-- BAR0 offset of LDG.TAL[k].MOD (R425). -/
def A.TAL_MOD (k : Nat) : Nat := 0x34050c + k * 0x20
/-- LDG.TAL[k].MOD.time, bits [9:0]. -/
def F.TAL_MOD_time (k : Nat) : Fld := ⟨A.TAL_MOD k, 0, 10⟩
/-- BAR0 offset of LDG.TAL[k].PRODUCED (R425). -/
def A.TAL_PRODUCED (k : Nat) : Nat := 0x340510 + k * 0x20
/-- LDG.TAL[k].PRODUCED.count, bits [31:0]. -/
def F.TAL_PRODUCED_count (k : Nat) : Fld := ⟨A.TAL_PRODUCED k, 0, 32⟩
/-- BAR0 offset of LDG.TAL[k].CONSUMED (R425). -/
def A.TAL_CONSUMED (k : Nat) : Nat := 0x340514 + k * 0x20
/-- LDG.TAL[k].CONSUMED.count, bits [31:0]. -/
def F.TAL_CONSUMED_count (k : Nat) : Fld := ⟨A.TAL_CONSUMED k, 0, 32⟩
/-- BAR0 offset of LDG.TAL[k].STAT (R425). -/
def A.TAL_STAT (k : Nat) : Nat := 0x340518 + k * 0x20
/-- LDG.TAL[k].STAT.full, bits [0:0]. -/
def F.TAL_STAT_full (k : Nat) : Fld := ⟨A.TAL_STAT k, 0, 1⟩
/-- LDG.TAL[k].STAT.db_err, bits [1:1]. -/
def F.TAL_STAT_db_err (k : Nat) : Fld := ⟨A.TAL_STAT k, 1, 1⟩
/-- LDG.TAL[k].STAT.full_cnt, bits [31:16]. -/
def F.TAL_STAT_full_cnt (k : Nat) : Fld := ⟨A.TAL_STAT k, 16, 16⟩
/-- BAR0 offset of MSIX[v].ADDR (R393). -/
def A.MSIX_ADDR (v : Nat) : Nat := 0x350000 + v * 0x10
/-- BAR0 offset of MSIX[v].DATA (R393). -/
def A.MSIX_DATA (v : Nat) : Nat := 0x350008 + v * 0x10
/-- MSIX[v].DATA.data, bits [31:0]. -/
def F.MSIX_DATA_data (v : Nat) : Fld := ⟨A.MSIX_DATA v, 0, 32⟩
/-- BAR0 offset of MSIX[v].CTRL (R393). -/
def A.MSIX_CTRL (v : Nat) : Nat := 0x35000c + v * 0x10
/-- MSIX[v].CTRL.mask, bits [0:0]. -/
def F.MSIX_CTRL_mask (v : Nat) : Fld := ⟨A.MSIX_CTRL v, 0, 1⟩
/-- BAR0 offset of MSIX.PBA (R393). -/
def A.PBA_PBA : Nat := 0x358000
/-- BAR0 offset of TLY.CFG (R444). -/
def A.TLY_CFG : Nat := 0x360000
/-- TLY.CFG.hiwater, bits [11:0]. -/
def F.TLY_CFG_hiwater : Fld := ⟨A.TLY_CFG, 0, 12⟩
/-- BAR0 offset of TLY.ROUTE (R444). -/
def A.TLY_ROUTE : Nat := 0x360004
/-- TLY.ROUTE.ledger1, bits [3:2]. -/
def F.TLY_ROUTE_ledger1 : Fld := ⟨A.TLY_ROUTE, 2, 2⟩
/-- TLY.ROUTE.ledger2, bits [5:4]. -/
def F.TLY_ROUTE_ledger2 : Fld := ⟨A.TLY_ROUTE, 4, 2⟩
/-- TLY.ROUTE.ledger3, bits [7:6]. -/
def F.TLY_ROUTE_ledger3 : Fld := ⟨A.TLY_ROUTE, 6, 2⟩
/-- TLY.ROUTE.ledger4, bits [9:8]. -/
def F.TLY_ROUTE_ledger4 : Fld := ⟨A.TLY_ROUTE, 8, 2⟩
/-- TLY.ROUTE.ledger5, bits [11:10]. -/
def F.TLY_ROUTE_ledger5 : Fld := ⟨A.TLY_ROUTE, 10, 2⟩
/-- TLY.ROUTE.ledger6, bits [13:12]. -/
def F.TLY_ROUTE_ledger6 : Fld := ⟨A.TLY_ROUTE, 12, 2⟩
/-- TLY.ROUTE.ledger7, bits [15:14]. -/
def F.TLY_ROUTE_ledger7 : Fld := ⟨A.TLY_ROUTE, 14, 2⟩
/-- TLY.ROUTE.ledger8, bits [17:16]. -/
def F.TLY_ROUTE_ledger8 : Fld := ⟨A.TLY_ROUTE, 16, 2⟩
/-- TLY.ROUTE.ledger9, bits [19:18]. -/
def F.TLY_ROUTE_ledger9 : Fld := ⟨A.TLY_ROUTE, 18, 2⟩
/-- TLY.ROUTE.ledger10, bits [21:20]. -/
def F.TLY_ROUTE_ledger10 : Fld := ⟨A.TLY_ROUTE, 20, 2⟩
/-- TLY.ROUTE.ledger11, bits [23:22]. -/
def F.TLY_ROUTE_ledger11 : Fld := ⟨A.TLY_ROUTE, 22, 2⟩
/-- TLY.ROUTE.ledger12, bits [25:24]. -/
def F.TLY_ROUTE_ledger12 : Fld := ⟨A.TLY_ROUTE, 24, 2⟩
/-- TLY.ROUTE.ledger13, bits [27:26]. -/
def F.TLY_ROUTE_ledger13 : Fld := ⟨A.TLY_ROUTE, 26, 2⟩
/-- BAR0 offset of TLY.OCC (R444). -/
def A.TLY_OCC : Nat := 0x360008
/-- TLY.OCC.occ, bits [12:0]. -/
def F.TLY_OCC_occ : Fld := ⟨A.TLY_OCC, 0, 13⟩
/-- TLY.OCC.max, bits [28:16]. -/
def F.TLY_OCC_max : Fld := ⟨A.TLY_OCC, 16, 13⟩
/-- BAR0 offset of TLY.STAT (R444). -/
def A.TLY_STAT : Nat := 0x36000c
/-- TLY.STAT.stage, bits [1:0]. -/
def F.TLY_STAT_stage : Fld := ⟨A.TLY_STAT, 0, 2⟩
/-- TLY.STAT.retained, bits [2:2]. -/
def F.TLY_STAT_retained : Fld := ⟨A.TLY_STAT, 2, 1⟩
/-- BAR0 offset of TLY.SEQ (R444). -/
def A.TLY_SEQ : Nat := 0x360010
/-- BAR0 offset of TLY.MERGED (R444). -/
def A.TLY_MERGED : Nat := 0x360018
/-- TLY.MERGED.count, bits [31:0]. -/
def F.TLY_MERGED_count : Fld := ⟨A.TLY_MERGED, 0, 32⟩
/-- BAR0 offset of TLY.CLR (R444). -/
def A.TLY_CLR : Nat := 0x36001c
/-- TLY.CLR.clr, bits [0:0]. -/
def F.TLY_CLR_clr : Fld := ⟨A.TLY_CLR, 0, 1⟩
/-- BAR0 offset of TLY.PEND (R444). -/
def A.TLY_PEND (k : Nat) : Nat := 0x360020 + k * 0x4
/-- TLY.PEND.pend, bits [12:0]. -/
def F.TLY_PEND_pend (k : Nat) : Fld := ⟨A.TLY_PEND k, 0, 13⟩
/-- BAR0 offset of TLY.FAB.SRAM_BASE (R444). -/
def A.FAB_SRAM_BASE : Nat := 0x361000
/-- TLY.FAB.SRAM_BASE.base, bits [22:0]. -/
def F.FAB_SRAM_BASE_base : Fld := ⟨A.FAB_SRAM_BASE, 0, 23⟩
/-- BAR0 offset of TLY.FAB.SRAM_SIZE (R444). -/
def A.FAB_SRAM_SIZE : Nat := 0x361004
/-- TLY.FAB.SRAM_SIZE.size, bits [22:0]. -/
def F.FAB_SRAM_SIZE_size : Fld := ⟨A.FAB_SRAM_SIZE, 0, 23⟩
/-- BAR0 offset of TLY.FAB.DRAM_BASE (R444). -/
def A.FAB_DRAM_BASE : Nat := 0x361008
/-- BAR0 offset of TLY.FAB.HOST_BASE (R444). -/
def A.FAB_HOST_BASE : Nat := 0x361010
/-- BAR0 offset of TLY.FAB.DSEL (R444). -/
def A.FAB_DSEL : Nat := 0x361018
/-- TLY.FAB.DSEL.point, bits [16:0]. -/
def F.FAB_DSEL_point : Fld := ⟨A.FAB_DSEL, 0, 17⟩
/-- BAR0 offset of TLY.FAB.DENT_LO (R444). -/
def A.FAB_DENT_LO : Nat := 0x36101c
/-- TLY.FAB.DENT_LO.offset, bits [24:0]. -/
def F.FAB_DENT_LO_offset : Fld := ⟨A.FAB_DENT_LO, 0, 25⟩
/-- TLY.FAB.DENT_LO.words, bits [30:25]. -/
def F.FAB_DENT_LO_words : Fld := ⟨A.FAB_DENT_LO, 25, 6⟩
/-- TLY.FAB.DENT_LO.mirror, bits [31:31]. -/
def F.FAB_DENT_LO_mirror : Fld := ⟨A.FAB_DENT_LO, 31, 1⟩
/-- BAR0 offset of TLY.FAB.DENT_HI (R444). -/
def A.FAB_DENT_HI : Nat := 0x361020
/-- TLY.FAB.DENT_HI.writer, bits [2:0]. -/
def F.FAB_DENT_HI_writer : Fld := ⟨A.FAB_DENT_HI, 0, 3⟩
/-- BAR0 offset of TLY.FAB.PSEL (R444). -/
def A.FAB_PSEL : Nat := 0x361024
/-- TLY.FAB.PSEL.point, bits [16:0]. -/
def F.FAB_PSEL_point : Fld := ⟨A.FAB_PSEL, 0, 17⟩
/-- BAR0 offset of TLY.FAB.PCTL (R444). -/
def A.FAB_PCTL : Nat := 0x361028
/-- TLY.FAB.PCTL.read, bits [0:0]. -/
def F.FAB_PCTL_read : Fld := ⟨A.FAB_PCTL, 0, 1⟩
/-- TLY.FAB.PCTL.write, bits [1:1]. -/
def F.FAB_PCTL_write : Fld := ⟨A.FAB_PCTL, 1, 1⟩
/-- TLY.FAB.PCTL.busy, bits [2:2]. -/
def F.FAB_PCTL_busy : Fld := ⟨A.FAB_PCTL, 2, 1⟩
/-- TLY.FAB.PCTL.err, bits [3:3]. -/
def F.FAB_PCTL_err : Fld := ⟨A.FAB_PCTL, 3, 1⟩
/-- BAR0 offset of TLY.FAB.PVER (R444). -/
def A.FAB_PVER : Nat := 0x36102c
/-- TLY.FAB.PVER.ver, bits [31:0]. -/
def F.FAB_PVER_ver : Fld := ⟨A.FAB_PVER, 0, 32⟩
/-- BAR0 offset of TLY.FAB.PSTAMP (R444). -/
def A.FAB_PSTAMP : Nat := 0x361030
/-- BAR0 offset of TLY.FAB.STAT (R444). -/
def A.FAB_STAT : Nat := 0x361038
/-- TLY.FAB.STAT.retry_fail, bits [15:0]. -/
def F.FAB_STAT_retry_fail : Fld := ⟨A.FAB_STAT, 0, 16⟩
/-- TLY.FAB.STAT.refused, bits [31:16]. -/
def F.FAB_STAT_refused : Fld := ⟨A.FAB_STAT, 16, 16⟩
/-- BAR0 offset of TLY.FAB.PDATA (R444). -/
def A.FAB_PDATA (w : Nat) : Nat := 0x361100 + w * 0x4
/-- TLY.FAB.PDATA.data, bits [31:0]. -/
def F.FAB_PDATA_data (w : Nat) : Fld := ⟨A.FAB_PDATA w, 0, 32⟩
/-- BAR0 offset of SEC.BOOT (R468). -/
def A.SEC_BOOT : Nat := 0x380000
/-- SEC.BOOT.state, bits [2:0]. -/
def F.SEC_BOOT_state : Fld := ⟨A.SEC_BOOT, 0, 3⟩
/-- SEC.BOOT.index, bits [15:8]. -/
def F.SEC_BOOT_index : Fld := ⟨A.SEC_BOOT, 8, 8⟩
/-- SEC.BOOT.reason, bits [23:16]. -/
def F.SEC_BOOT_reason : Fld := ⟨A.SEC_BOOT, 16, 8⟩
/-- BAR0 offset of SEC.BOOT_CTL (R468). -/
def A.SEC_BOOT_CTL : Nat := 0x380004
/-- SEC.BOOT_CTL.retry, bits [0:0]. -/
def F.SEC_BOOT_CTL_retry : Fld := ⟨A.SEC_BOOT_CTL, 0, 1⟩
/-- BAR0 offset of SEC.BOOT_ADDR (R468). -/
def A.SEC_BOOT_ADDR : Nat := 0x380008
/-- BAR0 offset of SEC.RSTCFG (R468). -/
def A.SEC_RSTCFG : Nat := 0x380010
/-- SEC.RSTCFG.hot, bits [0:0]. -/
def F.SEC_RSTCFG_hot : Fld := ⟨A.SEC_RSTCFG, 0, 1⟩
/-- BAR0 offset of SEC.RESET_CAUSE (R468). -/
def A.SEC_RESET_CAUSE : Nat := 0x380014
/-- SEC.RESET_CAUSE.cause, bits [2:0]. -/
def F.SEC_RESET_CAUSE_cause : Fld := ⟨A.SEC_RESET_CAUSE, 0, 3⟩
/-- BAR0 offset of SEC.DEVID (R468). -/
def A.SEC_DEVID : Nat := 0x380018
/-- BAR0 offset of SEC.PROV (R468). -/
def A.SEC_PROV : Nat := 0x380020
/-- SEC.PROV.provisioned, bits [0:0]. -/
def F.SEC_PROV_provisioned : Fld := ⟨A.SEC_PROV, 0, 1⟩
/-- SEC.PROV.busy, bits [1:1]. -/
def F.SEC_PROV_busy : Fld := ⟨A.SEC_PROV, 1, 1⟩
/-- SEC.PROV.err, bits [2:2]. -/
def F.SEC_PROV_err : Fld := ⟨A.SEC_PROV, 2, 1⟩
/-- SEC.PROV.provision, bits [3:3]. -/
def F.SEC_PROV_provision : Fld := ⟨A.SEC_PROV, 3, 1⟩
/-- BAR0 offset of SEC.DBG (R468). -/
def A.SEC_DBG : Nat := 0x380024
/-- SEC.DBG.state, bits [1:0]. -/
def F.SEC_DBG_state : Fld := ⟨A.SEC_DBG, 0, 2⟩
/-- SEC.DBG.scope, bits [3:2]. -/
def F.SEC_DBG_scope : Fld := ⟨A.SEC_DBG, 2, 2⟩
/-- SEC.DBG.unlock, bits [4:4]. -/
def F.SEC_DBG_unlock : Fld := ⟨A.SEC_DBG, 4, 1⟩
/-- SEC.DBG.relock, bits [5:5]. -/
def F.SEC_DBG_relock : Fld := ⟨A.SEC_DBG, 5, 1⟩
/-- SEC.DBG.fails, bits [11:8]. -/
def F.SEC_DBG_fails : Fld := ⟨A.SEC_DBG, 8, 4⟩
/-- BAR0 offset of SEC.DBG_RESP (R468). -/
def A.SEC_DBG_RESP : Nat := 0x380028
/-- BAR0 offset of SEC.DBG_CHAL (R468). -/
def A.SEC_DBG_CHAL (k : Nat) : Nat := 0x380040 + k * 0x4
/-- SEC.DBG_CHAL.chal, bits [31:0]. -/
def F.SEC_DBG_CHAL_chal (k : Nat) : Fld := ⟨A.SEC_DBG_CHAL k, 0, 32⟩
/-- BAR0 offset of SEC.ROLLBACK (R468). -/
def A.SEC_ROLLBACK : Nat := 0x380060
/-- SEC.ROLLBACK.counters, bits [23:0]. -/
def F.SEC_ROLLBACK_counters : Fld := ⟨A.SEC_ROLLBACK, 0, 24⟩
/-- BAR0 offset of SEC.ROLL_ADV (R468). -/
def A.SEC_ROLL_ADV : Nat := 0x380064
/-- SEC.ROLL_ADV.class, bits [1:0]. -/
def F.SEC_ROLL_ADV_class : Fld := ⟨A.SEC_ROLL_ADV, 0, 2⟩
/-- SEC.ROLL_ADV.value, bits [15:8]. -/
def F.SEC_ROLL_ADV_value : Fld := ⟨A.SEC_ROLL_ADV, 8, 8⟩
/-- BAR0 offset of SEC.KEYSTAT (R468). -/
def A.SEC_KEYSTAT : Nat := 0x380068
/-- SEC.KEYSTAT.present, bits [11:0]. -/
def F.SEC_KEYSTAT_present : Fld := ⟨A.SEC_KEYSTAT, 0, 12⟩
/-- SEC.KEYSTAT.revoked, bits [27:16]. -/
def F.SEC_KEYSTAT_revoked : Fld := ⟨A.SEC_KEYSTAT, 16, 12⟩
/-- BAR0 offset of SEC.KPROG_ADDR (R468). -/
def A.SEC_KPROG_ADDR : Nat := 0x380070
/-- BAR0 offset of SEC.KPROG (R468). -/
def A.SEC_KPROG : Nat := 0x380078
/-- SEC.KPROG.slot, bits [3:0]. -/
def F.SEC_KPROG_slot : Fld := ⟨A.SEC_KPROG, 0, 4⟩
/-- SEC.KPROG.program, bits [4:4]. -/
def F.SEC_KPROG_program : Fld := ⟨A.SEC_KPROG, 4, 1⟩
/-- SEC.KPROG.revoke, bits [5:5]. -/
def F.SEC_KPROG_revoke : Fld := ⟨A.SEC_KPROG, 5, 1⟩
/-- SEC.KPROG.busy, bits [6:6]. -/
def F.SEC_KPROG_busy : Fld := ⟨A.SEC_KPROG, 6, 1⟩
/-- SEC.KPROG.err, bits [7:7]. -/
def F.SEC_KPROG_err : Fld := ⟨A.SEC_KPROG, 7, 1⟩
/-- BAR0 offset of SEC.FWDIG (R468). -/
def A.SEC_FWDIG (k : Nat) : Nat := 0x380080 + k * 0x4
/-- SEC.FWDIG.digest, bits [31:0]. -/
def F.SEC_FWDIG_digest (k : Nat) : Fld := ⟨A.SEC_FWDIG k, 0, 32⟩
/-- BAR0 offset of SEC.FWREV (R468). -/
def A.SEC_FWREV : Nat := 0x3800a0
/-- SEC.FWREV.rev, bits [31:0]. -/
def F.SEC_FWREV_rev : Fld := ⟨A.SEC_FWREV, 0, 32⟩
/-- BAR0 offset of SEC.LOOPDIG (R468). -/
def A.SEC_LOOPDIG (a : Nat) (k : Nat) : Nat := 0x380100 + a * 0x20 + k * 0x4
/-- SEC.LOOPDIG.digest, bits [31:0]. -/
def F.SEC_LOOPDIG_digest (a : Nat) (k : Nat) : Fld := ⟨A.SEC_LOOPDIG a k, 0, 32⟩
/-- BAR0 offset of SEC.LOOPREV (R468). -/
def A.SEC_LOOPREV (a : Nat) : Nat := 0x380220 + a * 0x4
/-- SEC.LOOPREV.rev, bits [31:0]. -/
def F.SEC_LOOPREV_rev (a : Nat) : Fld := ⟨A.SEC_LOOPREV a, 0, 32⟩
/-- BAR0 offset of SEC.IDPUB (R468). -/
def A.SEC_IDPUB (k : Nat) : Nat := 0x381000 + k * 0x4
/-- SEC.IDPUB.key, bits [31:0]. -/
def F.SEC_IDPUB_key (k : Nat) : Fld := ⟨A.SEC_IDPUB k, 0, 32⟩
/-- BAR0 offset of MEM.CFG (R469). -/
def A.MEM_CFG : Nat := 0x3a0000
/-- MEM.CFG.rate, bits [2:0]. -/
def F.MEM_CFG_rate : Fld := ⟨A.MEM_CFG, 0, 3⟩
/-- MEM.CFG.density, bits [4:3]. -/
def F.MEM_CFG_density : Fld := ⟨A.MEM_CFG, 3, 2⟩
/-- MEM.CFG.ranks, bits [5:5]. -/
def F.MEM_CFG_ranks : Fld := ⟨A.MEM_CFG, 5, 1⟩
/-- MEM.CFG.auto, bits [6:6]. -/
def F.MEM_CFG_auto : Fld := ⟨A.MEM_CFG, 6, 1⟩
/-- MEM.CFG.scrub, bits [15:8]. -/
def F.MEM_CFG_scrub : Fld := ⟨A.MEM_CFG, 8, 8⟩
/-- BAR0 offset of MEM.CTL (R469). -/
def A.MEM_CTL : Nat := 0x3a0004
/-- MEM.CTL.start, bits [0:0]. -/
def F.MEM_CTL_start : Fld := ⟨A.MEM_CTL, 0, 1⟩
/-- BAR0 offset of MEM.STAT (R469). -/
def A.MEM_STAT : Nat := 0x3a0008
/-- MEM.STAT.ready, bits [0:0]. -/
def F.MEM_STAT_ready : Fld := ⟨A.MEM_STAT, 0, 1⟩
/-- MEM.STAT.training, bits [1:1]. -/
def F.MEM_STAT_training : Fld := ⟨A.MEM_STAT, 1, 1⟩
/-- MEM.STAT.train_err, bits [2:2]. -/
def F.MEM_STAT_train_err : Fld := ⟨A.MEM_STAT, 2, 1⟩
/-- MEM.STAT.step, bits [6:4]. -/
def F.MEM_STAT_step : Fld := ⟨A.MEM_STAT, 4, 3⟩
/-- MEM.STAT.trainings, bits [31:16]. -/
def F.MEM_STAT_trainings : Fld := ⟨A.MEM_STAT, 16, 16⟩
/-- BAR0 offset of MEM.SIZE (R469). -/
def A.MEM_SIZE : Nat := 0x3a000c
/-- MEM.SIZE.mib, bits [15:0]. -/
def F.MEM_SIZE_mib : Fld := ⟨A.MEM_SIZE, 0, 16⟩
/-- BAR0 offset of MEM.DECC (R469). -/
def A.MEM_DECC : Nat := 0x3a0010
/-- MEM.DECC.corrected, bits [15:0]. -/
def F.MEM_DECC_corrected : Fld := ⟨A.MEM_DECC, 0, 16⟩
/-- MEM.DECC.uncorr, bits [31:16]. -/
def F.MEM_DECC_uncorr : Fld := ⟨A.MEM_DECC, 16, 16⟩
/-- BAR0 offset of MEM.RETRAIN (R469). -/
def A.MEM_RETRAIN : Nat := 0x3a0014
/-- MEM.RETRAIN.ms, bits [7:0]. -/
def F.MEM_RETRAIN_ms : Fld := ⟨A.MEM_RETRAIN, 0, 8⟩
/-- BAR0 offset of MEM.DECC_ADDR (R469). -/
def A.MEM_DECC_ADDR : Nat := 0x3a0018
/-- BAR0 offset of MEM.SECC (R469). -/
def A.MEM_SECC : Nat := 0x3a0020
/-- MEM.SECC.corrected, bits [15:0]. -/
def F.MEM_SECC_corrected : Fld := ⟨A.MEM_SECC, 0, 16⟩
/-- MEM.SECC.uncorr, bits [31:16]. -/
def F.MEM_SECC_uncorr : Fld := ⟨A.MEM_SECC, 16, 16⟩
/-- BAR0 offset of MEM.RET_STAT (R469). -/
def A.MEM_RET_STAT : Nat := 0x3a0024
/-- MEM.RET_STAT.valid, bits [0:0]. -/
def F.MEM_RET_STAT_valid : Fld := ⟨A.MEM_RET_STAT, 0, 1⟩
/-- MEM.RET_STAT.on_vbat, bits [1:1]. -/
def F.MEM_RET_STAT_on_vbat : Fld := ⟨A.MEM_RET_STAT, 1, 1⟩
/-- MEM.RET_STAT.corrected, bits [31:16]. -/
def F.MEM_RET_STAT_corrected : Fld := ⟨A.MEM_RET_STAT, 16, 16⟩
/-- BAR0 offset of MEM.CLR (R469). -/
def A.MEM_CLR : Nat := 0x3a0028
/-- MEM.CLR.clr, bits [0:0]. -/
def F.MEM_CLR_clr : Fld := ⟨A.MEM_CLR, 0, 1⟩
/-- BAR0 offset of MEM.RET (R469). -/
def A.MEM_RET (x : Nat) : Nat := 0x3a2000 + x * 0x4
/-- MEM.RET.data, bits [31:0]. -/
def F.MEM_RET_data (x : Nat) : Fld := ⟨A.MEM_RET x, 0, 32⟩
/-- BAR0 offset of PIN.CLK (R491). -/
def A.PIN_CLK : Nat := 0x3c0000
/-- PIN.CLK.spread, bits [1:0]. -/
def F.PIN_CLK_spread : Fld := ⟨A.PIN_CLK, 0, 2⟩
/-- PIN.CLK.ref_ok, bits [8:8]. -/
def F.PIN_CLK_ref_ok : Fld := ⟨A.PIN_CLK, 8, 1⟩
/-- PIN.CLK.core_lock, bits [9:9]. -/
def F.PIN_CLK_core_lock : Fld := ⟨A.PIN_CLK, 9, 1⟩
/-- PIN.CLK.timing_lock, bits [10:10]. -/
def F.PIN_CLK_timing_lock : Fld := ⟨A.PIN_CLK, 10, 1⟩
/-- BAR0 offset of PIN.INFILT (R491). -/
def A.PIN_INFILT : Nat := 0x3c0004
/-- PIN.INFILT.pps, bits [7:0]. -/
def F.PIN_INFILT_pps : Fld := ⟨A.PIN_INFILT, 0, 8⟩
/-- PIN.INFILT.phase, bits [15:8]. -/
def F.PIN_INFILT_phase : Fld := ⟨A.PIN_INFILT, 8, 8⟩
/-- BAR0 offset of PIN.OSLEW (R491). -/
def A.PIN_OSLEW : Nat := 0x3c0008
/-- PIN.OSLEW.emu, bits [1:0]. -/
def F.PIN_OSLEW_emu : Fld := ⟨A.PIN_OSLEW, 0, 2⟩
/-- PIN.OSLEW.fout, bits [3:2]. -/
def F.PIN_OSLEW_fout : Fld := ⟨A.PIN_OSLEW, 2, 2⟩
/-- BAR0 offset of PIN.SUPPLY (R491). -/
def A.PIN_SUPPLY : Nat := 0x3c000c
/-- PIN.SUPPLY.ok, bits [4:0]. -/
def F.PIN_SUPPLY_ok : Fld := ⟨A.PIN_SUPPLY, 0, 5⟩
/-- PIN.SUPPLY.vbat_ok, bits [5:5]. -/
def F.PIN_SUPPLY_vbat_ok : Fld := ⟨A.PIN_SUPPLY, 5, 1⟩
/-- PIN.SUPPLY.warn, bits [6:6]. -/
def F.PIN_SUPPLY_warn : Fld := ⟨A.PIN_SUPPLY, 6, 1⟩
/-- BAR0 offset of PIN.FPULL (R491). -/
def A.PIN_FPULL (s : Nat) : Nat := 0x3c0100 + s * 0x4
/-- PIN.FPULL.f0, bits [1:0]. -/
def F.PIN_FPULL_f0 (s : Nat) : Fld := ⟨A.PIN_FPULL s, 0, 2⟩
/-- PIN.FPULL.f1, bits [3:2]. -/
def F.PIN_FPULL_f1 (s : Nat) : Fld := ⟨A.PIN_FPULL s, 2, 2⟩
/-- PIN.FPULL.f2, bits [5:4]. -/
def F.PIN_FPULL_f2 (s : Nat) : Fld := ⟨A.PIN_FPULL s, 4, 2⟩

end Sys2Proof.Machine
end

