-- ==== Sys2Proof/Machine/RegMap.lean ====
section
/-!
DEFINITION. The register maps of BAR0, one row per register of the chapters' maps (R14, R34 and the map of each
block): the address of its first instance, its index ranges, its fields with access code, reset value, documented
range and reserved values. The meaning of the access codes (R11) is in Machine/Access.lean.
-/

namespace Sys2Proof.Machine

/-- The access codes of R11. -/
inductive Acc where
  | RO | RW | RWC | RWS | WO | W1C
  deriving DecidableEq, Repr

/-- Who owns a register, that is when its RWC fields may be written outside CONFIGURE (R11, R55, R79, R90). -/
inductive Gate where
  | configure | coord | group | slice | stepper | bankRate | conv | emu | stall | boot
  deriving DecidableEq, Repr

/-- One field of a register map. `lo` and `hi` are the documented range, `bad` the reserved values (R10). -/
structure FieldDesc where
  lsb : Nat
  width : Nat
  acc : Acc
  reset : Nat := 0
  lo : Nat := 0
  hi : Nat := 0xFFFFFFFFFFFFFFFF
  bad : List Nat := []
  deriving DecidableEq, Repr

/-- One register (or 64-bit pair) of a map, with the count and stride of each of its indices. -/
structure RegDesc where
  addr : Nat
  dims : List (Nat × Nat)
  pair : Bool := false
  gate : Gate
  fields : List FieldDesc
  deriving DecidableEq, Repr

/-- Registers of block SYS (01_architecture.md), part 1. -/
def regsSYS0 : List RegDesc := [
  -- SYS.ID (R37)
  { addr := 0x0, dims := [], pair := false, gate := .configure,
    fields := [{ lsb := 0, width := 16, acc := .RO, reset := 32868 },
      { lsb := 16, width := 16, acc := .RO, reset := 239 }] },
  -- SYS.STEPPING (R37)
  { addr := 0x4, dims := [], pair := false, gate := .configure,
    fields := [{ lsb := 0, width := 8, acc := .RO },
      { lsb := 8, width := 8, acc := .RO, reset := 1 }] },
  -- SYS.CAPS (R37)
  { addr := 0x8, dims := [], pair := false, gate := .configure,
    fields := [{ lsb := 0, width := 8, acc := .RO, reset := 64 },
      { lsb := 8, width := 4, acc := .RO, reset := 8 },
      { lsb := 12, width := 4, acc := .RO, reset := 8 },
      { lsb := 16, width := 4, acc := .RO, reset := 12 },
      { lsb := 20, width := 5, acc := .RO, reset := 16 }] },
  -- SYS.FAULT (R37)
  { addr := 0x10, dims := [], pair := false, gate := .configure,
    fields := [{ lsb := 0, width := 8, acc := .RO },
      { lsb := 8, width := 1, acc := .RO },
      { lsb := 9, width := 1, acc := .RO },
      { lsb := 10, width := 1, acc := .RO },
      { lsb := 11, width := 1, acc := .RO },
      { lsb := 12, width := 1, acc := .RO }] },
  -- SYS.FAULT_STICKY (R37)
  { addr := 0x14, dims := [], pair := false, gate := .configure,
    fields := [{ lsb := 0, width := 8, acc := .W1C },
      { lsb := 8, width := 1, acc := .W1C },
      { lsb := 9, width := 1, acc := .W1C },
      { lsb := 10, width := 1, acc := .W1C },
      { lsb := 11, width := 1, acc := .W1C },
      { lsb := 12, width := 1, acc := .W1C }] },
  -- SYS.ESCALATE (R37)
  { addr := 0x18, dims := [], pair := false, gate := .configure,
    fields := [{ lsb := 0, width := 16, acc := .RWC, reset := 1000, lo := 10, hi := 10000 }] },
  -- SYS.BANKCLR (R37)
  { addr := 0x1c, dims := [], pair := false, gate := .configure,
    fields := [{ lsb := 0, width := 8, acc := .WO },
      { lsb := 8, width := 8, acc := .RO },
      { lsb := 16, width := 8, acc := .RO }] }]

/-- All registers of block SYS. -/
def regsSYS : List RegDesc := regsSYS0

/-- Registers of block MODE (03_modes_arm_states.md), part 1. -/
def regsMODE0 : List RegDesc := [
  -- MODE.CELL (R92)
  { addr := 0x10000, dims := [], pair := false, gate := .configure,
    fields := [{ lsb := 0, width := 3, acc := .RO, reset := 1 },
      { lsb := 3, width := 3, acc := .RO },
      { lsb := 6, width := 2, acc := .RO, bad := [3] },
      { lsb := 16, width := 16, acc := .RO }] },
  -- MODE.EPOCH (R92)
  { addr := 0x10008, dims := [], pair := true, gate := .configure,
    fields := [{ lsb := 0, width := 64, acc := .RO }] },
  -- MODE.LAST (R92)
  { addr := 0x10010, dims := [], pair := false, gate := .configure,
    fields := [{ lsb := 0, width := 2, acc := .RO },
      { lsb := 16, width := 16, acc := .RO }] },
  -- MODE.REQ_EPOCH (R92)
  { addr := 0x10018, dims := [], pair := true, gate := .configure,
    fields := [{ lsb := 0, width := 64, acc := .RWC }] },
  -- MODE.REQ (R92)
  { addr := 0x10020, dims := [], pair := false, gate := .configure,
    fields := [{ lsb := 0, width := 3, acc := .RWC, reset := 2 }] },
  -- MODE.CFG (R92)
  { addr := 0x10024, dims := [], pair := false, gate := .configure,
    fields := [{ lsb := 0, width := 16, acc := .RWC, reset := 2000, lo := 500, hi := 60000 }] },
  -- MODE.XCFG (R92)
  { addr := 0x10028, dims := [], pair := false, gate := .configure,
    fields := [{ lsb := 0, width := 8, acc := .RWC },
      { lsb := 8, width := 6, acc := .RWC },
      { lsb := 16, width := 4, acc := .RWC, reset := 4, lo := 1, hi := 15 }] },
  -- MODE.XPOINT (R92)
  { addr := 0x1002c, dims := [], pair := false, gate := .configure,
    fields := [{ lsb := 0, width := 17, acc := .RWC }] },
  -- MODE.BANK (R92)
  { addr := 0x10030, dims := [], pair := false, gate := .configure,
    fields := [{ lsb := 0, width := 2, acc := .RWC, bad := [3] },
      { lsb := 2, width := 2, acc := .RWC, bad := [3] },
      { lsb := 4, width := 2, acc := .RWC, bad := [3] },
      { lsb := 6, width := 2, acc := .RWC, bad := [3] },
      { lsb := 8, width := 2, acc := .RWC, bad := [3] },
      { lsb := 10, width := 2, acc := .RWC, bad := [3] },
      { lsb := 12, width := 2, acc := .RWC, bad := [3] },
      { lsb := 14, width := 2, acc := .RWC, bad := [3] }] },
  -- MODE.SEP (R92)
  { addr := 0x10034, dims := [], pair := false, gate := .configure,
    fields := [{ lsb := 0, width := 1, acc := .RWS }] },
  -- MODE.SLICEMAP (R92)
  { addr := 0x10040, dims := [(8, 0x4)], pair := false, gate := .configure,
    fields := [{ lsb := 0, width := 3, acc := .RWC },
      { lsb := 4, width := 3, acc := .RWC },
      { lsb := 8, width := 3, acc := .RWC },
      { lsb := 12, width := 3, acc := .RWC },
      { lsb := 16, width := 3, acc := .RWC },
      { lsb := 20, width := 3, acc := .RWC },
      { lsb := 24, width := 3, acc := .RWC },
      { lsb := 28, width := 3, acc := .RWC },
      { lsb := 3, width := 1, acc := .RWC },
      { lsb := 7, width := 1, acc := .RWC },
      { lsb := 11, width := 1, acc := .RWC },
      { lsb := 15, width := 1, acc := .RWC },
      { lsb := 19, width := 1, acc := .RWC },
      { lsb := 23, width := 1, acc := .RWC },
      { lsb := 27, width := 1, acc := .RWC },
      { lsb := 31, width := 1, acc := .RWC }] },
  -- MODE.G[g].STATUS (R92)
  { addr := 0x10100, dims := [(8, 0x20)], pair := false, gate := .configure,
    fields := [{ lsb := 0, width := 2, acc := .RO, bad := [3] },
      { lsb := 2, width := 1, acc := .RO },
      { lsb := 3, width := 1, acc := .RO },
      { lsb := 4, width := 4, acc := .RO },
      { lsb := 8, width := 5, acc := .RO }] }]

/-- Registers of block MODE (03_modes_arm_states.md), part 2. -/
def regsMODE1 : List RegDesc := [
  -- MODE.G[g].STOP (R92)
  { addr := 0x10104, dims := [(8, 0x20)], pair := false, gate := .configure,
    fields := [{ lsb := 0, width := 16, acc := .RWS, reset := 500, lo := 50, hi := 10000 }] },
  -- MODE.G[g].OUTCNT (R92)
  { addr := 0x10108, dims := [(8, 0x20)], pair := false, gate := .configure,
    fields := [{ lsb := 0, width := 16, acc := .RO }] }]

/-- All registers of block MODE. -/
def regsMODE : List RegDesc := regsMODE0 ++ regsMODE1

/-- Registers of block RT (02_ridge_time_coordinates.md), part 1. -/
def regsRT0 : List RegDesc := [
  -- RT.NOW (R65)
  { addr := 0x20000, dims := [], pair := true, gate := .configure,
    fields := [{ lsb := 0, width := 64, acc := .RO }] },
  -- RT.CTRL (R65)
  { addr := 0x20008, dims := [], pair := false, gate := .configure,
    fields := [{ lsb := 0, width := 1, acc := .RWC },
      { lsb := 1, width := 1, acc := .RW },
      { lsb := 2, width := 1, acc := .RW },
      { lsb := 3, width := 1, acc := .RW },
      { lsb := 8, width := 8, acc := .RWC, reset := 10, lo := 1, hi := 200 }] },
  -- RT.STATUS (R65)
  { addr := 0x2000c, dims := [], pair := false, gate := .configure,
    fields := [{ lsb := 0, width := 3, acc := .RO },
      { lsb := 3, width := 1, acc := .RO },
      { lsb := 4, width := 1, acc := .RO },
      { lsb := 5, width := 1, acc := .RO },
      { lsb := 6, width := 1, acc := .RO }] },
  -- RT.RATE (R65)
  { addr := 0x20010, dims := [], pair := false, gate := .configure,
    fields := [{ lsb := 0, width := 32, acc := .RO }] },
  -- RT.OFS_CORR (R65)
  { addr := 0x20014, dims := [], pair := false, gate := .configure,
    fields := [{ lsb := 0, width := 32, acc := .RO }] },
  -- RT.CIVIL_OFS (R65)
  { addr := 0x20018, dims := [], pair := true, gate := .configure,
    fields := [{ lsb := 0, width := 64, acc := .RW }] },
  -- RT.CIVIL_REF (R65)
  { addr := 0x20020, dims := [], pair := true, gate := .configure,
    fields := [{ lsb := 0, width := 64, acc := .RW }] },
  -- RT.CIVIL_RATE (R65)
  { addr := 0x20028, dims := [], pair := false, gate := .configure,
    fields := [{ lsb := 0, width := 32, acc := .RW }] },
  -- RT.CIVIL (R65)
  { addr := 0x20030, dims := [], pair := true, gate := .configure,
    fields := [{ lsb := 0, width := 64, acc := .RO }] },
  -- RT.PPS_STAMP (R65)
  { addr := 0x20038, dims := [], pair := true, gate := .configure,
    fields := [{ lsb := 0, width := 64, acc := .RO }] },
  -- RT.PPS_ERR (R65)
  { addr := 0x20040, dims := [], pair := false, gate := .configure,
    fields := [{ lsb := 0, width := 32, acc := .RO }] },
  -- RT.PPS_CNT (R65)
  { addr := 0x20044, dims := [], pair := false, gate := .configure,
    fields := [{ lsb := 0, width := 16, acc := .RO },
      { lsb := 16, width := 16, acc := .RO }] }]

/-- All registers of block RT. -/
def regsRT : List RegDesc := regsRT0

/-- Registers of block CRD (02_ridge_time_coordinates.md), part 1. -/
def regsCRD0 : List RegDesc := [
  -- CRD.K[n].CFG (R66)
  { addr := 0x30000, dims := [(16, 0x40)], pair := false, gate := .coord,
    fields := [{ lsb := 0, width := 3, acc := .RWC, bad := [6, 7] },
      { lsb := 8, width := 8, acc := .RWC },
      { lsb := 16, width := 6, acc := .RWC },
      { lsb := 24, width := 4, acc := .RWC, reset := 4, hi := 15 }] },
  -- CRD.K[n].POINT (R66)
  { addr := 0x30004, dims := [(16, 0x40)], pair := false, gate := .coord,
    fields := [{ lsb := 0, width := 17, acc := .RWC }] },
  -- CRD.K[n].SCALE (R66)
  { addr := 0x30008, dims := [(16, 0x40)], pair := true, gate := .coord,
    fields := [{ lsb := 0, width := 64, acc := .RWC }] },
  -- CRD.K[n].OVERRIDE (R66)
  { addr := 0x30010, dims := [(16, 0x40)], pair := false, gate := .coord,
    fields := [{ lsb := 0, width := 11, acc := .RO, reset := 1024 }] },
  -- CRD.K[n].RISE (R66)
  { addr := 0x30014, dims := [(16, 0x40)], pair := false, gate := .coord,
    fields := [{ lsb := 0, width := 11, acc := .RWC, reset := 16, lo := 1, hi := 1024 }] },
  -- CRD.K[n].STATUS (R66)
  { addr := 0x30018, dims := [(16, 0x40)], pair := false, gate := .coord,
    fields := [{ lsb := 0, width := 2, acc := .RO },
      { lsb := 16, width := 16, acc := .RO }] },
  -- CRD.K[n].FACTOR (R66)
  { addr := 0x3001c, dims := [(16, 0x40)], pair := false, gate := .coord,
    fields := [{ lsb := 0, width := 11, acc := .RO, reset := 1024 }] },
  -- CRD.K[n].VALUE (R66)
  { addr := 0x30020, dims := [(16, 0x40)], pair := true, gate := .coord,
    fields := [{ lsb := 0, width := 64, acc := .RO }] },
  -- CRD.K[n].RATE (R66)
  { addr := 0x30028, dims := [(16, 0x40)], pair := true, gate := .coord,
    fields := [{ lsb := 0, width := 64, acc := .RO }] },
  -- CRD.K[n].HOSTQ (R66)
  { addr := 0x30030, dims := [(16, 0x40)], pair := false, gate := .coord,
    fields := [{ lsb := 0, width := 16, acc := .RO }] },
  -- CRD.PHASE (R66)
  { addr := 0x30800, dims := [], pair := false, gate := .configure,
    fields := [{ lsb := 0, width := 1, acc := .RWC },
      { lsb := 1, width := 1, acc := .RO },
      { lsb := 16, width := 16, acc := .RO }] },
  -- CRD.DL[m].CFG (R66)
  { addr := 0x31000, dims := [(5, 0x10)], pair := false, gate := .configure,
    fields := [{ lsb := 0, width := 4, acc := .RWC }] }]

/-- Registers of block CRD (02_ridge_time_coordinates.md), part 2. -/
def regsCRD1 : List RegDesc := [
  -- CRD.DL[m].STAT (R66)
  { addr := 0x31004, dims := [(5, 0x10)], pair := false, gate := .configure,
    fields := [{ lsb := 0, width := 11, acc := .RO },
      { lsb := 16, width := 16, acc := .RO }] },
  -- CRD.DL[m].LATE (R66)
  { addr := 0x31008, dims := [(5, 0x10)], pair := false, gate := .configure,
    fields := [{ lsb := 0, width := 16, acc := .RO },
      { lsb := 16, width := 16, acc := .RO }] },
  -- CRD.DL[m].CLR (R66)
  { addr := 0x3100c, dims := [(5, 0x10)], pair := false, gate := .configure,
    fields := [{ lsb := 0, width := 1, acc := .WO }] }]

/-- All registers of block CRD. -/
def regsCRD : List RegDesc := regsCRD0 ++ regsCRD1

/-- Registers of block MOT (04_motion_programs.md), part 1. -/
def regsMOT0 : List RegDesc := [
  -- MOT.G[g].QBASE (R130)
  { addr := 0x40000, dims := [(8, 0x100)], pair := true, gate := .group,
    fields := [{ lsb := 0, width := 64, acc := .RWC }] },
  -- MOT.G[g].QCFG (R130)
  { addr := 0x40008, dims := [(8, 0x100)], pair := false, gate := .group,
    fields := [{ lsb := 0, width := 5, acc := .RWC, reset := 4, lo := 4, hi := 16 }] },
  -- MOT.G[g].QSTAT (R130)
  { addr := 0x4000c, dims := [(8, 0x100)], pair := false, gate := .group,
    fields := [{ lsb := 0, width := 3, acc := .RO },
      { lsb := 4, width := 4, acc := .RO, bad := [7, 8, 9, 10, 11, 12, 13, 14, 15] }] },
  -- MOT.G[g].QCOUNT (R130)
  { addr := 0x40010, dims := [(8, 0x100)], pair := false, gate := .group,
    fields := [{ lsb := 0, width := 17, acc := .RO }] },
  -- MOT.G[g].CURSOR (R130)
  { addr := 0x40014, dims := [(8, 0x100)], pair := false, gate := .group,
    fields := [{ lsb := 0, width := 16, acc := .RO }] },
  -- MOT.G[g].TAG (R130)
  { addr := 0x40018, dims := [(8, 0x100)], pair := false, gate := .group,
    fields := [{ lsb := 0, width := 32, acc := .RO }] },
  -- MOT.G[g].STAT (R130)
  { addr := 0x4001c, dims := [(8, 0x100)], pair := false, gate := .group,
    fields := [{ lsb := 0, width := 16, acc := .RO },
      { lsb := 16, width := 16, acc := .RO }] },
  -- MOT.G[g].U (R130)
  { addr := 0x40020, dims := [(8, 0x100)], pair := true, gate := .group,
    fields := [{ lsb := 0, width := 64, acc := .RO }] },
  -- MOT.G[g].RAMP (R130)
  { addr := 0x40028, dims := [(8, 0x100)], pair := false, gate := .group,
    fields := [{ lsb := 0, width := 16, acc := .RWC, reset := 400, lo := 50, hi := 10000 },
      { lsb := 16, width := 16, acc := .RWC, reset := 1000, lo := 50, hi := 10000 }] },
  -- MOT.G[g].HFACT (R130)
  { addr := 0x4002c, dims := [(8, 0x100)], pair := false, gate := .group,
    fields := [{ lsb := 0, width := 11, acc := .RO }] },
  -- MOT.G[g].FF (R130)
  { addr := 0x40030, dims := [(8, 0x100)], pair := false, gate := .group,
    fields := [{ lsb := 0, width := 1, acc := .RWC },
      { lsb := 8, width := 8, acc := .RWC }] },
  -- MOT.G[g].FFSTAT (R130)
  { addr := 0x40034, dims := [(8, 0x100)], pair := false, gate := .group,
    fields := [{ lsb := 0, width := 2, acc := .RO },
      { lsb := 16, width := 16, acc := .RO }] }]

/-- Registers of block MOT (04_motion_programs.md), part 2. -/
def regsMOT1 : List RegDesc := [
  -- MOT.STP[s].CFG (R130)
  { addr := 0x41000, dims := [(64, 0x40)], pair := false, gate := .stepper,
    fields := [{ lsb := 0, width := 2, acc := .RWC, bad := [3] }] },
  -- MOT.STP[s].SPR (R130)
  { addr := 0x41004, dims := [(64, 0x40)], pair := false, gate := .stepper,
    fields := [{ lsb := 0, width := 32, acc := .RWC, reset := 51200, lo := 1, hi := 16777216 }] },
  -- MOT.STP[s].THRESH (R130)
  { addr := 0x41008, dims := [(64, 0x40)], pair := false, gate := .stepper,
    fields := [{ lsb := 0, width := 16, acc := .RWC, reset := 400 },
      { lsb := 16, width := 16, acc := .RWC, reset := 300 }] },
  -- MOT.STP[s].AMP (R130)
  { addr := 0x4100c, dims := [(64, 0x40)], pair := false, gate := .stepper,
    fields := [{ lsb := 0, width := 11, acc := .RWC, reset := 512 }] },
  -- MOT.STP[s].IRUN (R130)
  { addr := 0x41010, dims := [(64, 0x40)], pair := false, gate := .stepper,
    fields := [{ lsb := 0, width := 32, acc := .RWC }] },
  -- MOT.STP[s].TIMING (R130)
  { addr := 0x41014, dims := [(64, 0x40)], pair := false, gate := .stepper,
    fields := [{ lsb := 0, width := 16, acc := .RWC, reset := 400, lo := 40, hi := 65535 },
      { lsb := 16, width := 16, acc := .RWC, reset := 400, lo := 40, hi := 65535 }] },
  -- MOT.STP[s].MINIV (R130)
  { addr := 0x41018, dims := [(64, 0x40)], pair := false, gate := .stepper,
    fields := [{ lsb := 0, width := 32, acc := .RWC, reset := 800 }] },
  -- MOT.STP[s].STAT (R130)
  { addr := 0x4101c, dims := [(64, 0x40)], pair := false, gate := .stepper,
    fields := [{ lsb := 0, width := 1, acc := .RO },
      { lsb := 1, width := 1, acc := .RO }] },
  -- MOT.STP[s].POS (R130)
  { addr := 0x41020, dims := [(64, 0x40)], pair := false, gate := .stepper,
    fields := [{ lsb := 0, width := 32, acc := .RO }] },
  -- MOT.CMP.STAT (R130)
  { addr := 0x42000, dims := [], pair := false, gate := .configure,
    fields := [{ lsb := 0, width := 11, acc := .RO },
      { lsb := 16, width := 1, acc := .W1C }] },
  -- MOT.CMP.CNT1 (R130)
  { addr := 0x42004, dims := [], pair := false, gate := .configure,
    fields := [{ lsb := 0, width := 16, acc := .RO },
      { lsb := 16, width := 16, acc := .RO }] },
  -- MOT.CMP.CNT2 (R130)
  { addr := 0x42008, dims := [], pair := false, gate := .configure,
    fields := [{ lsb := 0, width := 16, acc := .RO },
      { lsb := 16, width := 16, acc := .RO }] }]

/-- Registers of block MOT (04_motion_programs.md), part 3. -/
def regsMOT2 : List RegDesc := [
  -- MOT.CMP.LAST_PASSED (R130)
  { addr := 0x4200c, dims := [], pair := false, gate := .configure,
    fields := [{ lsb := 0, width := 16, acc := .RO }] },
  -- MOT.CMP.CLR (R130)
  { addr := 0x42010, dims := [], pair := false, gate := .configure,
    fields := [{ lsb := 0, width := 1, acc := .WO }] },
  -- MOT.LIM[g][j].V_A_J (R130)
  { addr := 0x44000, dims := [(8, 0x100), (16, 0x10), (3, 0x4)], pair := false, gate := .group,
    fields := [{ lsb := 0, width := 32, acc := .RWC, reset := 65536 }] },
  -- MOT.CMPV[i].WORD (R130)
  { addr := 0x50000, dims := [(1024, 0x20), (8, 0x4)], pair := false, gate := .configure,
    fields := [{ lsb := 0, width := 32, acc := .RO }] },
  -- MOT.MODEL[g].GRAVITY (R119)
  { addr := 0x60000, dims := [(8, 0x1000), (3, 0x4)], pair := false, gate := .group,
    fields := [{ lsb := 0, width := 32, acc := .RWC }] },
  -- MOT.MODEL[g].COUNT (R119)
  { addr := 0x6000c, dims := [(8, 0x1000)], pair := false, gate := .group,
    fields := [{ lsb := 0, width := 8, acc := .RWC, lo := 1, hi := 16 },
      { lsb := 8, width := 8, acc := .RW, hi := 16 }] },
  -- MOT.MODEL[g].PL_MASS (R119)
  { addr := 0x60010, dims := [(8, 0x1000)], pair := false, gate := .group,
    fields := [{ lsb := 0, width := 32, acc := .RW }] },
  -- MOT.MODEL[g].PL_COM (R119)
  { addr := 0x60014, dims := [(8, 0x1000), (3, 0x4)], pair := false, gate := .group,
    fields := [{ lsb := 0, width := 32, acc := .RW }] },
  -- MOT.MODEL[g].PL_INERTIA (R119)
  { addr := 0x60020, dims := [(8, 0x1000), (6, 0x4)], pair := false, gate := .group,
    fields := [{ lsb := 0, width := 32, acc := .RW }] },
  -- MOT.MODEL[g].KIND (R119)
  { addr := 0x60100, dims := [(8, 0x1000), (16, 0x80)], pair := false, gate := .group,
    fields := [{ lsb := 0, width := 8, acc := .RWC, hi := 1 },
      { lsb := 8, width := 8, acc := .RWC }] },
  -- MOT.MODEL[g].ORIGIN (R119)
  { addr := 0x60104, dims := [(8, 0x1000), (16, 0x80), (3, 0x4)], pair := false, gate := .group,
    fields := [{ lsb := 0, width := 32, acc := .RWC }] },
  -- MOT.MODEL[g].ROT (R119)
  { addr := 0x60110, dims := [(8, 0x1000), (16, 0x80), (9, 0x4)], pair := false, gate := .group,
    fields := [{ lsb := 0, width := 32, acc := .RWC }] }]

/-- Registers of block MOT (04_motion_programs.md), part 4. -/
def regsMOT3 : List RegDesc := [
  -- MOT.MODEL[g].MASS (R119)
  { addr := 0x60134, dims := [(8, 0x1000), (16, 0x80)], pair := false, gate := .group,
    fields := [{ lsb := 0, width := 32, acc := .RWC }] },
  -- MOT.MODEL[g].COM (R119)
  { addr := 0x60138, dims := [(8, 0x1000), (16, 0x80), (3, 0x4)], pair := false, gate := .group,
    fields := [{ lsb := 0, width := 32, acc := .RWC }] },
  -- MOT.MODEL[g].INERTIA (R119)
  { addr := 0x60144, dims := [(8, 0x1000), (16, 0x80), (6, 0x4)], pair := false, gate := .group,
    fields := [{ lsb := 0, width := 32, acc := .RWC }] },
  -- MOT.MODEL[g].ROTOR (R119)
  { addr := 0x6015c, dims := [(8, 0x1000), (16, 0x80)], pair := false, gate := .group,
    fields := [{ lsb := 0, width := 32, acc := .RWC }] },
  -- MOT.MODEL[g].FV (R119)
  { addr := 0x60160, dims := [(8, 0x1000), (16, 0x80)], pair := false, gate := .group,
    fields := [{ lsb := 0, width := 32, acc := .RWC }] },
  -- MOT.MODEL[g].FC (R119)
  { addr := 0x60164, dims := [(8, 0x1000), (16, 0x80)], pair := false, gate := .group,
    fields := [{ lsb := 0, width := 32, acc := .RWC }] },
  -- MOT.MODEL[g].KI (R119)
  { addr := 0x60168, dims := [(8, 0x1000), (16, 0x80)], pair := false, gate := .group,
    fields := [{ lsb := 0, width := 32, acc := .RWC }] }]

/-- All registers of block MOT. -/
def regsMOT : List RegDesc := regsMOT0 ++ regsMOT1 ++ regsMOT2 ++ regsMOT3

/-- Registers of block PWM (05_pwm_slices.md), part 1. -/
def regsPWM0 : List RegDesc := [
  -- PWM.S[n].CTRL (R159)
  { addr := 0x100000, dims := [(64, 0x400)], pair := false, gate := .slice,
    fields := [{ lsb := 0, width := 16, acc := .RWC, reset := 3125 },
      { lsb := 16, width := 6, acc := .RWC },
      { lsb := 22, width := 1, acc := .RWC }] },
  -- PWM.S[n].CFG (R159)
  { addr := 0x100004, dims := [(64, 0x400)], pair := false, gate := .slice,
    fields := [{ lsb := 0, width := 1, acc := .RWC },
      { lsb := 1, width := 1, acc := .RWC },
      { lsb := 2, width := 1, acc := .RWC, reset := 1 },
      { lsb := 3, width := 1, acc := .RWC },
      { lsb := 4, width := 4, acc := .RWC },
      { lsb := 8, width := 2, acc := .RWC, reset := 1 }] },
  -- PWM.S[n].PERIOD (R159)
  { addr := 0x100008, dims := [(64, 0x400)], pair := false, gate := .slice,
    fields := [{ lsb := 0, width := 16, acc := .RW, reset := 25000, lo := 250, hi := 65535 }] },
  -- PWM.S[n].DUTYMAX (R159)
  { addr := 0x10000c, dims := [(64, 0x400)], pair := false, gate := .slice,
    fields := [{ lsb := 0, width := 11, acc := .RWC, hi := 1024 }] },
  -- PWM.S[n].DUTY (R159)
  { addr := 0x100010, dims := [(64, 0x400), (4, 0x4)], pair := false, gate := .slice,
    fields := [{ lsb := 0, width := 16, acc := .RW },
      { lsb := 16, width := 6, acc := .RW }] },
  -- PWM.S[n].COMMIT (R159)
  { addr := 0x100020, dims := [(64, 0x400)], pair := false, gate := .slice,
    fields := [{ lsb := 0, width := 1, acc := .WO }] },
  -- PWM.S[n].ACT_PERIOD (R159)
  { addr := 0x100024, dims := [(64, 0x400)], pair := false, gate := .slice,
    fields := [{ lsb := 0, width := 16, acc := .RO, reset := 25000 }] },
  -- PWM.S[n].ACT_DUTY (R159)
  { addr := 0x100028, dims := [(64, 0x400), (4, 0x4)], pair := false, gate := .slice,
    fields := [{ lsb := 0, width := 22, acc := .RO }] },
  -- PWM.S[n].STATUS (R159)
  { addr := 0x100040, dims := [(64, 0x400)], pair := false, gate := .slice,
    fields := [{ lsb := 0, width := 1, acc := .W1C },
      { lsb := 1, width := 1, acc := .W1C },
      { lsb := 2, width := 1, acc := .W1C },
      { lsb := 3, width := 1, acc := .W1C },
      { lsb := 4, width := 1, acc := .RO },
      { lsb := 5, width := 1, acc := .RO },
      { lsb := 6, width := 1, acc := .RO },
      { lsb := 7, width := 1, acc := .RO },
      { lsb := 8, width := 4, acc := .RO },
      { lsb := 12, width := 3, acc := .RO }] },
  -- PWM.S[n].CNT (R159)
  { addr := 0x100044, dims := [(64, 0x400)], pair := false, gate := .slice,
    fields := [{ lsb := 0, width := 16, acc := .RO },
      { lsb := 16, width := 16, acc := .RO }] },
  -- PWM.S[n].COUNT (R159)
  { addr := 0x100048, dims := [(64, 0x400)], pair := false, gate := .slice,
    fields := [{ lsb := 0, width := 16, acc := .RO },
      { lsb := 16, width := 4, acc := .RO }] },
  -- PWM.S[n].CLR (R159)
  { addr := 0x10004c, dims := [(64, 0x400)], pair := false, gate := .slice,
    fields := [{ lsb := 0, width := 1, acc := .WO }] }]

/-- Registers of block PWM (05_pwm_slices.md), part 2. -/
def regsPWM1 : List RegDesc := [
  -- PWM.S[n].COMMUT (R159)
  { addr := 0x100080, dims := [(64, 0x400), (8, 0x4)], pair := false, gate := .slice,
    fields := [{ lsb := 0, width := 2, acc := .RWC, bad := [3] },
      { lsb := 2, width := 2, acc := .RWC, bad := [3] },
      { lsb := 4, width := 2, acc := .RWC, bad := [3] },
      { lsb := 6, width := 2, acc := .RWC, bad := [3] }] },
  -- PWM.BANK[b].OFFSET (R159)
  { addr := 0x110000, dims := [(8, 0x40)], pair := false, gate := .bankRate,
    fields := [{ lsb := 0, width := 16, acc := .RWC }] },
  -- PWM.BANK[b].SYNC (R159)
  { addr := 0x110004, dims := [(8, 0x40)], pair := false, gate := .bankRate,
    fields := [{ lsb := 0, width := 1, acc := .RO },
      { lsb := 16, width := 16, acc := .RO }] },
  -- PWM.BANK[b].CAL (R159)
  { addr := 0x110008, dims := [(8, 0x40)], pair := false, gate := .bankRate,
    fields := [{ lsb := 0, width := 7, acc := .RO },
      { lsb := 8, width := 8, acc := .RO },
      { lsb := 16, width := 16, acc := .RO }] }]

/-- All registers of block PWM. -/
def regsPWM : List RegDesc := regsPWM0 ++ regsPWM1

/-- Registers of block ADC (06_current_sensing.md), part 1. -/
def regsADC0 : List RegDesc := [
  -- ADC.CV[c].SEQ_CFG (R180)
  { addr := 0x140000, dims := [(25, 0x400), (16, 0x8)], pair := false, gate := .conv,
    fields := [{ lsb := 0, width := 4, acc := .RWC },
      { lsb := 4, width := 2, acc := .RW },
      { lsb := 6, width := 2, acc := .RW },
      { lsb := 8, width := 4, acc := .RWC, bad := [11, 12, 13, 14, 15] },
      { lsb := 12, width := 3, acc := .RWC },
      { lsb := 16, width := 16, acc := .RWC }] },
  -- ADC.CV[c].SEQ_DEST (R180)
  { addr := 0x140004, dims := [(25, 0x400), (16, 0x8)], pair := false, gate := .conv,
    fields := [{ lsb := 0, width := 8, acc := .RWC },
      { lsb := 8, width := 3, acc := .RWC }] },
  -- ADC.CV[c].RES (R180)
  { addr := 0x140100, dims := [(25, 0x400), (16, 0x4)], pair := false, gate := .conv,
    fields := [{ lsb := 0, width := 32, acc := .RO }] },
  -- ADC.CV[c].STAMP (R180)
  { addr := 0x140180, dims := [(25, 0x400), (16, 0x8)], pair := true, gate := .conv,
    fields := [{ lsb := 0, width := 64, acc := .RO }] },
  -- ADC.CV[c].STATUS (R180)
  { addr := 0x140200, dims := [(25, 0x400)], pair := false, gate := .conv,
    fields := [{ lsb := 0, width := 1, acc := .RO },
      { lsb := 1, width := 1, acc := .RO },
      { lsb := 2, width := 1, acc := .W1C },
      { lsb := 3, width := 1, acc := .RO }] },
  -- ADC.CV[c].CNT (R180)
  { addr := 0x140204, dims := [(25, 0x400)], pair := false, gate := .conv,
    fields := [{ lsb := 0, width := 16, acc := .RO },
      { lsb := 16, width := 16, acc := .RO }] },
  -- ADC.CV[c].CNT2 (R180)
  { addr := 0x140208, dims := [(25, 0x400)], pair := false, gate := .conv,
    fields := [{ lsb := 0, width := 16, acc := .RO }] },
  -- ADC.CV[c].CLR (R180)
  { addr := 0x14020c, dims := [(25, 0x400)], pair := false, gate := .conv,
    fields := [{ lsb := 0, width := 1, acc := .WO }] },
  -- ADC.OC[s].TH (R180)
  { addr := 0x148000, dims := [(64, 0x20), (2, 0x4)], pair := false, gate := .slice,
    fields := [{ lsb := 0, width := 12, acc := .RWC, reset := 4095 },
      { lsb := 16, width := 12, acc := .RWC }] },
  -- ADC.OC[s].CFG (R180)
  { addr := 0x148008, dims := [(64, 0x20)], pair := false, gate := .slice,
    fields := [{ lsb := 0, width := 1, acc := .RWC, reset := 1 },
      { lsb := 1, width := 1, acc := .RWC, reset := 1 },
      { lsb := 8, width := 5, acc := .RWC, reset := 8 }] },
  -- ADC.OC[s].TRIP (R180)
  { addr := 0x14800c, dims := [(64, 0x20)], pair := false, gate := .slice,
    fields := [{ lsb := 0, width := 4, acc := .RO },
      { lsb := 4, width := 1, acc := .RO },
      { lsb := 5, width := 1, acc := .RO },
      { lsb := 8, width := 1, acc := .WO }] },
  -- ADC.OC[s].CNT (R180)
  { addr := 0x148010, dims := [(64, 0x20)], pair := false, gate := .slice,
    fields := [{ lsb := 0, width := 16, acc := .RO }] }]

/-- Registers of block ADC (06_current_sensing.md), part 2. -/
def regsADC1 : List RegDesc := [
  -- ADC.OCB[b].STAT (R180)
  { addr := 0x149000, dims := [(8, 0x10)], pair := false, gate := .configure,
    fields := [{ lsb := 0, width := 1, acc := .RO },
      { lsb := 4, width := 4, acc := .RO, reset := 15 },
      { lsb := 16, width := 16, acc := .RO }] }]

/-- All registers of block ADC. -/
def regsADC : List RegDesc := regsADC0 ++ regsADC1

/-- Registers of block FBK (07_feedback.md), part 1. -/
def regsFBK0 : List RegDesc := [
  -- FBK.S[s].CFG (R209)
  { addr := 0x180000, dims := [(64, 0x100)], pair := false, gate := .slice,
    fields := [{ lsb := 0, width := 3, acc := .RWC, bad := [6, 7] },
      { lsb := 3, width := 1, acc := .RWC },
      { lsb := 4, width := 2, acc := .RWC, bad := [3] },
      { lsb := 6, width := 2, acc := .RWC, reset := 2 },
      { lsb := 8, width := 1, acc := .RWC },
      { lsb := 9, width := 1, acc := .RWC },
      { lsb := 10, width := 1, acc := .RWC },
      { lsb := 11, width := 1, acc := .RWC },
      { lsb := 12, width := 4, acc := .RWC }] },
  -- FBK.S[s].FILT (R209)
  { addr := 0x180004, dims := [(64, 0x100)], pair := false, gate := .slice,
    fields := [{ lsb := 0, width := 8, acc := .RWC, reset := 4 },
      { lsb := 8, width := 8, acc := .RWC, reset := 4 },
      { lsb := 16, width := 8, acc := .RWC, reset := 4 }] },
  -- FBK.S[s].SPD (R209)
  { addr := 0x180008, dims := [(64, 0x100)], pair := false, gate := .slice,
    fields := [{ lsb := 0, width := 16, acc := .RWC, reset := 10000, lo := 1, hi := 65535 },
      { lsb := 16, width := 16, acc := .RWC, reset := 100, lo := 1, hi := 65535 }] },
  -- FBK.S[s].SER (R209)
  { addr := 0x18000c, dims := [(64, 0x100)], pair := false, gate := .slice,
    fields := [{ lsb := 0, width := 6, acc := .RWC, reset := 13, lo := 1, hi := 32 },
      { lsb := 6, width := 5, acc := .RWC, reset := 12, hi := 16 },
      { lsb := 11, width := 1, acc := .RWC },
      { lsb := 12, width := 2, acc := .RWC, bad := [3] },
      { lsb := 14, width := 3, acc := .RWC },
      { lsb := 17, width := 8, acc := .RWC, reset := 32, lo := 1, hi := 255 }] },
  -- FBK.S[s].SERT (R209)
  { addr := 0x180010, dims := [(64, 0x100)], pair := false, gate := .slice,
    fields := [{ lsb := 0, width := 11, acc := .RWC, reset := 100, lo := 20, hi := 2000 },
      { lsb := 16, width := 8, acc := .RWC, reset := 20, lo := 1, hi := 255 },
      { lsb := 24, width := 8, acc := .RWC }] },
  -- FBK.S[s].LATCH (R209)
  { addr := 0x180014, dims := [(64, 0x100)], pair := false, gate := .slice,
    fields := [{ lsb := 0, width := 4, acc := .RWC, bad := [11, 12, 13, 14, 15] },
      { lsb := 16, width := 16, acc := .RWC }] },
  -- FBK.S[s].DEST (R209)
  { addr := 0x180018, dims := [(64, 0x100)], pair := false, gate := .slice,
    fields := [{ lsb := 0, width := 8, acc := .RWC },
      { lsb := 8, width := 3, acc := .RWC },
      { lsb := 12, width := 3, acc := .RWC },
      { lsb := 16, width := 3, acc := .RWC },
      { lsb := 11, width := 1, acc := .RWC },
      { lsb := 15, width := 1, acc := .RWC },
      { lsb := 19, width := 1, acc := .RWC }] },
  -- FBK.S[s].ATTN (R209)
  { addr := 0x18001c, dims := [(64, 0x100)], pair := false, gate := .slice,
    fields := [{ lsb := 0, width := 8, acc := .RWC },
      { lsb := 8, width := 3, acc := .RWC }] },
  -- FBK.S[s].IDXVAL (R209)
  { addr := 0x180020, dims := [(64, 0x100)], pair := false, gate := .slice,
    fields := [{ lsb := 0, width := 32, acc := .RWC }] },
  -- FBK.S[s].CTL (R209)
  { addr := 0x180024, dims := [(64, 0x100)], pair := false, gate := .slice,
    fields := [{ lsb := 0, width := 1, acc := .WO },
      { lsb := 1, width := 1, acc := .WO }] },
  -- FBK.S[s].PRESET (R209)
  { addr := 0x180028, dims := [(64, 0x100)], pair := false, gate := .slice,
    fields := [{ lsb := 0, width := 32, acc := .RW }] },
  -- FBK.S[s].ERRCFG (R209)
  { addr := 0x18002c, dims := [(64, 0x100)], pair := false, gate := .slice,
    fields := [{ lsb := 0, width := 7, acc := .RWC, reset := 127 },
      { lsb := 8, width := 4, acc := .RWC, reset := 3, lo := 1, hi := 15 }] }]

/-- Registers of block FBK (07_feedback.md), part 2. -/
def regsFBK1 : List RegDesc := [
  -- FBK.S[s].MAXSTEP (R209)
  { addr := 0x180030, dims := [(64, 0x100)], pair := false, gate := .slice,
    fields := [{ lsb := 0, width := 32, acc := .RWC }] },
  -- FBK.S[s].POS (R209)
  { addr := 0x180034, dims := [(64, 0x100)], pair := false, gate := .slice,
    fields := [{ lsb := 0, width := 32, acc := .RO }] },
  -- FBK.S[s].SPEED (R209)
  { addr := 0x180038, dims := [(64, 0x100)], pair := false, gate := .slice,
    fields := [{ lsb := 0, width := 32, acc := .RO }] },
  -- FBK.S[s].FSTAT (R209)
  { addr := 0x18003c, dims := [(64, 0x100)], pair := false, gate := .slice,
    fields := [{ lsb := 0, width := 3, acc := .RO, bad := [5, 6, 7] },
      { lsb := 3, width := 1, acc := .RO },
      { lsb := 4, width := 1, acc := .RO },
      { lsb := 5, width := 1, acc := .RO },
      { lsb := 6, width := 1, acc := .RO },
      { lsb := 7, width := 1, acc := .RO },
      { lsb := 8, width := 3, acc := .RO },
      { lsb := 11, width := 1, acc := .RO }] },
  -- FBK.S[s].STATUS (R209)
  { addr := 0x180040, dims := [(64, 0x100)], pair := false, gate := .slice,
    fields := [{ lsb := 0, width := 1, acc := .W1C },
      { lsb := 1, width := 1, acc := .W1C },
      { lsb := 2, width := 1, acc := .W1C }] },
  -- FBK.S[s].ERR (R209)
  { addr := 0x180044, dims := [(64, 0x100)], pair := false, gate := .slice,
    fields := [{ lsb := 0, width := 8, acc := .W1C },
      { lsb := 16, width := 4, acc := .RO }] },
  -- FBK.S[s].MTPOS (R209)
  { addr := 0x180048, dims := [(64, 0x100)], pair := true, gate := .slice,
    fields := [{ lsb := 0, width := 64, acc := .RO }] },
  -- FBK.S[s].STAMP (R209)
  { addr := 0x180050, dims := [(64, 0x100)], pair := true, gate := .slice,
    fields := [{ lsb := 0, width := 64, acc := .RO }] },
  -- FBK.S[s].EDGE_STAMP (R209)
  { addr := 0x180058, dims := [(64, 0x100)], pair := true, gate := .slice,
    fields := [{ lsb := 0, width := 64, acc := .RO }] },
  -- FBK.S[s].IDXSTAMP (R209)
  { addr := 0x180060, dims := [(64, 0x100)], pair := true, gate := .slice,
    fields := [{ lsb := 0, width := 64, acc := .RO }] },
  -- FBK.S[s].IDXPOS (R209)
  { addr := 0x180068, dims := [(64, 0x100)], pair := false, gate := .slice,
    fields := [{ lsb := 0, width := 32, acc := .RO }] },
  -- FBK.S[s].CNT (R209)
  { addr := 0x18006c, dims := [(64, 0x100)], pair := false, gate := .slice,
    fields := [{ lsb := 0, width := 16, acc := .RO },
      { lsb := 16, width := 16, acc := .RO }] }]

/-- Registers of block FBK (07_feedback.md), part 3. -/
def regsFBK2 : List RegDesc := [
  -- FBK.S[s].CNT2 (R209)
  { addr := 0x180070, dims := [(64, 0x100)], pair := false, gate := .slice,
    fields := [{ lsb := 0, width := 16, acc := .RO }] },
  -- FBK.S[s].CLR (R209)
  { addr := 0x180074, dims := [(64, 0x100)], pair := false, gate := .slice,
    fields := [{ lsb := 0, width := 1, acc := .WO }] },
  -- FBK.S[s].BDELAY (R209)
  { addr := 0x180078, dims := [(64, 0x100)], pair := false, gate := .slice,
    fields := [{ lsb := 0, width := 16, acc := .RO }] },
  -- FBK.EMU[b].CFG (R209)
  { addr := 0x190000, dims := [(8, 0x40)], pair := false, gate := .emu,
    fields := [{ lsb := 0, width := 1, acc := .RW },
      { lsb := 1, width := 1, acc := .RWC },
      { lsb := 2, width := 6, acc := .RWC },
      { lsb := 8, width := 4, acc := .RWC },
      { lsb := 12, width := 1, acc := .RWC }] },
  -- FBK.EMU[b].MINSEP (R209)
  { addr := 0x19000c, dims := [(8, 0x40)], pair := false, gate := .emu,
    fields := [{ lsb := 0, width := 16, acc := .RWC, reset := 40, lo := 2, hi := 65535 }] },
  -- FBK.EMU[b].ZPER (R209)
  { addr := 0x190010, dims := [(8, 0x40)], pair := false, gate := .emu,
    fields := [{ lsb := 0, width := 32, acc := .RWC }] },
  -- FBK.EMU[b].ZPOS (R209)
  { addr := 0x190014, dims := [(8, 0x40)], pair := false, gate := .emu,
    fields := [{ lsb := 0, width := 32, acc := .RWC }] },
  -- FBK.EMU[b].BACKLOG (R209)
  { addr := 0x190018, dims := [(8, 0x40)], pair := false, gate := .emu,
    fields := [{ lsb := 0, width := 32, acc := .RO }] },
  -- FBK.EMU[b].STAT (R209)
  { addr := 0x19001c, dims := [(8, 0x40)], pair := false, gate := .emu,
    fields := [{ lsb := 0, width := 1, acc := .RO }] },
  -- FBK.EMU[b].EMITTED (R209)
  { addr := 0x190020, dims := [(8, 0x40)], pair := true, gate := .emu,
    fields := [{ lsb := 0, width := 64, acc := .RO }] },
  -- FBK.EMU[b].SCALE (R209)
  { addr := 0x190028, dims := [(8, 0x40)], pair := true, gate := .emu,
    fields := [{ lsb := 0, width := 64, acc := .RWC, reset := 4294967296 }] }]

/-- All registers of block FBK. -/
def regsFBK : List RegDesc := regsFBK0 ++ regsFBK1 ++ regsFBK2

/-- Registers of block HWK (09_hawker.md), part 1. -/
def regsHWK0 : List RegDesc := [
  -- HWK.ST[n].CFG (R261)
  { addr := 0x200000, dims := [(256, 0x80)], pair := false, gate := .stall,
    fields := [{ lsb := 0, width := 1, acc := .RWC },
      { lsb := 1, width := 1, acc := .RWC },
      { lsb := 2, width := 1, acc := .RWC },
      { lsb := 4, width := 4, acc := .RWC, reset := 15 },
      { lsb := 8, width := 8, acc := .RWC },
      { lsb := 16, width := 4, acc := .RWC, reset := 8, bad := [9, 10, 11, 12, 13, 14, 15] }] },
  -- HWK.ST[n].ENTRY (R261)
  { addr := 0x200004, dims := [(256, 0x80)], pair := false, gate := .stall,
    fields := [{ lsb := 0, width := 16, acc := .RWC }] },
  -- HWK.ST[n].CORES (R261)
  { addr := 0x200008, dims := [(256, 0x80)], pair := false, gate := .stall,
    fields := [{ lsb := 0, width := 12, acc := .RWC, reset := 4095 }] },
  -- HWK.ST[n].DEADLINE (R261)
  { addr := 0x20000c, dims := [(256, 0x80)], pair := false, gate := .stall,
    fields := [{ lsb := 0, width := 2, acc := .RWC, bad := [3] },
      { lsb := 2, width := 6, acc := .RWC },
      { lsb := 8, width := 24, acc := .RWC }] },
  -- HWK.ST[n].STATE (R261)
  { addr := 0x200010, dims := [(256, 0x80)], pair := false, gate := .stall,
    fields := [{ lsb := 0, width := 3, acc := .RO },
      { lsb := 3, width := 1, acc := .W1C },
      { lsb := 4, width := 1, acc := .W1C },
      { lsb := 5, width := 1, acc := .W1C },
      { lsb := 8, width := 8, acc := .RO },
      { lsb := 16, width := 4, acc := .RO, reset := 15 }] },
  -- HWK.ST[n].CTL (R261)
  { addr := 0x200014, dims := [(256, 0x80)], pair := false, gate := .stall,
    fields := [{ lsb := 0, width := 1, acc := .WO }] },
  -- HWK.ST[n].WAIT_LAST (R261)
  { addr := 0x200018, dims := [(256, 0x80)], pair := false, gate := .stall,
    fields := [{ lsb := 0, width := 32, acc := .RO }] },
  -- HWK.ST[n].WAIT_MAX (R261)
  { addr := 0x20001c, dims := [(256, 0x80)], pair := false, gate := .stall,
    fields := [{ lsb := 0, width := 32, acc := .RO }] },
  -- HWK.ST[n].CNT1 (R261)
  { addr := 0x200020, dims := [(256, 0x80)], pair := false, gate := .stall,
    fields := [{ lsb := 0, width := 16, acc := .RO },
      { lsb := 16, width := 16, acc := .RO }] },
  -- HWK.ST[n].CNT2 (R261)
  { addr := 0x200024, dims := [(256, 0x80)], pair := false, gate := .stall,
    fields := [{ lsb := 0, width := 16, acc := .RO },
      { lsb := 16, width := 16, acc := .RO }] },
  -- HWK.ST[n].RUNS (R261)
  { addr := 0x200028, dims := [(256, 0x80)], pair := false, gate := .stall,
    fields := [{ lsb := 0, width := 32, acc := .RO }] },
  -- HWK.ST[n].SLOT (R261)
  { addr := 0x200040, dims := [(256, 0x80), (8, 0x4)], pair := false, gate := .stall,
    fields := [{ lsb := 0, width := 32, acc := .RO }] }]

/-- Registers of block HWK (09_hawker.md), part 2. -/
def regsHWK1 : List RegDesc := [
  -- HWK.ST[n].CLR (R261)
  { addr := 0x200060, dims := [(256, 0x80)], pair := false, gate := .stall,
    fields := [{ lsb := 0, width := 1, acc := .WO }] },
  -- HWK.LVL[p].DEPTH (R261)
  { addr := 0x208000, dims := [(16, 0x4)], pair := false, gate := .configure,
    fields := [{ lsb := 0, width := 16, acc := .RO },
      { lsb := 16, width := 16, acc := .RO }] },
  -- HWK.CORE[c].STATUS (R261)
  { addr := 0x208100, dims := [(12, 0x20)], pair := false, gate := .configure,
    fields := [{ lsb := 0, width := 3, acc := .RO, bad := [7] },
      { lsb := 8, width := 8, acc := .RO },
      { lsb := 16, width := 2, acc := .RO }] },
  -- HWK.CORE[c].HEALTH (R261)
  { addr := 0x208104, dims := [(12, 0x20)], pair := false, gate := .configure,
    fields := [{ lsb := 0, width := 1, acc := .RO },
      { lsb := 1, width := 1, acc := .RO },
      { lsb := 2, width := 1, acc := .RO },
      { lsb := 8, width := 8, acc := .RO },
      { lsb := 16, width := 8, acc := .RO },
      { lsb := 24, width := 8, acc := .RO }] },
  -- HWK.CORE[c].BUSY (R261)
  { addr := 0x208108, dims := [(12, 0x20)], pair := false, gate := .configure,
    fields := [{ lsb := 0, width := 20, acc := .RO }] },
  -- HWK.CORE[c].BUSY_MAX (R261)
  { addr := 0x20810c, dims := [(12, 0x20)], pair := false, gate := .configure,
    fields := [{ lsb := 0, width := 20, acc := .RO }] },
  -- HWK.CORE[c].IDLE (R261)
  { addr := 0x208110, dims := [(12, 0x20)], pair := false, gate := .configure,
    fields := [{ lsb := 0, width := 16, acc := .RWC }] },
  -- HWK.CORE[c].CTL (R261)
  { addr := 0x208114, dims := [(12, 0x20)], pair := false, gate := .configure,
    fields := [{ lsb := 0, width := 1, acc := .WO }] },
  -- HWK.CFG (R261)
  { addr := 0x208400, dims := [], pair := false, gate := .configure,
    fields := [{ lsb := 0, width := 4, acc := .RWC, reset := 7 },
      { lsb := 4, width := 1, acc := .RWC, reset := 1 }] },
  -- HWK.MISSDEST (R261)
  { addr := 0x208404, dims := [], pair := false, gate := .configure,
    fields := [{ lsb := 0, width := 8, acc := .RWC },
      { lsb := 8, width := 3, acc := .RWC }] },
  -- HWK.STAT (R261)
  { addr := 0x208408, dims := [], pair := false, gate := .configure,
    fields := [{ lsb := 0, width := 16, acc := .RO },
      { lsb := 16, width := 16, acc := .RO }] },
  -- HWK.CLR (R261)
  { addr := 0x20840c, dims := [], pair := false, gate := .configure,
    fields := [{ lsb := 0, width := 1, acc := .WO }] }]

/-- All registers of block HWK. -/
def regsHWK : List RegDesc := regsHWK0 ++ regsHWK1

/-- Registers of block LC (10_loop_core_isa.md), part 1. -/
def regsLC0 : List RegDesc := [
  -- LC.CORE[c].STATUS (R295)
  { addr := 0x240000, dims := [(12, 0x400)], pair := false, gate := .configure,
    fields := [{ lsb := 0, width := 16, acc := .RO },
      { lsb := 16, width := 1, acc := .RO },
      { lsb := 17, width := 1, acc := .RO },
      { lsb := 18, width := 2, acc := .RO }] },
  -- LC.CORE[c].FAULT (R295)
  { addr := 0x240004, dims := [(12, 0x400)], pair := false, gate := .configure,
    fields := [{ lsb := 0, width := 4, acc := .RO },
      { lsb := 8, width := 8, acc := .RO }] },
  -- LC.CORE[c].FAULT_PC (R295)
  { addr := 0x240008, dims := [(12, 0x400)], pair := false, gate := .configure,
    fields := [{ lsb := 0, width := 16, acc := .RO }] },
  -- LC.CORE[c].FCNT (R295)
  { addr := 0x24000c, dims := [(12, 0x400)], pair := false, gate := .configure,
    fields := [{ lsb := 0, width := 16, acc := .RO },
      { lsb := 16, width := 16, acc := .RO }] },
  -- LC.CORE[c].ISSUED (R295)
  { addr := 0x240010, dims := [(12, 0x400)], pair := false, gate := .configure,
    fields := [{ lsb := 0, width := 32, acc := .RO }] },
  -- LC.CORE[c].STALLED (R295)
  { addr := 0x240014, dims := [(12, 0x400)], pair := false, gate := .configure,
    fields := [{ lsb := 0, width := 32, acc := .RO }] },
  -- LC.CORE[c].DBG (R295)
  { addr := 0x240018, dims := [(12, 0x400)], pair := false, gate := .configure,
    fields := [{ lsb := 0, width := 1, acc := .WO },
      { lsb := 1, width := 1, acc := .WO },
      { lsb := 2, width := 1, acc := .WO },
      { lsb := 3, width := 1, acc := .RW }] },
  -- LC.CORE[c].CLR (R295)
  { addr := 0x24001c, dims := [(12, 0x400)], pair := false, gate := .configure,
    fields := [{ lsb := 0, width := 1, acc := .WO }] },
  -- LC.CORE[c].DREG (R295)
  { addr := 0x240200, dims := [(12, 0x400), (96, 0x4)], pair := false, gate := .configure,
    fields := [{ lsb := 0, width := 32, acc := .RW }] },
  -- LC.RHALT (R295)
  { addr := 0x248000, dims := [], pair := false, gate := .configure,
    fields := [{ lsb := 0, width := 1, acc := .WO },
      { lsb := 1, width := 1, acc := .WO },
      { lsb := 2, width := 1, acc := .RO }] }]

/-- All registers of block LC. -/
def regsLC : List RegDesc := regsLC0

/-- Registers of block SAF (11_separation_safety.md), part 1. -/
def regsSAF0 : List RegDesc := [
  -- SAF.STATUS (R339)
  { addr := 0x280000, dims := [], pair := false, gate := .configure,
    fields := [{ lsb := 0, width := 1, acc := .RO },
      { lsb := 1, width := 1, acc := .RO },
      { lsb := 2, width := 1, acc := .RO },
      { lsb := 3, width := 1, acc := .RO },
      { lsb := 4, width := 4, acc := .RO, bad := [7, 8, 9, 10, 11, 12, 13, 14, 15] }] },
  -- SAF.IMG_REV (R339)
  { addr := 0x280004, dims := [], pair := false, gate := .configure,
    fields := [{ lsb := 0, width := 32, acc := .RO }] },
  -- SAF.IMG_DIGEST (R339)
  { addr := 0x280010, dims := [(8, 0x4)], pair := false, gate := .configure,
    fields := [{ lsb := 0, width := 32, acc := .RO }] },
  -- SAF.CYCLES (R339)
  { addr := 0x280030, dims := [], pair := false, gate := .configure,
    fields := [{ lsb := 0, width := 32, acc := .RO }] },
  -- SAF.TIMING (R339)
  { addr := 0x280034, dims := [], pair := false, gate := .configure,
    fields := [{ lsb := 0, width := 16, acc := .RO },
      { lsb := 16, width := 16, acc := .RO }] },
  -- SAF.DISAGREE (R339)
  { addr := 0x280038, dims := [], pair := false, gate := .configure,
    fields := [{ lsb := 0, width := 16, acc := .RO },
      { lsb := 16, width := 16, acc := .RO }] },
  -- SAF.VIOL (R339)
  { addr := 0x28003c, dims := [], pair := false, gate := .configure,
    fields := [{ lsb := 0, width := 16, acc := .RO },
      { lsb := 16, width := 16, acc := .RO }] },
  -- SAF.G[g].FACTOR (R339)
  { addr := 0x280100, dims := [(8, 0x20)], pair := false, gate := .configure,
    fields := [{ lsb := 0, width := 11, acc := .RO },
      { lsb := 16, width := 16, acc := .RO }] },
  -- SAF.G[g].STAT (R339)
  { addr := 0x280104, dims := [(8, 0x20)], pair := false, gate := .configure,
    fields := [{ lsb := 0, width := 1, acc := .RO },
      { lsb := 1, width := 1, acc := .RO, reset := 1 },
      { lsb := 2, width := 1, acc := .RO },
      { lsb := 3, width := 1, acc := .RO },
      { lsb := 4, width := 1, acc := .RO },
      { lsb := 8, width := 4, acc := .RO }] },
  -- SAF.G[g].TCP (R339)
  { addr := 0x280108, dims := [(8, 0x20)], pair := false, gate := .configure,
    fields := [{ lsb := 0, width := 16, acc := .RO },
      { lsb := 16, width := 16, acc := .RO }] },
  -- SAF.G[g].VCAP (R339)
  { addr := 0x28010c, dims := [(8, 0x20)], pair := false, gate := .configure,
    fields := [{ lsb := 0, width := 16, acc := .RO }] },
  -- SAF.G[g].CNT (R339)
  { addr := 0x280110, dims := [(8, 0x20)], pair := false, gate := .configure,
    fields := [{ lsb := 0, width := 16, acc := .RO },
      { lsb := 16, width := 16, acc := .RO }] }]

/-- Registers of block SAF (11_separation_safety.md), part 2. -/
def regsSAF1 : List RegDesc := [
  -- SAF.STO (R339)
  { addr := 0x280200, dims := [], pair := false, gate := .configure,
    fields := [{ lsb := 0, width := 8, acc := .RO },
      { lsb := 8, width := 8, acc := .RO },
      { lsb := 16, width := 8, acc := .RO }] },
  -- SAF.SIN (R339)
  { addr := 0x280204, dims := [], pair := false, gate := .configure,
    fields := [{ lsb := 0, width := 16, acc := .RO },
      { lsb := 16, width := 16, acc := .RO }] },
  -- SAF.BRK (R339)
  { addr := 0x280210, dims := [], pair := true, gate := .configure,
    fields := [{ lsb := 0, width := 64, acc := .RO }] },
  -- SAF.BRKF (R339)
  { addr := 0x280218, dims := [], pair := true, gate := .configure,
    fields := [{ lsb := 0, width := 64, acc := .RO }] },
  -- SAF.PITCH[k].W (R339)
  { addr := 0x280300, dims := [(64, 0x4)], pair := false, gate := .configure,
    fields := [{ lsb := 0, width := 3, acc := .RO },
      { lsb := 3, width := 1, acc := .RO },
      { lsb := 4, width := 1, acc := .RO },
      { lsb := 16, width := 12, acc := .RO }] },
  -- SAF.CONN[c].STAT (R339)
  { addr := 0x280400, dims := [(16, 0x10)], pair := false, gate := .configure,
    fields := [{ lsb := 0, width := 2, acc := .RO, bad := [3] },
      { lsb := 16, width := 16, acc := .RO }] },
  -- SAF.CONN[c].FRAMES (R339)
  { addr := 0x280404, dims := [(16, 0x10)], pair := false, gate := .configure,
    fields := [{ lsb := 0, width := 16, acc := .RO },
      { lsb := 16, width := 16, acc := .RO }] },
  -- SAF.CONN[c].AGE (R339)
  { addr := 0x280408, dims := [(16, 0x10)], pair := false, gate := .configure,
    fields := [{ lsb := 0, width := 16, acc := .RO }] },
  -- SAF.VLIST[i].W (R339)
  { addr := 0x280500, dims := [(16, 0x4)], pair := false, gate := .configure,
    fields := [{ lsb := 0, width := 14, acc := .RO },
      { lsb := 14, width := 1, acc := .RO },
      { lsb := 15, width := 1, acc := .RO },
      { lsb := 16, width := 1, acc := .RO }] }]

/-- All registers of block SAF. -/
def regsSAF : List RegDesc := regsSAF0 ++ regsSAF1

/-- Registers of block LNK (12_camyel_link.md), part 1. -/
def regsLNK0 : List RegDesc := [
  -- LNK.CFG (R372)
  { addr := 0x2c0000, dims := [], pair := false, gate := .configure,
    fields := [{ lsb := 0, width := 12, acc := .RWC },
      { lsb := 12, width := 1, acc := .RWC },
      { lsb := 13, width := 1, acc := .RWC },
      { lsb := 14, width := 1, acc := .RWC },
      { lsb := 15, width := 1, acc := .RWC }] },
  -- LNK.CYCLE (R372)
  { addr := 0x2c0004, dims := [], pair := false, gate := .configure,
    fields := [{ lsb := 0, width := 4, acc := .RWC, reset := 3, hi := 8 }] },
  -- LNK.SCHED_ID (R372)
  { addr := 0x2c0008, dims := [], pair := false, gate := .configure,
    fields := [{ lsb := 0, width := 16, acc := .RWC }] },
  -- LNK.TIMING (R372)
  { addr := 0x2c000c, dims := [], pair := false, gate := .configure,
    fields := [{ lsb := 0, width := 10, acc := .RWC, reset := 100, lo := 50, hi := 1000 },
      { lsb := 16, width := 10, acc := .RWC, reset := 50, lo := 10, hi := 500 }] },
  -- LNK.LEAD (R372)
  { addr := 0x2c0010, dims := [], pair := false, gate := .configure,
    fields := [{ lsb := 0, width := 7, acc := .RWC, reset := 4, lo := 1, hi := 100 }] },
  -- LNK.SYNC (R372)
  { addr := 0x2c0014, dims := [], pair := false, gate := .configure,
    fields := [{ lsb := 0, width := 2, acc := .RWC, reset := 1 },
      { lsb := 4, width := 4, acc := .RWC, reset := 2, lo := 1, hi := 15 },
      { lsb := 8, width := 4, acc := .RWC, reset := 4, lo := 1, hi := 15 },
      { lsb := 12, width := 4, acc := .RWC, reset := 4, lo := 1, hi := 15 },
      { lsb := 16, width := 16, acc := .RWC, reset := 500, lo := 50, hi := 65535 }] },
  -- LNK.RLIMIT (R372)
  { addr := 0x2c0018, dims := [], pair := false, gate := .configure,
    fields := [{ lsb := 0, width := 8, acc := .RWC, reset := 100, lo := 1, hi := 200 }] },
  -- LNK.CS (R372)
  { addr := 0x2c001c, dims := [], pair := false, gate := .configure,
    fields := [{ lsb := 0, width := 4, acc := .RWC, reset := 4, lo := 1, hi := 15 },
      { lsb := 4, width := 4, acc := .RWC, reset := 8, lo := 1, hi := 15 },
      { lsb := 16, width := 16, acc := .RWC, reset := 400, lo := 1, hi := 65535 }] },
  -- LNK.STATE (R372)
  { addr := 0x2c0020, dims := [], pair := false, gate := .configure,
    fields := [{ lsb := 0, width := 3, acc := .RO, bad := [7] },
      { lsb := 4, width := 4, acc := .RO }] },
  -- LNK.CNT (R372)
  { addr := 0x2c0028, dims := [], pair := false, gate := .configure,
    fields := [{ lsb := 0, width := 16, acc := .RO },
      { lsb := 16, width := 16, acc := .RO }] },
  -- LNK.CNT2 (R372)
  { addr := 0x2c002c, dims := [], pair := false, gate := .configure,
    fields := [{ lsb := 0, width := 16, acc := .RO },
      { lsb := 16, width := 16, acc := .RO }] },
  -- LNK.CLR (R372)
  { addr := 0x2c0030, dims := [], pair := false, gate := .configure,
    fields := [{ lsb := 0, width := 1, acc := .WO }] }]

/-- Registers of block LNK (12_camyel_link.md), part 2. -/
def regsLNK1 : List RegDesc := [
  -- LNK.CYCNUM (R372)
  { addr := 0x2c0038, dims := [], pair := true, gate := .configure,
    fields := [{ lsb := 0, width := 64, acc := .RO }] },
  -- LNK.CH[ch].CFG (R372)
  { addr := 0x2c0100, dims := [(2, 0x100)], pair := false, gate := .configure,
    fields := [{ lsb := 0, width := 1, acc := .RWC },
      { lsb := 1, width := 1, acc := .RWC }] },
  -- LNK.CH[ch].SCHED_N (R372)
  { addr := 0x2c0104, dims := [(2, 0x100)], pair := false, gate := .configure,
    fields := [{ lsb := 0, width := 13, acc := .RWC, hi := 4096 }] },
  -- LNK.CH[ch].CTL (R372)
  { addr := 0x2c0108, dims := [(2, 0x100)], pair := false, gate := .configure,
    fields := [{ lsb := 0, width := 1, acc := .WO },
      { lsb := 1, width := 1, acc := .WO }] },
  -- LNK.CH[ch].STAT (R372)
  { addr := 0x2c010c, dims := [(2, 0x100)], pair := false, gate := .configure,
    fields := [{ lsb := 0, width := 1, acc := .RO },
      { lsb := 1, width := 1, acc := .RO },
      { lsb := 16, width := 12, acc := .RO },
      { lsb := 28, width := 4, acc := .RO, bad := [7, 8, 9, 10, 11, 12, 13, 14, 15] }] },
  -- LNK.CH[ch].CNT_WIN (R372)
  { addr := 0x2c0110, dims := [(2, 0x100)], pair := false, gate := .configure,
    fields := [{ lsb := 0, width := 16, acc := .RO },
      { lsb := 16, width := 16, acc := .RO }] },
  -- LNK.CH[ch].CNT_RX (R372)
  { addr := 0x2c0114, dims := [(2, 0x100)], pair := false, gate := .configure,
    fields := [{ lsb := 0, width := 16, acc := .RO },
      { lsb := 16, width := 16, acc := .RO }] },
  -- LNK.CH[ch].CNT_TX (R372)
  { addr := 0x2c0118, dims := [(2, 0x100)], pair := false, gate := .configure,
    fields := [{ lsb := 0, width := 16, acc := .RO },
      { lsb := 16, width := 16, acc := .RO }] },
  -- LNK.CH[ch].CNT_DUP (R372)
  { addr := 0x2c011c, dims := [(2, 0x100)], pair := false, gate := .configure,
    fields := [{ lsb := 0, width := 16, acc := .RO },
      { lsb := 16, width := 16, acc := .RO }] },
  -- LNK.CH[ch].CLR (R372)
  { addr := 0x2c0120, dims := [(2, 0x100)], pair := false, gate := .configure,
    fields := [{ lsb := 0, width := 1, acc := .WO }] },
  -- LNK.PORT[ch][p].STAT (R372)
  { addr := 0x2c0180, dims := [(2, 0x100), (2, 0x20)], pair := false, gate := .configure,
    fields := [{ lsb := 0, width := 1, acc := .RO },
      { lsb := 1, width := 1, acc := .RO }] },
  -- LNK.PORT[ch][p].DELAY (R372)
  { addr := 0x2c0184, dims := [(2, 0x100), (2, 0x20)], pair := false, gate := .configure,
    fields := [{ lsb := 0, width := 20, acc := .RO }] }]

/-- Registers of block LNK (12_camyel_link.md), part 3. -/
def regsLNK2 : List RegDesc := [
  -- LNK.PORT[ch][p].ERR (R372)
  { addr := 0x2c0188, dims := [(2, 0x100), (2, 0x20)], pair := false, gate := .configure,
    fields := [{ lsb := 0, width := 16, acc := .RO },
      { lsb := 16, width := 16, acc := .RO }] },
  -- LNK.PORT[ch][p].DOWN (R372)
  { addr := 0x2c018c, dims := [(2, 0x100), (2, 0x20)], pair := false, gate := .configure,
    fields := [{ lsb := 0, width := 16, acc := .RO }] },
  -- LNK.PORT[ch][p].LAT (R372)
  { addr := 0x2c0190, dims := [(2, 0x100), (2, 0x20)], pair := false, gate := .configure,
    fields := [{ lsb := 0, width := 12, acc := .RO }] },
  -- LNK.MAP[i].POINT (R372)
  { addr := 0x2d0000, dims := [(8192, 0x8)], pair := false, gate := .configure,
    fields := [{ lsb := 0, width := 17, acc := .RWC }] },
  -- LNK.MAP[i].RANGE (R372)
  { addr := 0x2d0004, dims := [(8192, 0x8)], pair := false, gate := .configure,
    fields := [{ lsb := 0, width := 6, acc := .RWC },
      { lsb := 8, width := 7, acc := .RWC, reset := 1, lo := 1, hi := 64 }] },
  -- LNK.SCHED[ch][n].START (R352)
  { addr := 0x2e0000, dims := [(2, 0x10000), (4096, 0x10)], pair := false, gate := .configure,
    fields := [{ lsb := 0, width := 22, acc := .RWC }] },
  -- LNK.SCHED[ch][n].LEN (R352)
  { addr := 0x2e0004, dims := [(2, 0x10000), (4096, 0x10)], pair := false, gate := .configure,
    fields := [{ lsb := 0, width := 16, acc := .RWC },
      { lsb := 16, width := 12, acc := .RWC }] },
  -- LNK.SCHED[ch][n].KIND (R352)
  { addr := 0x2e0008, dims := [(2, 0x10000), (4096, 0x10)], pair := false, gate := .configure,
    fields := [{ lsb := 0, width := 3, acc := .RWC, bad := [0, 4, 5, 6, 7] },
      { lsb := 4, width := 1, acc := .RWC },
      { lsb := 5, width := 1, acc := .RWC },
      { lsb := 6, width := 1, acc := .RWC },
      { lsb := 8, width := 7, acc := .RWC, hi := 64 },
      { lsb := 16, width := 6, acc := .RWC, hi := 32 }] },
  -- LNK.SCHED[ch][n].MAP (R352)
  { addr := 0x2e000c, dims := [(2, 0x10000), (4096, 0x10)], pair := false, gate := .configure,
    fields := [{ lsb := 0, width := 13, acc := .RWC },
      { lsb := 16, width := 8, acc := .RWC },
      { lsb := 24, width := 3, acc := .RWC }] }]

/-- All registers of block LNK. -/
def regsLNK : List RegDesc := regsLNK0 ++ regsLNK1 ++ regsLNK2

/-- Registers of block TWN (13_twin_failover.md), part 1. -/
def regsTWN0 : List RegDesc := [
  -- TWN.CFG (R392)
  { addr := 0x300000, dims := [], pair := false, gate := .configure,
    fields := [{ lsb := 0, width := 1, acc := .RWC },
      { lsb := 1, width := 1, acc := .RWC },
      { lsb := 8, width := 4, acc := .RWC, reset := 4, lo := 1, hi := 15 },
      { lsb := 12, width := 4, acc := .RWC, reset := 8, lo := 1, hi := 15 },
      { lsb := 16, width := 12, acc := .RWC }] },
  -- TWN.BAT (R392)
  { addr := 0x300004, dims := [], pair := false, gate := .configure,
    fields := [{ lsb := 0, width := 12, acc := .RWC },
      { lsb := 16, width := 12, acc := .RWC }] },
  -- TWN.BAT2 (R392)
  { addr := 0x300008, dims := [], pair := false, gate := .configure,
    fields := [{ lsb := 0, width := 12, acc := .RWC },
      { lsb := 16, width := 12, acc := .RWC }] },
  -- TWN.TOL (R392)
  { addr := 0x30000c, dims := [], pair := false, gate := .configure,
    fields := [{ lsb := 0, width := 32, acc := .RWC, reset := 32768 }] },
  -- TWN.STAT (R392)
  { addr := 0x300010, dims := [], pair := false, gate := .configure,
    fields := [{ lsb := 0, width := 3, acc := .RO, bad := [5, 6, 7] },
      { lsb := 3, width := 1, acc := .RO },
      { lsb := 4, width := 1, acc := .RO },
      { lsb := 5, width := 1, acc := .RO },
      { lsb := 8, width := 4, acc := .RO },
      { lsb := 16, width := 6, acc := .RO }] },
  -- TWN.HEALTH (R392)
  { addr := 0x300014, dims := [], pair := false, gate := .configure,
    fields := [{ lsb := 0, width := 16, acc := .RO }] },
  -- TWN.PEER_HEALTH (R392)
  { addr := 0x300018, dims := [], pair := false, gate := .configure,
    fields := [{ lsb := 0, width := 16, acc := .RO }] },
  -- TWN.CTL (R392)
  { addr := 0x30001c, dims := [], pair := false, gate := .configure,
    fields := [{ lsb := 0, width := 1, acc := .WO },
      { lsb := 1, width := 1, acc := .WO }] },
  -- TWN.CNT (R392)
  { addr := 0x300020, dims := [], pair := false, gate := .configure,
    fields := [{ lsb := 0, width := 16, acc := .RO },
      { lsb := 16, width := 16, acc := .RO }] },
  -- TWN.LAST (R392)
  { addr := 0x300024, dims := [], pair := false, gate := .configure,
    fields := [{ lsb := 0, width := 3, acc := .RO, bad := [5, 6, 7] },
      { lsb := 4, width := 4, acc := .RO, bad := [7, 8, 9, 10, 11, 12, 13, 14, 15] }] },
  -- TWN.CLR (R392)
  { addr := 0x300028, dims := [], pair := false, gate := .configure,
    fields := [{ lsb := 0, width := 1, acc := .WO }] }]

/-- All registers of block TWN. -/
def regsTWN : List RegDesc := regsTWN0

/-- Registers of block LDG (14_host_ledgers.md), part 1. -/
def regsLDG0 : List RegDesc := [
  -- LDG.CFG (R425)
  { addr := 0x340000, dims := [], pair := false, gate := .configure,
    fields := [{ lsb := 0, width := 1, acc := .RWC }] },
  -- LDG.ANCHOR (R425)
  { addr := 0x340008, dims := [], pair := true, gate := .configure,
    fields := [{ lsb := 0, width := 64, acc := .RWC }] },
  -- LDG.TAG (R425)
  { addr := 0x340010, dims := [], pair := true, gate := .configure,
    fields := [{ lsb := 0, width := 64, acc := .RWC }] },
  -- LDG.STAT (R425)
  { addr := 0x340018, dims := [], pair := false, gate := .configure,
    fields := [{ lsb := 0, width := 2, acc := .RO },
      { lsb := 2, width := 1, acc := .RO },
      { lsb := 3, width := 1, acc := .RO }] },
  -- LDG.LIMIT (R425)
  { addr := 0x34001c, dims := [], pair := false, gate := .configure,
    fields := [{ lsb := 0, width := 16, acc := .RWC, reset := 100, lo := 1, hi := 60000 }] },
  -- LDG.CMD[n].BASE (R425)
  { addr := 0x340100, dims := [(16, 0x20)], pair := true, gate := .configure,
    fields := [{ lsb := 0, width := 64, acc := .RWC }] },
  -- LDG.CMD[n].CFG (R425)
  { addr := 0x340108, dims := [(16, 0x20)], pair := false, gate := .configure,
    fields := [{ lsb := 0, width := 1, acc := .RWC },
      { lsb := 4, width := 5, acc := .RWC, reset := 4, lo := 4, hi := 16 },
      { lsb := 12, width := 4, acc := .RWC },
      { lsb := 16, width := 11, acc := .RWC, reset := 64, lo := 1, hi := 1024 }] },
  -- LDG.CMD[n].CONSUMED (R425)
  { addr := 0x34010c, dims := [(16, 0x20)], pair := false, gate := .configure,
    fields := [{ lsb := 0, width := 32, acc := .RO }] },
  -- LDG.CMD[n].SEQ_BASE (R425)
  { addr := 0x340110, dims := [(16, 0x20)], pair := true, gate := .configure,
    fields := [{ lsb := 0, width := 64, acc := .RWC, reset := 1 }] },
  -- LDG.CMD[n].STAT (R425)
  { addr := 0x340118, dims := [(16, 0x20)], pair := false, gate := .configure,
    fields := [{ lsb := 0, width := 1, acc := .W1C },
      { lsb := 1, width := 1, acc := .W1C },
      { lsb := 2, width := 1, acc := .RO },
      { lsb := 16, width := 11, acc := .RO }] },
  -- LDG.CPL[m].BASE (R425)
  { addr := 0x340300, dims := [(16, 0x20)], pair := true, gate := .configure,
    fields := [{ lsb := 0, width := 64, acc := .RWC }] },
  -- LDG.CPL[m].CFG (R425)
  { addr := 0x340308, dims := [(16, 0x20)], pair := false, gate := .configure,
    fields := [{ lsb := 0, width := 1, acc := .RWC },
      { lsb := 4, width := 5, acc := .RWC, reset := 4, lo := 4, hi := 16 },
      { lsb := 16, width := 8, acc := .RWC, reset := 1, lo := 1, hi := 255 }] }]

/-- Registers of block LDG (14_host_ledgers.md), part 2. -/
def regsLDG1 : List RegDesc := [
  -- LDG.CPL[m].MOD (R425)
  { addr := 0x34030c, dims := [(16, 0x20)], pair := false, gate := .configure,
    fields := [{ lsb := 0, width := 10, acc := .RWC, hi := 1000 }] },
  -- LDG.CPL[m].PRODUCED (R425)
  { addr := 0x340310, dims := [(16, 0x20)], pair := false, gate := .configure,
    fields := [{ lsb := 0, width := 32, acc := .RO }] },
  -- LDG.CPL[m].CONSUMED (R425)
  { addr := 0x340314, dims := [(16, 0x20)], pair := false, gate := .configure,
    fields := [{ lsb := 0, width := 32, acc := .RO }] },
  -- LDG.CPL[m].STAT (R425)
  { addr := 0x340318, dims := [(16, 0x20)], pair := false, gate := .configure,
    fields := [{ lsb := 0, width := 1, acc := .RO },
      { lsb := 1, width := 1, acc := .W1C },
      { lsb := 16, width := 16, acc := .RO }] },
  -- LDG.TAL[k].BASE (R425)
  { addr := 0x340500, dims := [(4, 0x20)], pair := true, gate := .configure,
    fields := [{ lsb := 0, width := 64, acc := .RWC }] },
  -- LDG.TAL[k].CFG (R425)
  { addr := 0x340508, dims := [(4, 0x20)], pair := false, gate := .configure,
    fields := [{ lsb := 0, width := 1, acc := .RWC },
      { lsb := 4, width := 5, acc := .RWC, reset := 4, lo := 4, hi := 16 },
      { lsb := 16, width := 8, acc := .RWC, reset := 1, lo := 1, hi := 255 }] },
  -- LDG.TAL[k].MOD (R425)
  { addr := 0x34050c, dims := [(4, 0x20)], pair := false, gate := .configure,
    fields := [{ lsb := 0, width := 10, acc := .RWC, hi := 1000 }] },
  -- LDG.TAL[k].PRODUCED (R425)
  { addr := 0x340510, dims := [(4, 0x20)], pair := false, gate := .configure,
    fields := [{ lsb := 0, width := 32, acc := .RO }] },
  -- LDG.TAL[k].CONSUMED (R425)
  { addr := 0x340514, dims := [(4, 0x20)], pair := false, gate := .configure,
    fields := [{ lsb := 0, width := 32, acc := .RO }] },
  -- LDG.TAL[k].STAT (R425)
  { addr := 0x340518, dims := [(4, 0x20)], pair := false, gate := .configure,
    fields := [{ lsb := 0, width := 1, acc := .RO },
      { lsb := 1, width := 1, acc := .W1C },
      { lsb := 16, width := 16, acc := .RO }] },
  -- MSIX[v].ADDR (R393)
  { addr := 0x350000, dims := [(21, 0x10)], pair := true, gate := .configure,
    fields := [{ lsb := 0, width := 64, acc := .RW }] },
  -- MSIX[v].DATA (R393)
  { addr := 0x350008, dims := [(21, 0x10)], pair := false, gate := .configure,
    fields := [{ lsb := 0, width := 32, acc := .RW }] }]

/-- Registers of block LDG (14_host_ledgers.md), part 3. -/
def regsLDG2 : List RegDesc := [
  -- MSIX[v].CTRL (R393)
  { addr := 0x35000c, dims := [(21, 0x10)], pair := false, gate := .configure,
    fields := [{ lsb := 0, width := 1, acc := .RW, reset := 1 }] },
  -- MSIX.PBA (R393)
  { addr := 0x358000, dims := [], pair := true, gate := .configure,
    fields := [{ lsb := 0, width := 64, acc := .RO }] }]

/-- All registers of block LDG. -/
def regsLDG : List RegDesc := regsLDG0 ++ regsLDG1 ++ regsLDG2

/-- Registers of block TLY (15_tally_signal_fabric.md), part 1. -/
def regsTLY0 : List RegDesc := [
  -- TLY.CFG (R444)
  { addr := 0x360000, dims := [], pair := false, gate := .configure,
    fields := [{ lsb := 0, width := 12, acc := .RWC, reset := 3072, lo := 1024, hi := 3584 }] },
  -- TLY.ROUTE (R444)
  { addr := 0x360004, dims := [], pair := false, gate := .configure,
    fields := [{ lsb := 2, width := 2, acc := .RWC },
      { lsb := 4, width := 2, acc := .RWC },
      { lsb := 6, width := 2, acc := .RWC },
      { lsb := 8, width := 2, acc := .RWC },
      { lsb := 10, width := 2, acc := .RWC },
      { lsb := 12, width := 2, acc := .RWC },
      { lsb := 14, width := 2, acc := .RWC },
      { lsb := 16, width := 2, acc := .RWC },
      { lsb := 18, width := 2, acc := .RWC },
      { lsb := 20, width := 2, acc := .RWC },
      { lsb := 22, width := 2, acc := .RWC },
      { lsb := 24, width := 2, acc := .RWC },
      { lsb := 26, width := 2, acc := .RWC }] },
  -- TLY.OCC (R444)
  { addr := 0x360008, dims := [], pair := false, gate := .configure,
    fields := [{ lsb := 0, width := 13, acc := .RO },
      { lsb := 16, width := 13, acc := .RO }] },
  -- TLY.STAT (R444)
  { addr := 0x36000c, dims := [], pair := false, gate := .configure,
    fields := [{ lsb := 0, width := 2, acc := .RO },
      { lsb := 2, width := 1, acc := .RO }] },
  -- TLY.SEQ (R444)
  { addr := 0x360010, dims := [], pair := true, gate := .configure,
    fields := [{ lsb := 0, width := 64, acc := .RO }] },
  -- TLY.MERGED (R444)
  { addr := 0x360018, dims := [], pair := false, gate := .configure,
    fields := [{ lsb := 0, width := 32, acc := .RO }] },
  -- TLY.CLR (R444)
  { addr := 0x36001c, dims := [], pair := false, gate := .configure,
    fields := [{ lsb := 0, width := 1, acc := .WO }] },
  -- TLY.PEND (R444)
  { addr := 0x360020, dims := [(4, 0x4)], pair := false, gate := .configure,
    fields := [{ lsb := 0, width := 13, acc := .RO }] },
  -- TLY.FAB.SRAM_BASE (R444)
  { addr := 0x361000, dims := [], pair := false, gate := .configure,
    fields := [{ lsb := 0, width := 23, acc := .RWC }] },
  -- TLY.FAB.SRAM_SIZE (R444)
  { addr := 0x361004, dims := [], pair := false, gate := .configure,
    fields := [{ lsb := 0, width := 23, acc := .RWC }] },
  -- TLY.FAB.DRAM_BASE (R444)
  { addr := 0x361008, dims := [], pair := true, gate := .configure,
    fields := [{ lsb := 0, width := 64, acc := .RWC }] },
  -- TLY.FAB.HOST_BASE (R444)
  { addr := 0x361010, dims := [], pair := true, gate := .configure,
    fields := [{ lsb := 0, width := 64, acc := .RWC }] }]

/-- Registers of block TLY (15_tally_signal_fabric.md), part 2. -/
def regsTLY1 : List RegDesc := [
  -- TLY.FAB.DSEL (R444)
  { addr := 0x361018, dims := [], pair := false, gate := .configure,
    fields := [{ lsb := 0, width := 17, acc := .RW }] },
  -- TLY.FAB.DENT_LO (R444)
  { addr := 0x36101c, dims := [], pair := false, gate := .configure,
    fields := [{ lsb := 0, width := 25, acc := .RWC },
      { lsb := 25, width := 6, acc := .RWC },
      { lsb := 31, width := 1, acc := .RWC }] },
  -- TLY.FAB.DENT_HI (R444)
  { addr := 0x361020, dims := [], pair := false, gate := .configure,
    fields := [{ lsb := 0, width := 3, acc := .RWC, bad := [5, 6, 7] }] },
  -- TLY.FAB.PSEL (R444)
  { addr := 0x361024, dims := [], pair := false, gate := .configure,
    fields := [{ lsb := 0, width := 17, acc := .RW }] },
  -- TLY.FAB.PCTL (R444)
  { addr := 0x361028, dims := [], pair := false, gate := .configure,
    fields := [{ lsb := 0, width := 1, acc := .WO },
      { lsb := 1, width := 1, acc := .WO },
      { lsb := 2, width := 1, acc := .RO },
      { lsb := 3, width := 1, acc := .W1C }] },
  -- TLY.FAB.PVER (R444)
  { addr := 0x36102c, dims := [], pair := false, gate := .configure,
    fields := [{ lsb := 0, width := 32, acc := .RO }] },
  -- TLY.FAB.PSTAMP (R444)
  { addr := 0x361030, dims := [], pair := true, gate := .configure,
    fields := [{ lsb := 0, width := 64, acc := .RO }] },
  -- TLY.FAB.STAT (R444)
  { addr := 0x361038, dims := [], pair := false, gate := .configure,
    fields := [{ lsb := 0, width := 16, acc := .RO },
      { lsb := 16, width := 16, acc := .RO }] },
  -- TLY.FAB.PDATA (R444)
  { addr := 0x361100, dims := [(64, 0x4)], pair := false, gate := .configure,
    fields := [{ lsb := 0, width := 32, acc := .RW }] }]

/-- All registers of block TLY. -/
def regsTLY : List RegDesc := regsTLY0 ++ regsTLY1

/-- Registers of block SEC (16_boot_security_memory.md), part 1. -/
def regsSEC0 : List RegDesc := [
  -- SEC.BOOT (R468)
  { addr := 0x380000, dims := [], pair := false, gate := .configure,
    fields := [{ lsb := 0, width := 3, acc := .RO, bad := [6, 7] },
      { lsb := 8, width := 8, acc := .RO },
      { lsb := 16, width := 8, acc := .RO }] },
  -- SEC.BOOT_CTL (R468)
  { addr := 0x380004, dims := [], pair := false, gate := .configure,
    fields := [{ lsb := 0, width := 1, acc := .WO }] },
  -- SEC.BOOT_ADDR (R468)
  { addr := 0x380008, dims := [], pair := true, gate := .boot,
    fields := [{ lsb := 0, width := 64, acc := .RWC }] },
  -- SEC.RSTCFG (R468)
  { addr := 0x380010, dims := [], pair := false, gate := .configure,
    fields := [{ lsb := 0, width := 1, acc := .RWC }] },
  -- SEC.RESET_CAUSE (R468)
  { addr := 0x380014, dims := [], pair := false, gate := .configure,
    fields := [{ lsb := 0, width := 3, acc := .RO, reset := 1 }] },
  -- SEC.DEVID (R468)
  { addr := 0x380018, dims := [], pair := true, gate := .configure,
    fields := [{ lsb := 0, width := 64, acc := .RO }] },
  -- SEC.PROV (R468)
  { addr := 0x380020, dims := [], pair := false, gate := .configure,
    fields := [{ lsb := 0, width := 1, acc := .RO },
      { lsb := 1, width := 1, acc := .RO },
      { lsb := 2, width := 1, acc := .W1C },
      { lsb := 3, width := 1, acc := .WO }] },
  -- SEC.DBG (R468)
  { addr := 0x380024, dims := [], pair := false, gate := .configure,
    fields := [{ lsb := 0, width := 2, acc := .RO, reset := 1, bad := [3] },
      { lsb := 2, width := 2, acc := .RO },
      { lsb := 4, width := 1, acc := .WO },
      { lsb := 5, width := 1, acc := .WO },
      { lsb := 8, width := 4, acc := .RO }] },
  -- SEC.DBG_RESP (R468)
  { addr := 0x380028, dims := [], pair := true, gate := .configure,
    fields := [{ lsb := 0, width := 64, acc := .RW }] },
  -- SEC.DBG_CHAL (R468)
  { addr := 0x380040, dims := [(8, 0x4)], pair := false, gate := .configure,
    fields := [{ lsb := 0, width := 32, acc := .RO }] },
  -- SEC.ROLLBACK (R468)
  { addr := 0x380060, dims := [], pair := false, gate := .configure,
    fields := [{ lsb := 0, width := 24, acc := .RO }] },
  -- SEC.ROLL_ADV (R468)
  { addr := 0x380064, dims := [], pair := false, gate := .configure,
    fields := [{ lsb := 0, width := 2, acc := .WO, bad := [3] },
      { lsb := 8, width := 8, acc := .WO }] }]

/-- Registers of block SEC (16_boot_security_memory.md), part 2. -/
def regsSEC1 : List RegDesc := [
  -- SEC.KEYSTAT (R468)
  { addr := 0x380068, dims := [], pair := false, gate := .configure,
    fields := [{ lsb := 0, width := 12, acc := .RO, reset := 3 },
      { lsb := 16, width := 12, acc := .RO }] },
  -- SEC.KPROG_ADDR (R468)
  { addr := 0x380070, dims := [], pair := true, gate := .configure,
    fields := [{ lsb := 0, width := 64, acc := .RW }] },
  -- SEC.KPROG (R468)
  { addr := 0x380078, dims := [], pair := false, gate := .configure,
    fields := [{ lsb := 0, width := 4, acc := .RW, bad := [12, 13, 14, 15] },
      { lsb := 4, width := 1, acc := .WO },
      { lsb := 5, width := 1, acc := .WO },
      { lsb := 6, width := 1, acc := .RO },
      { lsb := 7, width := 1, acc := .W1C }] },
  -- SEC.FWDIG (R468)
  { addr := 0x380080, dims := [(8, 0x4)], pair := false, gate := .configure,
    fields := [{ lsb := 0, width := 32, acc := .RO }] },
  -- SEC.FWREV (R468)
  { addr := 0x3800a0, dims := [], pair := false, gate := .configure,
    fields := [{ lsb := 0, width := 32, acc := .RO }] },
  -- SEC.LOOPDIG (R468)
  { addr := 0x380100, dims := [(9, 0x20), (8, 0x4)], pair := false, gate := .configure,
    fields := [{ lsb := 0, width := 32, acc := .RO }] },
  -- SEC.LOOPREV (R468)
  { addr := 0x380220, dims := [(9, 0x4)], pair := false, gate := .configure,
    fields := [{ lsb := 0, width := 32, acc := .RO }] },
  -- SEC.IDPUB (R468)
  { addr := 0x381000, dims := [(488, 0x4)], pair := false, gate := .configure,
    fields := [{ lsb := 0, width := 32, acc := .RO }] }]

/-- All registers of block SEC. -/
def regsSEC : List RegDesc := regsSEC0 ++ regsSEC1

/-- Registers of block MEM (16_boot_security_memory.md), part 1. -/
def regsMEM0 : List RegDesc := [
  -- MEM.CFG (R469)
  { addr := 0x3a0000, dims := [], pair := false, gate := .boot,
    fields := [{ lsb := 0, width := 3, acc := .RWC, reset := 4, bad := [5, 6, 7] },
      { lsb := 3, width := 2, acc := .RWC, reset := 3 },
      { lsb := 5, width := 1, acc := .RWC },
      { lsb := 6, width := 1, acc := .RWC },
      { lsb := 8, width := 8, acc := .RWC, reset := 24 }] },
  -- MEM.CTL (R469)
  { addr := 0x3a0004, dims := [], pair := false, gate := .boot,
    fields := [{ lsb := 0, width := 1, acc := .WO }] },
  -- MEM.STAT (R469)
  { addr := 0x3a0008, dims := [], pair := false, gate := .boot,
    fields := [{ lsb := 0, width := 1, acc := .RO },
      { lsb := 1, width := 1, acc := .RO },
      { lsb := 2, width := 1, acc := .RO },
      { lsb := 4, width := 3, acc := .RO },
      { lsb := 16, width := 16, acc := .RO }] },
  -- MEM.SIZE (R469)
  { addr := 0x3a000c, dims := [], pair := false, gate := .boot,
    fields := [{ lsb := 0, width := 16, acc := .RO }] },
  -- MEM.DECC (R469)
  { addr := 0x3a0010, dims := [], pair := false, gate := .boot,
    fields := [{ lsb := 0, width := 16, acc := .RO },
      { lsb := 16, width := 16, acc := .RO }] },
  -- MEM.RETRAIN (R469)
  { addr := 0x3a0014, dims := [], pair := false, gate := .boot,
    fields := [{ lsb := 0, width := 8, acc := .RWC, reset := 10, lo := 1, hi := 255 }] },
  -- MEM.DECC_ADDR (R469)
  { addr := 0x3a0018, dims := [], pair := true, gate := .boot,
    fields := [{ lsb := 0, width := 64, acc := .RO }] },
  -- MEM.SECC (R469)
  { addr := 0x3a0020, dims := [], pair := false, gate := .boot,
    fields := [{ lsb := 0, width := 16, acc := .RO },
      { lsb := 16, width := 16, acc := .RO }] },
  -- MEM.RET_STAT (R469)
  { addr := 0x3a0024, dims := [], pair := false, gate := .boot,
    fields := [{ lsb := 0, width := 1, acc := .RO },
      { lsb := 1, width := 1, acc := .RO },
      { lsb := 16, width := 16, acc := .RO }] },
  -- MEM.CLR (R469)
  { addr := 0x3a0028, dims := [], pair := false, gate := .boot,
    fields := [{ lsb := 0, width := 1, acc := .WO }] },
  -- MEM.RET (R469)
  { addr := 0x3a2000, dims := [(30720, 0x4)], pair := false, gate := .boot,
    fields := [{ lsb := 0, width := 32, acc := .RW }] }]

/-- All registers of block MEM. -/
def regsMEM : List RegDesc := regsMEM0

/-- Registers of block PIN (17_pins_electrical.md), part 1. -/
def regsPIN0 : List RegDesc := [
  -- PIN.CLK (R491)
  { addr := 0x3c0000, dims := [], pair := false, gate := .configure,
    fields := [{ lsb := 0, width := 2, acc := .RWC, bad := [3] },
      { lsb := 8, width := 1, acc := .RO },
      { lsb := 9, width := 1, acc := .RO },
      { lsb := 10, width := 1, acc := .RO }] },
  -- PIN.INFILT (R491)
  { addr := 0x3c0004, dims := [], pair := false, gate := .configure,
    fields := [{ lsb := 0, width := 8, acc := .RWC, reset := 40 },
      { lsb := 8, width := 8, acc := .RWC, reset := 10, lo := 1, hi := 255 }] },
  -- PIN.OSLEW (R491)
  { addr := 0x3c0008, dims := [], pair := false, gate := .configure,
    fields := [{ lsb := 0, width := 2, acc := .RWC, reset := 1 },
      { lsb := 2, width := 2, acc := .RWC, reset := 1 }] },
  -- PIN.SUPPLY (R491)
  { addr := 0x3c000c, dims := [], pair := false, gate := .configure,
    fields := [{ lsb := 0, width := 5, acc := .RO },
      { lsb := 5, width := 1, acc := .RO },
      { lsb := 6, width := 1, acc := .RO }] },
  -- PIN.FPULL (R491)
  { addr := 0x3c0100, dims := [(64, 0x4)], pair := false, gate := .slice,
    fields := [{ lsb := 0, width := 2, acc := .RWC, bad := [3] },
      { lsb := 2, width := 2, acc := .RWC, bad := [3] },
      { lsb := 4, width := 2, acc := .RWC, bad := [3] }] }]

/-- All registers of block PIN. -/
def regsPIN : List RegDesc := regsPIN0

/-- The registers of the block that holds BAR0 offset `a` (R34). -/
def regsAt (a : Nat) : List RegDesc :=
  if a < 0x10000 then regsSYS
  else if a < 0x20000 then regsMODE
  else if a < 0x30000 then regsRT
  else if a < 0x40000 then regsCRD
  else if a < 0x100000 then regsMOT
  else if a < 0x140000 then regsPWM
  else if a < 0x180000 then regsADC
  else if a < 0x200000 then regsFBK
  else if a < 0x240000 then regsHWK
  else if a < 0x280000 then regsLC
  else if a < 0x2c0000 then regsSAF
  else if a < 0x300000 then regsLNK
  else if a < 0x340000 then regsTWN
  else if a < 0x360000 then regsLDG
  else if a < 0x380000 then regsTLY
  else if a < 0x3a0000 then regsSEC
  else if a < 0x3c0000 then regsMEM
  else if a < 0x400000 then regsPIN
  else []

/-- The indices of the instance at distance `o` from the first one, when `o` is the distance of an instance. A pair
also occupies the word 4 bytes above (R8). -/
def matchDims (pair : Bool) : List (Nat × Nat) → Nat → Option (List Nat)
  | [], o => if o = 0 || (pair && o == 4) then some [] else none
  | (c, st) :: ds, o =>
    if o / st < c then (matchDims pair ds (o % st)).map (fun is => o / st :: is) else none

/-- The register instance at BAR0 offset `a`, if `r` has one there. Stall 0 does not exist (R235). -/
def RegDesc.find (r : RegDesc) (a : Nat) : Option (List Nat) :=
  if r.addr ≤ a then
    match matchDims r.pair r.dims (a - r.addr) with
    | some is => if r.gate = .stall && r.dims.length ≥ 1 && is.headD 0 == 0 then none else some is
    | none => none
  else none

/-- The register that occupies BAR0 offset `a`, with its indices (R35: none where no register does). -/
def findReg (a : Nat) : Option (RegDesc × List Nat) :=
  (regsAt a).findSome? fun r => (r.find a).map fun is => (r, is)

/-- A field's reset value at the given indices: the Reset column; COMMUT[h] resets to 1 for h = 0 and 7, a bank's
offset to b × 400 (R159). -/
def FieldDesc.resetAt (r : RegDesc) (f : FieldDesc) (is : List Nat) : Nat :=
  if r.addr = 0x100080 then (if is.getD 1 0 = 0 || is.getD 1 0 = 7 then 1 else 0)
  else if r.addr = 0x110000 then is.getD 0 0 * 400
  else f.reset

/-- The value of a whole register (64 bits for a pair) at reset (R14). -/
def RegDesc.resetValue (r : RegDesc) (is : List Nat) : Nat :=
  r.fields.foldl (fun v f => v + (f.resetAt r is <<< f.lsb)) 0

/-- The 32-bit word at BAR0 offset `a` after reset (R14); 0 where no register lies (R35). -/
def resetWord (a : Nat) : Word :=
  match findReg a with
  | some (r, is) =>
    if r.pair && (a - r.addr) % 8 == 4 then BitVec.ofNat 32 (r.resetValue is >>> 32)
    else BitVec.ofNat 32 (r.resetValue is)
  | none => 0

end Sys2Proof.Machine
end

