-- ==== Sys2Proof/Machine/State.lean ====
section
/-!
DEFINITION. The state of the EF8064 as plain data: every register of the BAR0 maps, and every queue, buffer, counter,
latch and memory that the rules name without a register. Tables are sparse and canonical (Machine/Bits.lean): an
unlisted key reads as the default. Field comments cite the rule that names the state.
-/

namespace Sys2Proof.Machine

/-! ## Clock and ridge time -/

/-- A moment of ridge time, in units of 2^-32 ns (R38, R41): the 64-bit ns count and a 32-bit fraction. -/
abbrev Moment := Nat

/-- Ridge time and its corrections. -/
structure Clk where
  /-- ridge time, in 2^-32 ns (R38) -/
  time : Moment := 0
  /-- offset correction not yet applied, signed, 2^-32 ns (R39) -/
  slewLeft : Int := 0
  /-- clock time since the last slewed count, in 2^-32 ns of nominal count time (R39) -/
  slewWait : Nat := 0
  /-- by how much ridge time has run ahead of the timing-clock counts so far, by slewing and by the rate correction,
  signed, 2^-32 ns (R33) -/
  slewTotal : Int := 0
  /-- offset of link time from ridge time kept before grid start, signed ns (R364) -/
  tracked : Int := 0
  /-- the single step of R40 is spent -/
  stepped : Bool := false
  /-- ns of the last coordinate tick (R50) -/
  lastTick : Nat := 0
  /-- stamp of the last accepted PPS edge (R47, R48) -/
  pps : Option Nat := none
  /-- the previous edge was accepted and tracked (R48) -/
  ppsTracked : Bool := false
  /-- moment of the last host write of the civil map, and of the last tracking update with what it replaced: OFS, REF and
  RATE (R49) -/
  civilAt : Option Moment := none
  tracking : Option (Moment × Nat × Nat × Word) := none
  deriving DecidableEq, Repr

/-! ## Tally (R426 to R435) -/

/-- One tally record in the retention ring. -/
structure TallyRec where
  stamp : Nat
  seq : Nat
  cls : Nat
  flags : Nat
  code : Nat
  source : Nat
  d0 : Nat
  d1 : Nat
  d2 : Nat
  /-- tally ledger it is assigned to (R434) -/
  ledger : Nat
  /-- moment of its entry, by which records of one clock are told (R427); none once a reset has followed -/
  entered : Option Moment := none
  deriving DecidableEq, Repr

/-- The tally. -/
structure Tly where
  /-- records entered and not yet taken, oldest first (R430) -/
  ring : List TallyRec := []
  /-- next sequence number (R430) -/
  next : Nat := 0
  /-- records entered so far, and taken by each tally ledger (R430) -/
  entered : Nat := 0
  taken : Tab Nat := []
  /-- stamp of the last record entered (R435) -/
  lastStamp : Nat := 0
  /-- the merges of one core clock, oldest first, each with its target before it and the event; and that clock (R433) -/
  merges : List (TallyRec × TallyRec) := []
  mergedAt : Moment := 0
  deriving DecidableEq, Repr

/-! ## Host ledgers (R395 to R425) -/

/-- A completion descriptor before it is written (R406). -/
structure Completion where
  ledger : Nat
  seq : Nat
  opcode : Nat
  kind : Nat
  reason : Nat
  stamp : Nat
  /-- bytes [63:24] as a number -/
  result : Nat
  irq : Bool
  deriving DecidableEq, Repr

/-- The final completion a command has earned and not yet been posted (R410). -/
structure Final where
  kind : Nat
  reason : Nat
  stamp : Nat
  result : Nat
  deriving DecidableEq, Repr

/-- An accepted command without a posted final completion (R407, R412). -/
structure Outst where
  ledger : Nat
  seq : Nat
  cmd : HostCmd
  fence : Bool
  irq : Bool
  begun : Bool
  final : Option Final
  /-- its buffer as it was read before the disposition (R403) -/
  data : List Byte := []
  deriving DecidableEq, Repr

/-- A command that waits for the crypto engine's verification before its disposition (R333, R450, R453, R455). -/
structure Verifying where
  head : CmdHead
  cmd : HostCmd
  /-- the image as it was copied (R450) -/
  data : List Byte
  /-- the verification has ended, and the disposition waits for room to post it (R422) -/
  verified : Bool := false
  /-- the standby has not confirmed it in time, and the REJECT waits for room to post it (R384, R422) -/
  expired : Bool := false
  deriving DecidableEq, Repr

/-- The cursors of one command ledger (R396, R403, R416). -/
structure CmdCursor where
  producer : Nat := 0
  disposed : Nat := 0
  accepted : Nat := 0
  final : Nat := 0
  deriving DecidableEq, Repr

/-- What a completion or tally ledger holds besides its registers (R422, R425). -/
structure RingSide where
  /-- descriptors written and not signalled -/
  unsignalled : Nat := 0
  /-- ns of the first unsignalled descriptor -/
  since : Nat := 0
  /-- ns at which the ring became full; none while a slot is free -/
  fullSince : Option Nat := none
  /-- LEDGER_FULL reports since then -/
  told : Nat := 0
  deriving DecidableEq, Repr

/-- The ledger engine. -/
structure Ldg where
  cmd : Tab CmdCursor := []
  /-- accepted commands without a posted final completion, in acceptance order: one that has earned its final completion
  stays until that has been written (R394, R412, R422) -/
  outst : List Outst := []
  cpl : Tab RingSide := []
  tal : Tab RingSide := []
  /-- generation of the anchor (R416) -/
  generation : Nat := 0
  /-- commands being verified (R333, R453, R455) -/
  verify : List Verifying := []
  /-- commands that wait for the standby's confirmation, with their buffers and the link cycles since their validation
  (R384) -/
  twinWait : List (Verifying × Nat) := []
  /-- highest validated sequence number of each command ledger (R383) -/
  validated : Tab Nat := []
  /-- failed fetches of each command ledger in a row; with three it stops until its doorbell is written (R424) -/
  fetchFails : Tab Nat := []
  /-- retained ledger records with an uncorrectable error: n of command ledgers, 16 + m of completion ledgers (R467) -/
  badRecords : List Nat := []
  /-- the counts that the retained records hold after a reset: consumed of the command ledgers, produced of the completion
  ledgers (R415, R467) -/
  keptConsumed : Tab Nat := []
  keptProduced : Tab Nat := []
  deriving DecidableEq, Repr

/-! ## Images and security (R445 to R462) -/

/-- A verified vendor firmware or loop image (R448). -/
structure Image where
  /-- 1 loop image, 2 vendor firmware -/
  kind : Nat
  area : Nat
  revision : Nat
  digest : List Byte
  /-- payload bytes before padding -/
  payload : List Byte
  deriving DecidableEq, Repr

/-- An accepted IMAGE_LOAD (R453 to R455). -/
structure LoadJob where
  cmd : Option (Nat × Nat)
  image : Image
  /-- the area has been written and is being read back -/
  written : Bool := false
  /-- the area's load is complete; the new firmware has not yet taken over (R455) -/
  loaded : Bool := false
  /-- ns of the ACCEPT -/
  since : Nat
  deriving DecidableEq, Repr

/-- Boot, keys and identity beside their registers. -/
structure Sec where
  /-- OTP: the public keys of slots 2 to 11 that have been programmed (R449, R457) -/
  keys : Tab (List Byte) := []
  /-- OTP: the identity seed; empty while unprovisioned (R458) -/
  seed : List Byte := []
  /-- images of the bundle still to be verified: index, length of its entry, and its bytes as copied (R450) -/
  bundle : List (Nat × Nat × List Byte) := []
  /-- areas of program memory with an image, 9 the vendor area (R452) -/
  loaded : List Nat := []
  /-- a key that is being burned: its slot and its bytes (R457) -/
  burn : Option (Nat × List Byte) := none
  /-- images of the bundle already verified -/
  good : List Image := []
  /-- BOOT_WAIT has been entered (R447) -/
  waitTold : Bool := false
  /-- the IMAGE_LOAD under way -/
  job : Option LoadJob := none
  /-- an uncorrectable error of DRAM or shared SRAM has been found since device reset (R392, health bit 6) -/
  memErr : Bool := false
  /-- a core has been quarantined or has failed a self-test since device reset (R392, health bit 1) -/
  coreErr : Bool := false
  deriving DecidableEq, Repr

/-! ## Reset and supplies (R445, R446, R476) -/

/-- The reset under way and the supplies. -/
structure Pwr where
  /-- the device reset has not been released -/
  held : Bool := true
  /-- code of its cause (R436): the machine starts with a first power-up, the always-on domain empty -/
  cause : Nat := 4
  /-- the always-on domain was kept -/
  kept : Bool := false
  /-- stamp of the last record entered before the reset (R435) -/
  lastStamp : Nat := 0
  /-- the safety region is out of its reset (R476) -/
  safetyUp : Bool := false
  deriving DecidableEq, Repr

/-! ## Faults (R22, R23) -/

/-- An open region fault: region 0 motion, 1 safety, 2 service; cause of R436; the object (stall, core, address). -/
structure OpenFault where
  region : Nat
  cause : Nat
  object : Nat
  /-- a second object: for a shared-SRAM error, the stall that read the word -/
  object2 : Nat := 0
  since : Nat
  /-- it has moved the cell to DEGRADED (R22) -/
  escalated : Bool := false
  deriving DecidableEq, Repr

/-! ## The interconnect of the motion region (R26, R27) -/

/-- The arbiter of the interconnect. -/
structure Interconnect where
  /-- grants since class 4 had one, while it has a request waiting (R27) -/
  since4 : Nat := 0
  /-- the requester granted last in each class: a loop core, or a token's source by its key (R26) -/
  last : Tab (Option Nat) := []
  deriving DecidableEq, Repr

/-! ## Hawker (R235 to R260) -/

/-- What a slot keeps beside its retained value and fresh bit (R238 to R240). -/
structure SlotInfo where
  source : Nat := 0
  /-- which of the sources of its code, as in the token (R198) -/
  port : Nat := 0
  sender : Nat := 0
  stamp : Nat := 0
  late : Bool := false
  overrun : Bool := false
  deriving DecidableEq, Repr

/-- An output a dual execution holds back (R254, R288). -/
inductive Held where
  | store (addr : Nat) (words : List Word)
  | post (stall slot : Nat) (data : Word)
  | dli (list dir stall slot : Nat) (data : Word) (key : Nat)
  | dlc (list stall slot : Nat)
  deriving DecidableEq, Repr

/-- One execution of a dual readiness (R253 to R255). -/
structure Exec where
  exec : Nat
  core : Nat
  done : Bool := false
  rearm : Bool := false
  held : List Held := []
  /-- passed a limit of R254, or faulted (R293): counts as differing from every other -/
  differs : Bool := false
  deriving DecidableEq, Repr

/-- One stall beside its registers. -/
structure Stall where
  slots : Tab SlotInfo := []
  /-- ns at which it became READY (R242) -/
  ready : Nat := 0
  /-- deadline instant, ns; none while it has none (R249) -/
  deadline : Option Nat := none
  /-- the miss of this readiness is counted (R250) -/
  missCounted : Bool := false
  /-- saved context of 96 words (R246, R281) -/
  saved : Option (List Word) := none
  /-- enable has been 0 during this readiness (R237) -/
  wasOff : Bool := false
  /-- this readiness is dual: CFG.dual as it began (R253) -/
  dual : Bool := false
  /-- executions of a dual readiness (R253) -/
  execs : List Exec := []
  /-- operands both executions of a dual readiness receive (R253) -/
  snapData : List Word := []
  snapInfo : List SlotInfo := []
  snapFresh : Nat := 0
  /-- the wait of this readiness is recorded (R260: to the first dispatch) -/
  waited : Bool := false
  /-- a third execution has been asked for (R255) -/
  third : Bool := false
  deriving DecidableEq, Repr

/-- A token on its way to the matching store (R239 to R241). -/
structure Tok where
  stall : Nat
  slot : Nat
  data : Word
  source : Nat
  /-- which of the sources of its code it comes from: converter, port and value, delay list, batten's channel, group -/
  port : Nat := 0
  sender : Nat := 0
  /-- none: the stamp is its arrival (R239) -/
  stamp : Option Nat := none
  late : Bool := false
  /-- moment at which it reached the store's input (R241) -/
  sent : Moment
  /-- host command that is DONE when the token is stored or discarded (R402) -/
  cmd : Option (Nat × Nat) := none
  deriving DecidableEq, Repr

/-- A READY execution in the ready queue (R243, R253, R255). -/
structure QExec where
  stall : Nat
  exec : Nat
  ready : Nat
  /-- placed at the head of its level (R255) -/
  head : Bool := false
  /-- preempted: its context is restored (R244) -/
  restore : Bool := false
  /-- a preempt attention stands for it (R246) -/
  asked : Bool := false
  deriving DecidableEq, Repr

/-! ## Loop cores (R262 to R295) -/

/-- A store that waits in a core's store queue (R284). -/
structure StoreOp where
  /-- shared SRAM, or the register window -/
  window : Bool
  addr : Nat
  words : List Word
  /-- its place in the order of the core's stores and posts -/
  order : Nat
  deriving DecidableEq, Repr

/-- A POST or DLC that waits in a core's POST queue (R284). -/
structure PostOp where
  out : Held
  sender : Nat
  order : Nat
  deriving DecidableEq, Repr

/-- What a core waits for while its pipeline holds (R266, R284). -/
inductive Waiting where
  /-- data of a shared-SRAM or window load, into the given registers -/
  | load (window : Bool) (addr : Nat) (regs : List Nat)
  | cmtg (slice : Nat)
  | postg (slice stall slot : Nat) (data : Word)
  | dli (list dir stall slot : Nat) (data : Word) (key : Nat)
  | storeRoom (op : StoreOp)
  | postRoom (op : PostOp)
  /-- a SYNC or DONE that may not issue yet (R284) -/
  | sync
  | done (rearm : Bool)
  deriving DecidableEq, Repr

/-- What a core is doing (R261, R266, R280). -/
inductive CoreStatus where
  | take | running | stalled (w : Waiting) | selftest | off
  deriving DecidableEq, Repr

/-- A branch that has issued and not yet taken effect (R269): the delay slots still to come; with none left, the
instruction at the target is the next to issue. -/
structure Branch where
  target : Option Nat
  slots : Nat
  deriving DecidableEq, Repr

/-- One loop core. -/
structure LCore where
  /-- registers 0 to 51 by their number (R262); unlisted registers read 0 (log 4) -/
  r : Tab Word := []
  /-- accumulators a0 to a3 (R262) -/
  a : Tab (BitVec 72) := []
  /-- address of the next instruction (R281) -/
  pc : Nat := 0
  /-- body start and end addresses of levels 0 to 2 (R262, R281) -/
  lstart : Tab Nat := []
  lend : Tab Nat := []
  /-- the level is a REP (R275) -/
  lrep : Tab Bool := []
  /-- active levels (R275, R276) -/
  levels : Nat := 0
  /-- pending load: registers and values (R268) -/
  pend : List (Nat × Word) := []
  /-- accumulators written by the last instruction (R268) -/
  accBy : List Nat := []
  branch : Option Branch := none
  /-- the last issue ended an iteration of a BLK level active until then (R278) -/
  iterEnd : Bool := false
  /-- issues since the last attention point (R279) -/
  runLen : Nat := 0
  status : CoreStatus := .off
  /-- running stall, 0 none, and its execution (R238) -/
  stall : Nat := 0
  exec : Nat := 0
  stores : List StoreOp := []
  posts : List PostOp := []
  /-- next place in the order of stores and posts -/
  order : Nat := 0
  /-- attentions pending (R280) -/
  preempt : Bool := false
  haltReq : Bool := false
  /-- withdrawn for self-test (R257) -/
  withdraw : Bool := false
  /-- step: halt again at the next attention point (R294) -/
  step : Bool := false
  /-- the context a halted core holds (R280, R281) -/
  ctx : Option (List Word) := none
  /-- status to which a halted core returns: it waited in TAKE -/
  haltedInTake : Bool := false
  /-- context saved around a self-test when the core ran no stall -/
  testCtx : Option (List Word) := none
  /-- ns at which it began to wait in TAKE (R243) -/
  takeSince : Nat := 0
  /-- order of its last dispatch (R246) -/
  dispatched : Nat := 0
  /-- ns of the stall's or busy interval's start and busy clocks of this millisecond (R260) -/
  busyFrom : Nat := 0
  busyAcc : Nat := 0
  stallFrom : Nat := 0
  /-- ns at which the present stall of the pipeline began (R266) -/
  holdFrom : Nat := 0
  deriving DecidableEq, Repr

/-- The hawker beside its registers. -/
structure Hwk where
  /-- the store's input queue, at most 64 tokens, and those that their sources hold (R241) -/
  tokens : List Tok := []
  held : List Tok := []
  /-- comparisons under way: the stall, and the moment at which each ends (R254) -/
  votes : List (Nat × Moment) := []
  queue : List QExec := []
  /-- next core of the self-test order and cores whose retest is due (R257, R259) -/
  nextTest : Nat := 0
  retests : List Nat := []
  /-- ns of the last 10 ms instant handled -/
  lastTest : Option Nat := none
  /-- dispatches so far, for the order of R246 -/
  dispatches : Nat := 0
  /-- LAW_PARAM writes that wait for the end of a run: stall, offset, bytes, command (R213) -/
  lawWait : List (Nat × Nat × List Byte × Option (Nat × Nat)) := []
  deriving DecidableEq, Repr

/-! ## Slices, banks and converters (R131 to R179) -/

/-- A slice's PWM beside its registers. -/
structure Slice where
  /-- counter held at 0 until the next carrier start (R131) -/
  held : Bool := true
  /-- outputs inactive until the first COMMIT's transfer (R21, R90, R154) -/
  waitCommit : Bool := false
  /-- the next carrier start is the restart after a freeze: a COMMIT before it does not count (R154) -/
  resumed : Bool := false
  /-- clock time (`Clk.raw`) of the last reload and of the last carrier start -/
  reloadAt : Int := 0
  carrierAt : Int := 0
  /-- switching period within the carrier period (R131) -/
  index : Nat := 0
  /-- outputs whose trailing edge is still to come in the present switching period, or that have none (R133) -/
  wave : Nat := 0
  /-- clock time after the reload up to which each output stays as the period before left it active, 2^-32 ns; none: to its
  leading edge (R133, R142) -/
  tail : Tab (Option Nat) := []
  /-- outputs whose drive was released at a reload (R136) -/
  drive : Bool := false
  /-- ball levels held by a freeze (R151) -/
  frozen : Option Nat := none
  /-- clock time since the last reload at which the counter froze, 2^-32 ns -/
  frozenFor : Nat := 0
  /-- grid correction absorbed, signed 2^-32 ns (R33) -/
  absorbed : Int := 0
  /-- slew in force (R158) -/
  slew : Nat := 1
  /-- a COMMIT reached the slice since the outputs were held (R90) -/
  committed : Bool := false
  /-- CARRIER came and the reload that starts the carrier period is still to be carried out (R131) -/
  carrierDue : Bool := false
  /-- a carrier start was carried out ahead of its CARRIER, as a write reached the slice in its count (R140) -/
  begun : Bool := false
  /-- consecutive carrier periods in which the slice saw a bad sync pulse (R147) -/
  syncMiss : Nat := 0
  /-- stagger fields in force (R145, R148) -/
  stManual : Bool := false
  stCounts : Nat := 3125
  stFine : Nat := 0
  /-- the duties last transferred, as DUTYx holds them, before the limit (R134) -/
  given : Tab Nat := []
  /-- pending stands for PERIOD alone (R139) -/
  periodOnly : Bool := false
  /-- of the last reload: it was a transfer reload, pending stood at it, its late event is counted, and it was carried
  out ahead of its RELOAD because a write reached the slice in its count (R140) -/
  wasTransfer : Bool := false
  hadPending : Bool := false
  lateDone : Bool := false
  early : Bool := false
  /-- comparator outputs asserted as the inputs were last given, as in OC TRIP.src (R174, R175) -/
  sides : Nat := 0
  /-- the stepper generator computed the duties at the last reload (R155, R156) -/
  quiet : Bool := false
  /-- moment at which the trip latch was last set (R175) -/
  trippedAt : Option Moment := none
  /-- count of the last shadow or COMMIT writes, and each of them: by a core, offset, value (R141) -/
  wroteAt : Nat := 0
  wrote : List (Bool × Nat × Nat) := []
  deriving DecidableEq, Repr

/-- A delay line: retired, and its tap count m of the last measurement (R143, R144). -/
structure Line where
  retired : Bool := false
  m : Nat := 0
  /-- physical tap that the calibration engine set it to (R143) -/
  tap : Nat := 0
  deriving DecidableEq, Repr

/-- A bank beside its registers. -/
structure Bank where
  /-- offset in force (R31, R148); bank Bb starts with b × 400 counts -/
  offset : Nat := 0
  /-- comparator under test: its role (R177) -/
  test : Option Nat := none
  /-- ns of the last 1 ms instant handled -/
  lastTest : Option Nat := none
  /-- comparators held out of service: roles 0 to 15 and 16 the spare (R177) -/
  compOut : Nat := 0
  /-- next role to test -/
  nextRole : Nat := 0
  /-- a new rate or offset waits for the 125 us instant (R90, R148) -/
  rateWait : Bool := false
  /-- rate in force (R88) and offset and stagger in force -/
  rate : Nat := 0
  /-- lines measured since the round began (R143) -/
  calCount : Nat := 0
  /-- a measured spare that goes into service: its slice, the output, and the clock time of the count at which it is
  switched (R143) -/
  swap : Option (Nat × Nat × Int) := none
  deriving DecidableEq, Repr

/-- One conversion in an entry's filter (R172). -/
structure Sample where
  code : Nat
  beyond : Bool
  deriving DecidableEq, Repr

/-- A converter entry beside its registers. -/
structure CvEntry where
  filter : List Sample := []
  /-- gain and depth in force (R173) -/
  gain : Nat := 0
  depth : Nat := 0
  /-- conversions at a new gain still to be left out -/
  skip : Nat := 0
  /-- SETTLING until the filter holds depth conversions -/
  settling : Bool := false
  /-- trigger instants of its delay timer that are still to be carried out, in clock time at a count, oldest first: the last
  may lie ahead (R164, R165) -/
  due : List Int := []
  deriving DecidableEq, Repr

/-- A running sequence (R166, R167). -/
structure CvRun where
  /-- entries still to run, the present one first, with the gain and depth sampled at their trigger -/
  entries : List (Nat × Nat × Nat)
  /-- conversions done in the present burst -/
  convs : Nat := 0
  /-- stamp of the burst's first conversion, ns -/
  stamp : Nat := 0
  /-- clock time at which the present conversion started, at a count (R160) -/
  start : Int
  deriving DecidableEq, Repr

/-- A converter. -/
structure Conv where
  ent : Tab CvEntry := []
  run : Option CvRun := none
  pendingTrig : Option (List (Nat × Nat × Nat)) := none
  /-- clock time at which the last held trigger started (R167) -/
  heldStart : Option Int := none
  deriving DecidableEq, Repr

/-! ## Modes and groups (R67 to R92) -/

/-- The pending cell-wide change (R80 to R84). -/
structure Change where
  id : Nat
  target : Nat
  epoch : Nat
  /-- mode when it was accepted -/
  old : Nat
  /-- the MODE_SET it came from; none for MODE.REQ -/
  cmd : Option (Nat × Nat)
  /-- false before the epoch, true from it until the change ends -/
  confirming : Bool := false
  /-- participating groups, bit g (R81) -/
  participants : Nat := 0
  deriving DecidableEq, Repr

/-- What a peer's mode-status record said last (R86, R87). -/
structure Peer where
  mode : Nat
  target : Nat
  pendingChange : Bool
  confirmed : Bool
  id : Nat
  epoch : Nat
  /-- link cycles since it arrived -/
  age : Nat := 0
  deriving DecidableEq, Repr

/-- Mode control beside its registers. -/
structure ModeCtl where
  change : Option Change := none
  /-- peers of the domain by node -/
  peers : List (Nat × Peer) := []
  deriving DecidableEq, Repr

/-- Why a group is stopping and where it goes (R73, R76, R324). -/
structure Stop where
  /-- target state: 0 OUT, 1 HOLD -/
  target : Nat
  reason : Nat
  /-- ns at which STOP.time has run out -/
  deadline : Nat
  /-- cause of the STO at its end, when it leads to OUT (R339) -/
  cause : Nat := 12
  deriving DecidableEq, Repr

/-! ## Driving coordinates and delay lists (R50 to R64) -/

/-- A queued step of a HOST coordinate (R59). -/
structure HostStep where
  cmd : Option (Nat × Nat)
  /-- Δ, Q32.32 -/
  delta : Int
  /-- duration, µs -/
  duration : Nat
  /-- sum of f over the ticks of the step so far -/
  progress : Nat := 0
  /-- moment at which it joined the queue (R54) -/
  since : Moment := 0
  deriving DecidableEq, Repr

/-- The last record of a LINK coordinate (R57). -/
structure LinkRec where
  value : Int
  rate : Int
  stamp : Nat
  deriving DecidableEq, Repr

/-- One driving coordinate beside its registers. -/
structure Coord where
  /-- the value, with 64 fraction bits: Q32.32 and 32 more below it (R50) -/
  value : Int := 0
  /-- the value at the previous tick (R102, R121) -/
  prev : Int := 0
  /-- rise of f: f at tick 0, ticks since, target (R53) -/
  riseBase : Nat := 1024
  riseTick : Nat := 0
  riseTarget : Nat := 1024
  link : Option LinkRec := none
  /-- link cycles since the last fresh record (R57) -/
  stale : Nat := 0
  /-- counted position of the ENCODER slice at the last tick (R51) -/
  lastPos : Option Int := none
  /-- source and slice of CFG at the last tick (R55) -/
  lastSource : Nat := 0
  lastSlice : Nat := 0
  /-- phase, in 2^-32 cycles, at the last tick (R58) -/
  lastPhi : Option Nat := none
  steps : List HostStep := []
  /-- OVERRIDE_SET commands that take effect at the next tick: factor, command, the moment at which each began (R54, R402) -/
  override : List (Nat × Option (Nat × Nat) × Moment) := []
  deriving DecidableEq, Repr

/-- The PHASE ball (R58). -/
structure Phase where
  /-- ns of the last selected edge -/
  lastEdge : Option Nat := none
  /-- the last three periods, newest first, ns -/
  periods : List Nat := []
  /-- selected edges so far -/
  edges : Nat := 0
  /-- last measured period, ns, and the last one measured while locked, at which an unlocked value goes on -/
  period : Nat := 0
  lockedPeriod : Nat := 0
  deriving DecidableEq, Repr

/-- An entry of a delay list (R60 to R63, R251). -/
structure DlEntry where
  key : Int
  /-- 0 UP, 1 DOWN, 2 EITHER -/
  dir : Nat
  stall : Nat
  slot : Nat
  data : Word
  /-- value minus key at insertion: negative, zero or positive -/
  side : Int
  /-- already reached at insertion (R61) -/
  late : Bool
  /-- moment of its insertion: a tick of the same count does not see it (R54, R492) -/
  since : Moment := 0
  /-- registered at a tick (R54) -/
  registered : Bool := false
  /-- ns of the tick at which it fired, while its delivery is deferred (R62) -/
  fired : Option Nat := none
  cmd : Option (Nat × Nat) := none
  deriving DecidableEq, Repr

/-- A delay list: its entries in order of insertion, and those that fired and whose token is still to be delivered. -/
structure DList where
  entries : List DlEntry := []
  /-- fired entries with their firing tick, ns -/
  due : List (DlEntry × Nat) := []
  deriving DecidableEq, Repr


/-! ## Motion programs (R93 to R129) -/

/-- A segment descriptor (R100, R101); fields its type does not define are 0. -/
structure Seg where
  kind : Nat := 0
  notify : Bool := false
  blend : Bool := false
  ridge : Bool := false
  coord : Nat := 0
  tag : Nat := 0
  joints : Nat := 0
  vscale : Nat := 0
  ascale : Nat := 0
  jscale : Nat := 0
  targets : List Int := []
  length : Int := 0
  value : Int := 0
  down : Bool := false
  interrupt : Bool := false
  pitch : Nat := 0
  timeout : Nat := 0
  joint : Nat := 0
  steps : Int := 0
  rStart : Nat := 0
  rMax : Nat := 0
  accel : Nat := 0
  deriving DecidableEq, Repr

/-- A normalised jerk-limited profile: values with 40 fraction bits (R110). -/
structure Profile where
  vn : Nat := 0
  an : Nat := 0
  jn : Nat := 0
  tj : Nat := 0
  ta : Nat := 0
  tacc : Nat := 0
  tv : Nat := 0
  deriving DecidableEq, Repr

/-- A segment that has become current (R102, R103). -/
structure Track where
  seg : Seg
  /-- ring slot -/
  slot : Nat
  /-- K_start, Q32.32 -/
  kStart : Int := 0
  /-- u, with 42 fraction bits (R102) -/
  u : Int := 0
  /-- D, with 42 fraction bits -/
  len : Int := 0
  prof : Profile := {}
  /-- q0 of each joint, Q32.32 (R111) -/
  q0 : List Int := []
  /-- ns of the tick at which it became current -/
  since : Nat := 0
  /-- what it waits for held as it became current: it completes, at a later tick where four have (R104, R114, R115) -/
  passed : Bool := false
  /-- progress past D of a segment that has reached it (R102, R104) -/
  excess : Int := 0
  /-- its pitch request stands in the safety region (R114) -/
  asked : Bool := false
  deriving DecidableEq, Repr

/-- Set-points of one joint: Q32.32 rev, Q16.16 rev/s, Q16.16 rev/s² (R108, R214). -/
structure Setp where
  pos : Int := 0
  vff : Int := 0
  aff : Int := 0
  deriving DecidableEq, Repr

/-- An arm group and its profile engine beside their registers. -/
structure Grp where
  /-- the stop that runs (R73, R324) -/
  stop : Option Stop := none
  /-- GROUP_SET in progress, and the state it asked for -/
  cmd : Option (Nat × Nat) := none
  want : Nat := 0
  /-- ns of START while the OUT-to-HOLD sequence runs (R76, R233) -/
  start : Option Nat := none
  cur : Option Track := none
  /-- the blended successor, already current (R112) -/
  next : Option Track := none
  /-- segments prefetched and not yet current, with their ECC verdict (R99) -/
  fetched : List (Seg × Bool) := []
  /-- ramp of h: 0 steady, 1 falling, 2 rising; h at its start; ticks since (R105) -/
  ramp : Nat := 0
  rampFrom : Nat := 1024
  rampTick : Nat := 0
  /-- reason the queue takes as it comes to rest; 0 HALTED (R106, R107) -/
  endReason : Nat := 0
  setp : Tab Setp := []
  /-- targets of the previous JOINT_LINEAR when every segment since completed (R111) -/
  targets : Tab (Option Int) := []
  /-- coordinate and end value of the segment that completed last; none when the next starts afresh (R103) -/
  chain : Option (Nat × Int) := none
  /-- a COORD_SYNC completed by a crossing at this tick: its coordinate and value start the next segment (R103) -/
  crossing : Option (Nat × Int) := none
  /-- feedforward task: ns of its last post, its operands, whether it has ended since, consecutive misses (R116, R118) -/
  ffStart : Option Nat := none
  ffOps : List Setp := []
  ffDone : Bool := false
  ffMiss : Nat := 0
  /-- its results for the next multiple of 250 us, those in force, whether they stay for one interval more after a miss,
  and ns of the last multiple served (R116, R118) -/
  ffNext : Option (List Word) := none
  ffOut : List Word := []
  ffHold : Bool := false
  ffAt : Option Nat := none
  /-- PAYLOAD_SET commands that wait for the next multiple of 250 us: command, link, mass, centre, inertia (R119) -/
  payload : List (Option (Nat × Nat) × Nat × Nat × Nat × Nat) := []
  /-- ns of the last entry into OUT -/
  outAt : Nat := 0
  /-- moment of the last action of a fault on the group (R78) -/
  faultAt : Option Moment := none
  deriving DecidableEq, Repr

/-- An entry of the compare unit (R120 to R122). -/
structure CmpEntry where
  key : Int
  interval : Int
  rep : Nat
  tag : Nat
  coord : Nat
  down : Bool
  fireLate : Bool
  act : Nat
  slice : Nat
  out : Nat
  width : Nat
  stall : Nat
  slot : Nat
  data : Word
  /-- the 32 bytes as given, for the read-only view (R130) -/
  raw : Nat
  cmd : Option (Nat × Nat) := none
  armed : Bool := false
  /-- moment of its arrival: a tick of the same count does not register it (R122, R492) -/
  since : Moment := 0
  /-- place in the order of registration (R123) -/
  order : Nat := 0
  /-- waits for its late firing since this ns (R122) -/
  lateSince : Option Nat := none
  deriving DecidableEq, Repr

/-- An output action of the compare unit on its way to the slice (R124). -/
structure CmpAction where
  slice : Nat
  out : Nat
  width : Nat
  due : Moment
  deriving DecidableEq, Repr

/-- The compare unit beside its registers. -/
structure Cmp where
  /-- sorted by coordinate and key, equal keys in order of registration; unregistered entries stand last -/
  entries : List CmpEntry := []
  /-- entries registered so far -/
  registered : Nat := 0
  /-- firings deferred under R123, in firing order: the entry as it fires, and its crossing instant -/
  deferred : List (CmpEntry × Moment) := []
  actions : List CmpAction := []
  /-- end of the pulse on each slice's output -/
  pulses : Tab (Option Moment) := []
  deriving DecidableEq, Repr

/-- A stepper slice beside its registers (R126 to R129). -/
structure Stepper where
  /-- target count -/
  target : Int := 0
  /-- moment at which the step timer expires -/
  due : Option Moment := none
  /-- moment of the last emitted step -/
  last : Option Moment := none
  /-- P1 shows the negative direction, and since when (R128) -/
  back : Bool := false
  dirAt : Moment := 0
  /-- end of the step pulse on P0 -/
  pulseEnd : Option Moment := none
  /-- drive mode asked for by the rate, until the full step (R129) -/
  wantStrong : Bool := false
  /-- the STEP_PROFILE that runs (R127) -/
  prof : Option Seg := none
  /-- its steps done, and ns at which it became current -/
  done : Nat := 0
  profAt : Nat := 0
  /-- steps of what ran before it that are still to be emitted, signed (R128) -/
  owed : Int := 0
  /-- the step to come moves toward the target in the negative direction -/
  neg : Bool := false
  /-- set-point at the last tick, Q32.32 -/
  seen : Int := 0
  deriving DecidableEq, Repr

/-! ## Feedback ports and emulation (R181 to R208) -/

/-- A feedback port beside its registers. -/
structure Fbk where
  /-- filtered levels of F0, F1, F2 -/
  lines : Nat := 0
  /-- stamps of the edges of the run, newest first (R201) -/
  run : List Moment := []
  lastEdge : Option Moment := none
  /-- an edge was counted: its direction is FSTAT.dir -/
  armed : Bool := false
  /-- trigger instants still to come, in clock time at a count, oldest first (R197) -/
  due : List Int := []
  /-- trigger instant of the frame that runs (R191, R192) -/
  frame : Option Moment := none
  /-- earliest instant at which the next frame may start (R191) -/
  frameFree : Moment := 0
  /-- c of the last good frame, and frames started since (R195) -/
  lastC : Option Int := none
  frames : Nat := 0
  /-- the next good frame changes POS without counting a change (R195) -/
  afresh : Bool := true
  /-- sign of the last non-zero change of c (R205) -/
  lastSign : Int := 0
  goodStamp : Option Moment := none
  /-- moment of the last change of c (R203) -/
  moved : Moment := 0
  /-- change of c and time of the last two good frames (R203) -/
  dC : Int := 0
  dT : Nat := 0
  /-- part of POS that was changed without counting (R51, R195) -/
  uncounted : Int := 0
  /-- a ONCE index is armed (R189) -/
  onceArmed : Bool := false
  /-- last edge of Z to its active level, and an index event upwards has occurred since (R188, R189) -/
  zEdge : Option Moment := none
  zDone : Bool := false
  /-- what the last counted edge added to POS (R190) -/
  lastCount : Int := 0
  /-- last index event and last preset (R190) -/
  indexAt : Option Moment := none
  presetAt : Option Moment := none
  /-- POS that stood before the last preset (R189, R190) -/
  posBefore : Nat := 0
  /-- the word whose write made the last preset (R190, R436) -/
  presetWord : Nat := 2
  /-- last change of the direction line and its level before (R187) -/
  dirAt : Option (Moment × Bool) := none
  /-- the clock of the last serial frame on F0: when it began, and when it ends high for good, once known (R191, R192) -/
  clock : Option (Moment × Option Moment) := none
  /-- moment of the last latch of an incremental port (R198) -/
  latchedAt : Option Moment := none
  deriving DecidableEq, Repr

/-- An emulation port beside its registers (R206 to R208). -/
structure Emu where
  /-- source position, extended without wrap, and the POS it was last read from -/
  x : Int := 0
  lastPos : Nat := 0
  target : Int := 0
  /-- moment of the last change, and at which the next change of a coordinate source is due -/
  last : Option Moment := none
  next : Option Moment := none
  /-- interval between changes, counts, as spread over the tick (R207) -/
  gap : Nat := 0
  deriving DecidableEq, Repr

/-! ## The safety region (R296 to R339) -/

/-- A point or vector, 3 × Q16.16 mm unless its field says otherwise. -/
structure Vec where
  x : Int := 0
  y : Int := 0
  z : Int := 0
  deriving DecidableEq, Repr

/-- A rotation, row by row, Q2.30 (R119, R336). -/
structure Rot where
  x : Vec := {}
  y : Vec := {}
  z : Vec := {}
  deriving DecidableEq, Repr

/-- GROUPS record of a safety image (R336). -/
structure SGroup where
  joints : Nat := 0
  tcpCap : Nat := 0
  tcpEnd : Nat := 0
  baseRot : Rot := {}
  baseOrg : Vec := {}
  tr : Nat := 0
  zr : Nat := 0
  vCollab : Nat := 0
  vProduce : Nat := 0
  vmax : Nat := 0
  holdMax : Nat := 0
  stopTime : Nat := 0
  /-- stop points in use: v mm/s, S UQ13.3 mm, T µs (R308) -/
  stops : List (Nat × Nat × Nat) := []
  deriving DecidableEq, Repr

/-- JOINTS record (R336); `origin` is 3 × Q16.16 m (R119). -/
structure SJoint where
  group : Nat
  joint : Nat
  prismatic : Bool
  parent : Nat
  origin : Vec
  rot : Rot
  cpj : Int
  zero : Int
  still : Nat
  jump : Nat
  deriving DecidableEq, Repr

/-- CAPSULES record (R336). -/
structure SCap where
  group : Nat := 0
  frame : Nat := 0
  p : Vec := {}
  q : Vec := {}
  radius : Nat := 0
  deriving DecidableEq, Repr

/-- CONNECTIONS record (R336). -/
structure SConn where
  node : Nat := 0
  conn : Nat := 0
  seed : Nat := 0
  watchdog : Nat := 0
  slotBase : Nat := 0
  slotCount : Nat := 0
  extra : Nat := 0
  lo : Vec := {}
  hi : Vec := {}
  deriving DecidableEq, Repr

/-- A capsule (kind 1) or a rounded box (kind 2) in the cell frame (R304, R336); kind 0: none. -/
structure Shape where
  kind : Nat := 0
  p : Vec := {}
  q : Vec := {}
  radius : Nat := 0
  deriving DecidableEq, Repr

/-- ZONES record (R336). -/
structure SZone where
  slot : Nat := 0
  intrusion : Bool := false
  input : Nat := 0
  shape : Shape := {}
  extra : Nat := 0
  deriving DecidableEq, Repr

/-- PITCHES record (R336). -/
structure SPitch where
  home : Nat := 0
  shape : Shape := {}
  groups : Nat := 0
  deriving DecidableEq, Repr

/-- INPUTS record (R336): function 0 none, 1 ESTOP0, 2 ESTOP1, 3 ENABLE, 4 INTRUSION. -/
structure SInput where
  fn : Nat := 0
  groups : Nat := 0
  antivalent : Bool := false
  disc : Nat := 0
  filter : Nat := 0
  deriving DecidableEq, Repr

/-- PAIRS entry (R314). -/
structure SPair where
  a : Nat := 0
  b : Nat := 0
  kind : Nat := 0
  curve : Nat := 0
  act : Nat := 0
  margin : Nat := 0
  deriving DecidableEq, Repr

/-- A safety configuration image, its records by their number (R334, R336). -/
structure SafImage where
  revision : Nat := 0
  sep : Bool := false
  eMax : Nat := 0
  tol : Nat := 0
  stoTest : Nat := 0
  vhDefault : Nat := 0
  pitchReq : Nat := 0
  pitchHold : Nat := 0
  groups : Tab SGroup := []
  joints : List SJoint := []
  caps : List SCap := []
  conns : Tab SConn := []
  zones : List SZone := []
  pitches : Tab SPitch := []
  curves : Tab (List (Nat × Nat)) := []
  inputs : Tab SInput := []
  pairs : Tab SPair := []
  digest : List Byte := []
  deriving DecidableEq, Repr

/-- What a connection's record wrote to a presence slot (R304, R306). -/
structure Presence where
  shape : Shape := {}
  vh : Nat := 0
  deriving DecidableEq, Repr

/-- A connection beside its registers (R304, R306, R362). -/
structure ConnState where
  /-- ns of the last good frame -/
  good : Option Nat := none
  /-- its slots' records; none: the fallback box stands (R306) -/
  slots : Tab (Option Presence) := []
  /-- sequence number of the last frame accepted by the Ubkair checks (R362) -/
  seq : Option Nat := none
  /-- moment of the last good frame, and what stood before the frames of that clock: whether the connection ran, and its
  slots (R307) -/
  before : Option (Moment × Bool × Tab (Option Presence)) := none
  deriving DecidableEq, Repr

/-- A request in a pitch's queue (R319, R321). -/
structure PitchReq where
  group : Nat
  node : Nat
  time : Nat
  deriving DecidableEq, Repr

/-- A safe input (R328): 0 OK, 1 DEMAND, 2 FAULT; and whether DEMAND has been shown since the FAULT. -/
structure InState where
  a : Bool := false
  b : Bool := false
  state : Nat := 1
  demandSeen : Bool := false
  /-- ns since which the combination is neither OK nor DEMAND -/
  odd : Option Nat := none
  deriving DecidableEq, Repr

/-- An action of a separation cycle on a group: STO, or else a protective stop, with its cause and its entry (R317, R318,
R322). -/
structure SafAct where
  group : Nat
  sto : Bool
  cause : Nat
  pair : Nat := 0
  deriving DecidableEq, Repr

/-- What a separation cycle publishes, and when: F_g of each group in order with the entry that gives it, and the actions
(R317, R331). -/
structure Publication where
  /-- ns at which publication ends -/
  at' : Nat
  factors : List (Nat × Nat)
  acts : List SafAct
  deriving DecidableEq, Repr

/-- What the last separation cycle left for the next. -/
structure Saf where
  image : SafImage := {}
  /-- an accepted image that waits for the next boundary, and its command (R333) -/
  waiting : Option (SafImage × Option (Nat × Nat)) := none
  conn : Tab ConnState := []
  queue : Tab (List PitchReq) := []
  /-- releases that arrived since the last boundary: pitch, group (R319) -/
  releases : List (Nat × Nat) := []
  /-- those of other nodes' groups: pitch, node (R319, R321) -/
  givenBack : List (Nat × Nat) := []
  inputs : Tab InState := []
  /-- ns of the last boundary, and the count of safety clocks at it (R298) -/
  last : Option Nat := none
  lastClocks : Option Int := none
  /-- no cycle has run since the image was accepted (R303) -/
  first : Bool := false
  /-- POS latched at the last boundary, by slice (R300) -/
  pos : Tab (Option Nat) := []
  /-- reference position of R323 and R74, by slice -/
  ref : Tab (Option Nat) := []
  /-- the joint stands outside its window in DEGRADED, and is recorded (R74) -/
  refTold : Tab Bool := []
  /-- end points of each capsule in the last cycle (R302) -/
  ends : Tab (Option (Vec × Vec)) := []
  /-- consecutive uncertain cycles of a slice's joint (R303) -/
  unsure : Tab Nat := []
  /-- consecutive disagreeing cycles of a pair (R312) -/
  disagree : Tab Nat := []
  /-- ns of the onset of a pair's violation and the stopping time of R318 for each group concerned, µs -/
  onset : Tab (Option (Nat × List (Nat × Nat))) := []
  /-- holder records of other nodes: pitch ↦ (group, node) while held, and link cycles since each home's record (R321) -/
  remote : Tab (Option (Nat × Nat)) := []
  homeAge : Tab Nat := []
  /-- pitches of other nodes that a group of this device has given back and its home still shows as held: pitch, group
  (R113, R321, log 28) -/
  gives : List (Nat × Nat) := []
  /-- what the last cycle has still to publish; and whether a factor has been published since reset (R331) -/
  published : Option Publication := none
  factored : Bool := false
  /-- ns of the last output test (R327) -/
  lastTest : Option Nat := none
  deriving DecidableEq, Repr

/-! ## The signal fabric (R437 to R443) -/

/-- What a read of a point gives: its moment, ver, stamp and record (R438, R439). -/
structure FabRead where
  at' : Moment
  ver : Nat
  stamp : Nat
  record : List Byte
  deriving DecidableEq, Repr

/-- Who reads a point: coordinate n, map entry j of an own batten, the host window, or the device function that uses the
records of a peer (R57, R87, R321, R359, R442). -/
inductive FabReader where
  | coord (n : Nat)
  | batten (ch n j : Nat)
  | host
  | device (sender : Nat)
  deriving DecidableEq, Repr

/-- A read that has failed and is repeated: the next try, the tries left, and what a try has read (R439). -/
structure FabTry where
  reader : FabReader
  point : Nat
  kind : Nat
  next : Moment
  left : Nat := 7
  got : Option FabRead := none
  deriving DecidableEq, Repr

/-- An own batten some of whose points are still being read: the payload so far, how many reads are left, and the last
moment at which they may end (R359). -/
structure LeadRead where
  ch : Nat
  n : Nat
  payload : List Byte
  waits : Nat
  till : Int
  deriving DecidableEq, Repr

/-- A link write of a point, kept for the writes that arrive together with it (R438). -/
structure FabPut where
  at' : Moment
  point : Nat
  batten : Nat
  sender : Nat
  stamp : Nat
  record : List Byte
  deriving DecidableEq, Repr

/-- The signal fabric beside its registers and its memory (R437 to R443). -/
structure Fab where
  /-- ver of each reader's last successful read of its point, by reader key (R440) -/
  seen : Tab Nat := []
  /-- mirrored points whose copy is due (R443) -/
  due : List Nat := []
  /-- ns of the last copy of a point (R443) -/
  copied : Tab (Option Nat) := []
  /-- points whose refused device write is recorded (R441) -/
  told : List Nat := []
  /-- reads being repeated, the battens that wait for them, and the link writes of the present clock, by batten (R438,
  R439, R359) -/
  tries : List FabTry := []
  lead : List LeadRead := []
  puts : List FabPut := []
  deriving DecidableEq, Repr

/-! ## Camyel Link (R340 to R372) -/

/-- What a port has sent: a frame, a probe or an echo (R341, R342). -/
inductive Sent where
  | frame (bytes : List Byte)
  | probe
  | echo
  deriving DecidableEq, Repr

/-- Something sent on a port: channel, port, the moment of its first code group, and whether it was ended early
(R347). -/
structure Wire where
  ch : Nat
  port : Nat
  start : Moment
  sent : Sent
  cut : Bool := false
  deriving DecidableEq, Repr

/-- A port beside its registers. -/
structure LPort where
  /-- a probe has been sent and not yet answered (R342) -/
  probing : Bool := false
  /-- the last answered probes, newest first: half of (round trip - 64 ns), in 1/64 ns; at most 16 -/
  delays : List Int := []
  /-- answered probes since the port came up -/
  answered : Nat := 0
  /-- ns of the last probe -/
  lastProbe : Option Nat := none
  deriving DecidableEq, Repr

/-- A channel beside its registers. Lists of battens name them with their cycle number. -/
structure LChan where
  /-- battens accepted, those of which a frame was discarded, and those counted as missing (R356, R357) -/
  got : List (Nat × Nat) := []
  bad : List (Nat × Nat) := []
  missed : List (Nat × Nat) := []
  /-- ports on which a batten's frames arrived in this cycle, bit p (R346) -/
  seen : Tab Nat := []
  /-- consecutive cycles in which some frame arrived on one port only (R346) -/
  oneSided : Nat := 0
  /-- missing battens of each sender in this cycle (R357) -/
  missing : Tab Nat := []
  /-- payloads read for own battens: none, not ready (R359) -/
  ready : Tab (Option (List Byte)) := []
  deriving DecidableEq, Repr

/-- The node beside its registers. -/
structure Lnk where
  port : Tab LPort := []
  chan : Tab LChan := []
  /-- deviations of this cycle's sync frames, in 1/32 ns (R363) -/
  vals : List Int := []
  /-- this node has sent a SYNC frame in this cycle (R363) -/
  sentSync : Bool := false
  /-- a SYNC frame of another node was accepted in this cycle (R369) -/
  heardSync : Bool := false
  /-- number of the cycle whose end comes next (R363) -/
  cycle : Nat := 0
  /-- consecutive cycles: short (R363), within precision (R366, R367), with a SYNC frame heard (R369) -/
  short : Nat := 0
  good : Nat := 0
  heard : Nat := 0
  /-- cycles in COLDSTART (R369) -/
  rounds : Nat := 0
  /-- ns at which the listen timeout started, or the node entered COLDSTART (R368, R369) -/
  listenFrom : Nat := 0
  /-- RT.STATUS has been SYNC since device reset (R367) -/
  synced : Bool := false
  /-- what the ports have sent, oldest first -/
  wire : List Wire := []
  deriving DecidableEq, Repr

/-! ## Twin operation (R373 to R392) -/

/-- A VEL law's state captured as its snapshot run began (R381, R382): bytes [15:4] and [63:16] of its slice record, and
the stall; `out0` once that run has ended. -/
structure Snap where
  stall : Nat
  head : List Byte
  before : List Byte
  out0 : Option Nat := none
  deriving DecidableEq, Repr

/-- A disposition that a device in SYNCING or STANDBY has made and not posted (R420, R421). -/
structure TwinDisp where
  head : CmdHead
  opcode : Nat
  cmd : Option HostCmd
  /-- 1 ACCEPT, 2 REJECT -/
  kind : Nat
  reason : Nat
  detail : Nat
  deriving DecidableEq, Repr

/-- Twin operation beside its registers. -/
structure Twin where
  /-- role that the peer's last cell record or confirm frame showed (R381, R383) -/
  peerRole : Nat := 0
  /-- highest sequence number validated by the peer, by command ledger (R383) -/
  confirmed : Tab Nat := []
  /-- writes to host memory have stopped: the device yields (R390) -/
  hostStop : Bool := false
  /-- law-table CRC and image digest of the peer's last cell record (R392, health bit 5) -/
  peerTable : Option (Nat × Nat) := none
  /-- mirror frames accepted in this cycle by their number, and whether any was heard (R374, R382) -/
  frames : Tab (List Byte) := []
  heard : Bool := false
  /-- mismatch count and health word of the confirm frame accepted in this cycle (R386) -/
  peerConf : Option (Nat × Nat) := none
  /-- health word that this device has sent in this cycle, and the mismatch count of its confirm frame (R386) -/
  sentHealth : Option Nat := none
  sentCount : Option Nat := none
  /-- health word of the cell record accepted in this cycle (R386) -/
  cellHealth : Option Nat := none
  /-- the last complete set, 5,120 bytes, and its cycle; empty before the first (R382, R383) -/
  set : List Byte := []
  setCycle : Nat := 0
  /-- a complete set was applied in this cycle (R387) -/
  applied : Bool := false
  /-- the last confirm frame carried the count 4 (R386) -/
  four : Bool := false
  /-- consecutive sets that count toward STANDBY (R375) -/
  good : Nat := 0
  /-- consecutive link cycles without a complete set (R387), and without a mirror frame while the link is ACTIVE (R374) -/
  loss : Nat := 0
  quiet : Nat := 0
  /-- link cycles since a reported feedback error on a slice of an assigned group, to 16 (R392, health bit 2) -/
  fbkAge : Nat := 16
  /-- a takeover decided: its cause and T in ns (R389) -/
  decision : Option (Nat × Nat) := none
  /-- it was decided in this link cycle (R388) -/
  decidedNow : Bool := false
  /-- the takeover instant of the handover that made this device ACTIVE (R379) -/
  driveFrom : Option Moment := none
  /-- yield has been written (R387), and an arbitration has been lost (R386) -/
  yielding : Bool := false
  lost : Bool := false
  /-- ACT_IN rose while ACTIVE (R390); the slices inhibited since, bit by bit, and the moment of the last -/
  riseAt : Option Moment := none
  inhibited : Nat := 0
  lastInh : Moment := 0
  /-- the last edge of the filtered ACT_IN (R377) -/
  actAt : Option Moment := none
  /-- snapshot instant, ns; the group records taken at it; coordinate values at it (R382) -/
  snapAt : Nat := 0
  groupRecs : List Byte := []
  coordAt : Tab Int := []
  /-- snapshot runs by slice; and SPEED of the own port at its first latch from the instant on (R382, R385) -/
  snap : Tab (Option Snap) := []
  own : Tab (Option Word) := []
  /-- group states of the shadow engines (R376) -/
  shadow : Tab Nat := []
  /-- dispositions made and not posted, oldest first (R421) -/
  disps : List TwinDisp := []
  deriving DecidableEq, Repr

/-! ## The start of a count (R492) -/

/-- What a timing-clock count found as it began: what arrives in the count of a coordinate tick or of a trigger is used
from the next one (R54, R173, R492). -/
structure Timed where
  regs : Tab Word := []
  fbk : Tab Fbk := []
  phase : Phase := {}
  sram : Tab Byte := []
  dram : Tab Byte := []
  deriving DecidableEq, Repr

/-! ## The whole state -/

/-- The machine. `pending` is the queue of commands that wait, first in first out. -/
structure State where
  /-- commands that wait, first in, first out -/
  pending : List Instr := []
  /-- the model's own: free values handed out so far (log 2) -/
  free : Nat := 0
  /-- data of the last host read (R7, R8) -/
  hostRead : BitVec 64 := 0
  /-- MSI-X vectors signalled, oldest first (R393) -/
  irqs : List Nat := []
  /-- the PCIe link and the configuration space of the endpoint (R393, R394) -/
  pcie : PcieSetup := {}
  /-- every register of the BAR0 maps, by offset (R14) -/
  regs : Tab Word := []
  /-- what the present timing-clock count found as it began (R54, R173, R492) -/
  timed : Timed := {}
  /-- W1C bits that hardware set in the present timing-clock count: register, bits, moment (R13) -/
  raised : List (Nat × Nat × Moment) := []
  ic : Interconnect := {}
  /-- holding copies and held lower words of R8: key agent × 2^22 + offset; agent 0 the host, c + 1 core Cc -/
  holdRead : Tab (Option Word) := []
  holdWrite : Tab (Option Word) := []
  clk : Clk := {}
  tly : Tly := {}
  ldg : Ldg := {}
  /-- host memory as the device sees it (R395), and its 64-byte lines whose reads return an error or poisoned data
  (R403, R451) -/
  hostMem : Tab Byte := []
  hostBad : List Nat := []
  /-- open region faults, oldest first (R22) -/
  faults : List OpenFault := []
  stall : Tab Stall := []
  hwk : Hwk := {}
  core : Tab LCore := []
  /-- program memory, the same in all twelve cores: the contents of area a, 0 to 7 of the groups, 8 of the cell, 9 of the
  vendor; an area without an image holds zeros (R452) -/
  prog : Tab (List Byte) := []
  /-- local data memory of the cores: key core × 2^16 + address (R264) -/
  localMem : Tab Byte := []
  /-- words of local memory with an uncorrectable error, by their key (R265, R293) -/
  localBad : List Nat := []
  /-- words of local memory with a single-bit error, which a read corrects and counts (R265) -/
  localSoft : List Nat := []
  /-- shared SRAM by offset, and its words with an uncorrectable error (R264, R466) -/
  sram : Tab Byte := []
  sramBad : List Nat := []
  slice : Tab Slice := []
  /-- delay lines: key slice × 5 + line; and the line that serves output x, key slice × 5 + x, 4 the spare (R143) -/
  line : Tab Line := []
  serve : Tab Nat := []
  bank : Tab Bank := []
  conv : Tab Conv := []
  mode : ModeCtl := {}
  coord : Tab Coord := []
  phase : Phase := {}
  dl : Tab DList := []
  grp : Tab Grp := []
  cmp : Cmp := {}
  step : Tab Stepper := []
  /-- external DRAM by byte address, and its 32-byte lines with an uncorrectable error (R463, R465) -/
  dram : Tab Byte := []
  dramBad : List Nat := []
  fbk : Tab Fbk := []
  emu : Tab Emu := []
  /-- the PWM balls are driven: the cell has entered CONFIGURE since device reset (R137) -/
  balls : Bool := false
  /-- the timing clock is absent (R24, R478), and the motion region is debug-halted (R295) -/
  tclkGone : Bool := false
  motionHalted : Bool := false
  /-- consecutive conversions of a CM channel out of its limit, and supplies reported out of range (R486) -/
  cmBad : Tab Nat := []
  cmOut : Nat := 0
  /-- ns of the last 100 us interval whose conversions CM has ended (R179) -/
  cmLast : Option Nat := none
  /-- reads of failing shared-SRAM words already reported, as (word, stall) (R466) -/
  sramTold : List (Nat × Nat) := []
  saf : Saf := {}
  sec : Sec := {}
  pwr : Pwr := {}
  twin : Twin := {}
  fab : Fab := {}
  lnk : Lnk := {}
  deriving DecidableEq, Repr

/-- The machine right after a device reset: BOOT, no register written since (every register reads its Reset column,
R14), every queue, buffer and memory empty. Values the spec does not give are named in log 3, 4 and 5. -/
def State.reset : State := {}

/-- Why the machine stops with a fault: the spec names none (no command of the table stops the block), so there is no
constructor. -/
inductive Fault where
  deriving DecidableEq, Repr

/-- Why a command has no meaning. -/
inductive Refusal where
  /-- Raised by an arm of Dispatch whose row has no meaning yet; safe: the machine stops where the hardware goes on. -/
  | notModelled (mnemonic : String)
  deriving DecidableEq, Repr

end Sys2Proof.Machine
end

