-- ==== Sys2Proof/Machine/Ops.lean ====
section
/-!
DEFINITION. The named operations over registers, time, host memory and interrupts that every meaning uses: reading and
writing a register or a field (R2, R7, R8, R14), ridge time and stamps (R38, R44), free values (log 2), MSI-X
vectors (R393, R394) and the tally (R426 to R436, R493).
-/

namespace Sys2Proof.Machine

/-! ## Registers -/

/-- The word held by the register at BAR0 offset `a` (R14). -/
def State.reg (s : State) (a : Nat) : Word := Tab.get resetWord s.regs a

/-- The state with one register's word replaced. -/
def State.setReg (s : State) (a : Nat) (w : Word) : State := { s with regs := Tab.set resetWord s.regs a w }

/-- The value of a field (R2). -/
def State.fld (s : State) (f : Fld) : Nat := fieldOf (s.reg f.addr) f.lsb f.width

/-- The state with one field replaced; the other bits of its register stay (R2). -/
def State.setFld (s : State) (f : Fld) (v : Nat) : State :=
  s.setReg f.addr (withField (s.reg f.addr) f.lsb f.width v)

/-- A one-bit field that reads 1. -/
def State.flag (s : State) (f : Fld) : Bool := s.fld f == 1

/-- A one-bit field set or cleared. -/
def State.setFlag (s : State) (f : Fld) (b : Bool) : State := s.setFld f (if b then 1 else 0)

/-- The two's-complement value of a field (R3). -/
def State.ifld (s : State) (f : Fld) : Int := signedOf f.width (s.fld f)

/-- A counting field that saturates at its largest value. -/
def State.countFld (s : State) (f : Fld) (n : Nat := 1) : State := s.setFld f (satCount f.width (s.fld f + n))

/-- A counting field that wraps. -/
def State.wrapFld (s : State) (f : Fld) (n : Nat := 1) : State := s.setFld f (s.fld f + n)

/-- Bit `i` of a field that holds one bit per object. -/
def State.bitFld (s : State) (f : Fld) (i : Nat) : Bool := (s.fld f).testBit i

/-- Bit `i` of a number set or cleared. -/
def setBitNat (v i : Nat) (b : Bool) : Nat :=
  if b then v ||| (1 <<< i) else if v.testBit i then v - (1 <<< i) else v

/-- Bit `i` of a field set or cleared. -/
def State.setBitFld (s : State) (f : Fld) (i : Nat) (b : Bool) : State := s.setFld f (setBitNat (s.fld f) i b)

/-- The value of a 64-bit pair whose lower word is at `a` (R8). -/
def State.pair (s : State) (a : Nat) : Nat := (s.reg a).toNat + (s.reg (a + 4)).toNat * 2 ^ 32

/-- The two's-complement value of a 64-bit pair (R3, R8). -/
def State.ipair (s : State) (a : Nat) : Int := signedOf 64 (s.pair a)

/-- The state with a 64-bit pair replaced (R8). -/
def State.setPair (s : State) (a : Nat) (v : Nat) : State :=
  (s.setReg a (BitVec.ofNat 32 v)).setReg (a + 4) (BitVec.ofNat 32 (v / 2 ^ 32))

/-- A field of the state's registers changed by every function of a list, in order. -/
def State.each {α : Type} (s : State) (xs : List α) (f : State → α → State) : State := xs.foldl f s

/-- A change made only when a condition holds. -/
def State.onlyIf (s : State) (b : Bool) (f : State → State) : State := if b then f s else s

/-! ## Time -/

/-- One nanosecond of ridge time in the clock's units of 2^-32 ns. -/
def nsUnit : Nat := 2 ^ 32

/-- One timing-clock count, 2.5 ns (R38). -/
def countUnit : Nat := 5 * 2 ^ 31

/-- Ridge time in ns (R38). -/
def State.now (s : State) : Nat := s.clk.time / nsUnit

/-- The clock domains of R492. -/
inductive Domain where
  | timing | safety | core
  deriving DecidableEq, Repr

/-- One clock of a domain: 2.5 ns, 25 ns, 1.25 ns (R492). -/
def Domain.unit : Domain → Nat
  | .timing => countUnit
  | .safety => 10 * countUnit
  | .core => countUnit / 2

/-- The domain that owns the register at a BAR0 offset: timing for RT, CRD, the compare unit's part of MOT, PWM, ADC, FBK
and LNK, safety for SAF, core for the rest (R34, R492). -/
def domainOf (a : Nat) : Domain :=
  if 0x20000 ≤ a && a < 0x40000 || 0x42000 ≤ a && a < 0x43000 || 0x100000 ≤ a && a < 0x200000 ||
      0x2C0000 ≤ a && a < 0x300000 then .timing
  else if 0x280000 ≤ a && a < 0x2C0000 then .safety
  else .core

/-- Two moments fall in the same clock of a domain (R492). A command stands in the queue where its access has arrived in
the domain (log 73). -/
def sameClock (d : Domain) (a b : Moment) : Bool := a / d.unit == b / d.unit

/-- The state at a new clock. Where a new count begins, what it finds is kept (R54, R492), and no W1C bit has been set in
it yet (R13). -/
def State.withClock (s : State) (c : Clk) : State :=
  if sameClock .timing s.clk.time c.time then { s with clk := c }
  else
    { s with
      clk := c
      timed := { regs := s.regs, fbk := s.fbk, phase := s.phase, sram := s.sram, dram := s.dram }
      raised := [] }

/-- The state with its inputs as the present count found them: what has arrived in the count is not among them (R54,
R492). -/
def State.asOf (s : State) : State :=
  { s with regs := s.timed.regs, fbk := s.timed.fbk, phase := s.timed.phase, sram := s.timed.sram, dram := s.timed.dram }

/-- What came at moment `t` came before the present count (R54, R492). -/
def State.cameBefore (s : State) (t : Moment) : Bool := !sameClock .timing t s.clk.time

/-- Hardware sets bits `v` of a W1C field: in the same clock a host write does not clear them (R13). -/
def State.raiseBits (s : State) (f : Fld) (v : Nat) : State :=
  { (s.setFld f (s.fld f ||| v)) with raised := (f.addr, v * 2 ^ f.lsb, s.clk.time) :: s.raised }

/-- Hardware sets a W1C bit (R13). -/
def State.raise (s : State) (f : Fld) : State := s.raiseBits f 1

/-- The bits of a register that hardware has set in the present clock of its domain (R13, R492). -/
def State.raisedNow (s : State) (a : Nat) : Nat :=
  (s.raised.filter fun e => e.1 == a && sameClock (domainOf a) e.2.2 s.clk.time).foldl (fun n e => n ||| e.2.1) 0

/-- Timing-clock time so far, in 2^-32 ns of nominal count time: ridge time without its corrections (R33, R131). -/
def Clk.raw (c : Clk) : Int := c.time - c.slewTotal

/-- What part of the outstanding offset correction a stretch of clock time applies: at most one count of 2.5 ns in any
400 counts (R39). -/
def Clk.slewPart (c : Clk) (raw : Nat) : Int :=
  let budget : Nat := (c.slewWait + raw) / (400 * countUnit) * countUnit
  if 0 ≤ c.slewLeft then min c.slewLeft budget else max c.slewLeft (-(budget : Int))

/-- Ridge time gains `gain` while the timing clock runs for `raw`, in 2^-32 ns of nominal count time; `part` of the gain
is the offset correction's (R33, R39). -/
def Clk.gained (c : Clk) (raw gain : Nat) (part : Int) : Clk :=
  { c with
    time := c.time + gain
    slewLeft := c.slewLeft - part
    slewTotal := c.slewTotal + ((gain : Int) - raw)
    slewWait := if c.slewLeft = part then 0 else Nat.min (400 * countUnit) (c.slewWait + raw - 400 * part.natAbs) }

/-- What the rate correction adds to a stretch of clock time (R38). -/
def rateDrift (rate : Int) (raw : Nat) : Int := raw * rate / 2 ^ 32

/-- The timing clock runs for a stretch: ridge time advances with it, adjusted by the rate correction and by the counts of
an offset correction, and never decreases (R38, R39). -/
def Clk.run (c : Clk) (rate : Int) (raw : Nat) : Clk :=
  let gain := ((raw : Int) + rateDrift rate raw + c.slewPart raw).toNat
  c.gained raw gain ((gain : Int) - raw - rateDrift rate raw)

/-- The clock time after which ridge time has first gained `span`, and the offset correction's part of the gain. Where the
count that the correction adds carries ridge time past `span`, the part that reaches it is counted, and the rest still
stands (R39). -/
def Clk.rawFor (c : Clk) (rate : Int) (span : Nat) : Nat × Int :=
  let plain (n : Int) : Nat := (n * 2 ^ 32 / (2 ^ 32 + rate)).toNat
  let most := c.slewPart (plain span)
  let raw := plain (span - most)
  if most < 0 then
    let part := c.slewPart raw
    (plain (span - part), part)
  else if c.slewPart raw = most then (raw, most)
  else
    let j := (most.toNat + countUnit - 1) / countUnit
    let edge := 400 * countUnit * j - c.slewWait
    let less : Int := ((j - 1) * countUnit : Nat)
    let raw := plain (span - less)
    if edge ≤ raw then (edge, (span : Int) - edge - rateDrift rate edge) else (raw, less)

/-- The rate correction in force (R39). -/
def State.rate (s : State) : Int := s.ifld F.RT_RATE_rate

/-- The clock brought forward to a moment of ridge time; it never goes back (R39). Without the timing clock it stands
still (R38). -/
def State.advanceTo (s : State) (t : Moment) : State :=
  if t ≤ s.clk.time || s.tclkGone then s
  else
    let r := s.clk.rawFor s.rate (t - s.clk.time)
    s.withClock (s.clk.gained r.1 (t - s.clk.time) r.2)

/-- The timing clock runs on for a number of 2^-32 ns of count time (R33, R38, R131). -/
def State.advanceBy (s : State) (raw : Nat) : State :=
  if raw = 0 || s.tclkGone then s else s.withClock (s.clk.run s.rate raw)

/-- The timing clock runs on to a clock time; it never goes back. -/
def State.advanceRaw (s : State) (t : Int) : State := s.advanceBy (t - s.clk.raw).toNat

/-- Clock time at the edge that began the present count (R38). -/
def State.edgeNow (s : State) : Int := s.clk.raw / countUnit * countUnit

/-- Ridge time at a clock time: as the corrections in force carry it on, or back from now (R38, R39, R44). -/
def State.ridgeAt (s : State) (t : Int) : Moment :=
  if s.clk.raw ≤ t then (s.clk.run s.rate (t - s.clk.raw).toNat).time else s.clk.time - (s.clk.raw - t).toNat

/-- One edge of the timing clock: 2.5 ns adjusted by the rate correction in force, and by one count more or less where
an offset correction is being spread out (R38, R39). -/
def State.countTick (s : State) : State := s.advanceBy countUnit

/-- The first multiple of `step` ns that lies after `after` ns. -/
def nextMultiple (step after : Nat) : Nat := if step = 0 then after else (after / step + 1) * step

/-! ## Free values (log 2) -/

/-- The next free value: nothing is known of it. -/
def State.freeVal (s : State) : BitVec 64 := Config.freeValue s.free

/-- The state after one free value has been handed out. -/
def State.usedFree (s : State) : State := { s with free := s.free + 1 }

/-! ## Host memory and interrupts -/

/-- The device's twin role is SYNCING or STANDBY (R373). -/
def State.isStandby (s : State) : Bool := s.fld F.TWN_STAT_role == 1 || s.fld F.TWN_STAT_role == 2

/-- Host memory is reachable (R394). -/
def State.hostUp (s : State) : Bool := s.flag F.LDG_STAT_link

/-- Host memory may be written: reachable, and the device does not yield (R390, R394). -/
def State.hostOut (s : State) : Bool := s.hostUp && !s.twin.hostStop

/-- Bytes written to host memory. -/
def State.hostWrite (s : State) (a : Nat) (bs : List Byte) : State := { s with hostMem := memWrite s.hostMem a bs }

/-- An MSI-X vector signalled: sent when host memory is reachable and the vector is not masked, else left in the
pending-bit array (R393, R394). -/
def State.signal (s : State) (v : Nat) : State :=
  if s.hostOut && !s.flag (F.MSIX_CTRL_mask v) then { s with irqs := s.irqs ++ [v] }
  else s.setPair A.PBA_PBA (setBitNat (s.pair A.PBA_PBA) v true)

/-- The EVENT vector (R393, R424). -/
def State.signalEvent (s : State) : State := s.signal 20

/-- Pending vectors that can now be sent are sent, lowest first (R393, R394). -/
def State.sendPending (s : State) : State :=
  if s.hostOut then
    s.each (List.range 21) fun s v =>
      if (s.pair A.PBA_PBA).testBit v && !s.flag (F.MSIX_CTRL_mask v) then
        { (s.setPair A.PBA_PBA (setBitNat (s.pair A.PBA_PBA) v false)) with irqs := s.irqs ++ [v] }
      else s
  else s

/-! ## Tally -/

/-- The sources of tally records (R429). -/
inductive TSource where
  | chip | slice (s : Nat) | bank (b : Nat) | region (r : Nat) | group (g : Nat) | core (c : Nat)
  | stall (n : Nat) | coord (n : Nat) | delayList (m : Nat) | conv (c : Nat) | link (i : Nat) | ledger (i : Nat)
  | safety (i : Nat) | host | many
  deriving DecidableEq, Repr

/-- The source field: a kind in bits [15:12] and an index in [11:0] (R429). -/
def TSource.code : TSource → Nat
  | .chip => 0
  | .slice s => 0x1000 + s
  | .bank b => 0x2000 + b
  | .region r => 0x3000 + r
  | .group g => 0x4000 + g
  | .core c => 0x5000 + c
  | .stall n => 0x6000 + n
  | .coord n => 0x7000 + n
  | .delayList m => 0x7010 + m
  | .conv c => 0x8000 + c
  | .link i => 0x9000 + i
  | .ledger i => 0xA000 + i
  | .safety i => 0xB000 + i
  | .host => 0xC000
  | .many => 0xF000

/-- The events of the tally (R436, R462). -/
inductive TEvent where
  | sliceTrip | bankFault | regionFault | regionResolved | escalated | tclkLost | safetyFault | ecc | reset | bankRetest
  | writeDiscarded | civilSet | periodError
  | changeDone | changeFailed | peerPull | groupState | requestRefused
  | timeStep | timeState
  | segNotify | interrupted | ffZeroed | ffMismatch | pitchUnheld | syncPassed | cmpDropped | cmpLate | cmpFired | cmpUnknown
  | coordSaturated | coordLost | dlFull
  | feedbackError | calFailed | lawFault | tokenReserved
  | deadlineMiss | quarantine | voteFail | coreFault | dualRegStore | selftestFail
  | sto | brake | input | connection | pitch | groupAction | imageRejected | imageAccepted | standstillDegraded
  | linkStateChange | mute | missing | ownFrame | ringClosed | portUpDown | commitFailed
  | arbitration | takeoverGap
  | hostLinkState | doorbellError | fetchError | ledgerFull | recoveryFresh | twinReject
  | secImageAccepted | secImageRejected | bootWait | rollbackAdvanced | keyProgrammed | keyRevoked | provisioned
  | debugUnlocked | debugUnlockFailed | debugRelocked | attested | firmwareSwitched
  | readFail | writeRefused
  deriving DecidableEq, Repr

/-- Class and code of an event (R428, R436, R462). FF_ZEROED by a joint count has the class that R118 names, as R428 has
it, with the code that R436 gives it (DEDUCED, log 85). -/
def TEvent.classCode : TEvent → Nat × Nat
  | .sliceTrip => (1, 1) | .bankFault => (1, 2) | .regionFault => (1, 3) | .regionResolved => (1, 4)
  | .escalated => (1, 5) | .tclkLost => (1, 6) | .safetyFault => (1, 7) | .ecc => (1, 8) | .reset => (1, 9)
  | .bankRetest => (1, 10)
  | .writeDiscarded => (2, 1) | .civilSet => (2, 2) | .periodError => (2, 3)
  | .changeDone => (3, 1) | .changeFailed => (3, 2) | .peerPull => (3, 3) | .groupState => (3, 4)
  | .requestRefused => (3, 5)
  | .timeStep => (4, 1) | .timeState => (4, 2)
  | .segNotify => (5, 1) | .interrupted => (5, 2) | .ffZeroed => (5, 3) | .ffMismatch => (2, 3) | .pitchUnheld => (5, 4)
  | .syncPassed => (5, 5) | .cmpDropped => (5, 6) | .cmpLate => (5, 7) | .cmpFired => (5, 8) | .cmpUnknown => (5, 9)
  | .coordSaturated => (5, 10) | .coordLost => (5, 11) | .dlFull => (5, 12)
  | .feedbackError => (6, 1) | .calFailed => (6, 2) | .lawFault => (6, 3) | .tokenReserved => (6, 4)
  | .deadlineMiss => (7, 1) | .quarantine => (7, 2) | .voteFail => (7, 3) | .coreFault => (7, 4)
  | .dualRegStore => (7, 5) | .selftestFail => (7, 6)
  | .sto => (8, 1) | .brake => (8, 2) | .input => (8, 3) | .connection => (8, 4) | .pitch => (8, 5)
  | .groupAction => (8, 6) | .imageRejected => (8, 7) | .imageAccepted => (8, 8) | .standstillDegraded => (8, 9)
  | .linkStateChange => (9, 1) | .mute => (9, 2) | .missing => (9, 3) | .ownFrame => (9, 4) | .ringClosed => (9, 5)
  | .portUpDown => (9, 6) | .commitFailed => (9, 7)
  | .arbitration => (10, 1) | .takeoverGap => (10, 2)
  | .hostLinkState => (11, 1) | .doorbellError => (11, 2) | .fetchError => (11, 3) | .ledgerFull => (11, 4)
  | .recoveryFresh => (11, 5) | .twinReject => (11, 6)
  | .secImageAccepted => (12, 1) | .secImageRejected => (12, 2) | .bootWait => (12, 3) | .rollbackAdvanced => (12, 4)
  | .keyProgrammed => (12, 5) | .keyRevoked => (12, 6) | .provisioned => (12, 7) | .debugUnlocked => (12, 8)
  | .debugUnlockFailed => (12, 9) | .debugRelocked => (12, 10) | .attested => (12, 11) | .firmwareSwitched => (12, 12)
  | .readFail => (13, 1) | .writeRefused => (13, 2)

/-- The coalescing stage at an occupancy (R432): 0 none, 1 to 3 the rows of the table. -/
def tallyStage (hiwater occ : Nat) : Nat :=
  if occ < hiwater then 0 else if occ < 3584 then 1 else if occ < 3968 then 2 else 3

/-- A record is a merge target for a new one at the given stage (R432). -/
def TallyRec.matches (stage : Nat) (r t : TallyRec) : Bool :=
  r.cls == t.cls && r.code == t.code && (stage ≥ 3 || r.source == t.source) && (stage ≥ 2 || r.d0 == t.d0)

/-- A merge of one event into a record (R433). -/
def TallyRec.merge (t r : TallyRec) : TallyRec :=
  let coalesced := t.flags.testBit 3
  let flags := setBitNat t.flags 3 true
  let flags := if t.d0 ≠ r.d0 then setBitNat flags 4 true else flags
  let flags := if t.source ≠ r.source then setBitNat flags 5 true else flags
  { t with
    flags := flags
    source := if t.source ≠ r.source then TSource.many.code else t.source
    d1 := if coalesced then satCount 32 (t.d1 + 1) else 2
    d2 := r.stamp }

/-- The last element of a list that meets a condition is changed; none when no element does. -/
def changeLast {α : Type} (p : α → Bool) (f : α → α) : List α → Option (List α)
  | [] => none
  | x :: xs =>
    match changeLast p f xs with
    | some ys => some (x :: ys)
    | none => if p x then some (f x :: xs) else none

/-- The place of a record among those of one clock, where its source has a level: slice, bank, region, chip, each by its
instance (R25). -/
def TallyRec.level (r : TallyRec) : Option Nat :=
  if r.source = 0 then some 0x4000 else if 0x1000 ≤ r.source && r.source < 0x4000 then some r.source else none

/-- A record belongs before another of its clock: by class and code where they have one source, and by level where their
sources have one (R25, R427). RESET is the first record after a reset whatever comes with it (R435). -/
def TallyRec.precedes (r t : TallyRec) : Bool :=
  if t.cls * 256 + t.code = 265 then false
  else if r.source = t.source then r.cls * 256 + r.code < t.cls * 256 + t.code
  else
    match r.level, t.level with
    | some a, some b => decide (a < b)
    | _, _ => false

/-- Two records entered in one core clock (R427, R492). -/
def TallyRec.together (r t : TallyRec) : Bool :=
  match r.entered, t.entered with
  | some a, some b => sameClock .core a b
  | _, _ => false

/-- A record enters the ring. Records of one clock stand in the order of R427, and the sequence numbers follow the
ring. -/
def tallyEnter (r : TallyRec) (ring : List TallyRec) : List TallyRec :=
  let behind (t : TallyRec) : Bool := r.together t && r.precedes t
  let i := ring.findIdx behind
  let rest := ring.drop i
  ring.take i ++ List.zipWith (fun (t : TallyRec) q => { t with seq := q }) (r :: rest) (rest.map (·.seq) ++ [r.seq])

/-- The merges of the present core clock (R433). -/
def State.mergesNow (s : State) : List (TallyRec × TallyRec) :=
  if sameClock .core s.tly.mergedAt s.clk.time then s.tly.merges else []

/-- A record enters the ring, with the next sequence number and the ledger that ROUTE names, or merges into the latest
record its stage allows (R430, R432, R433, R434). None enters before the RESET record of a reset, or after the supply
monitor's warning of a brownout (R435). -/
def State.tallyPut (s : State) (r : TallyRec) : State :=
  if s.pwr.held || s.flag F.PIN_SUPPLY_warn then s else
  let r := { r with seq := s.tly.next, ledger := s.fld ⟨A.TLY_ROUTE, 2 * r.cls, 2⟩, entered := some s.clk.time }
  let stage := tallyStage (s.fld F.TLY_CFG_hiwater) s.tly.ring.length
  let merged := if stage = 0 then none else changeLast (fun t => r.matches stage t) (fun t => t.merge r) s.tly.ring
  match merged with
  | some ring =>
    let target := ((s.tly.ring.filter fun t => r.matches stage t).getLast?).getD r
    { (s.countFld F.TLY_MERGED_count) with
      tly := { s.tly with ring := ring, merges := s.mergesNow ++ [(target, r)], mergedAt := s.clk.time } }
  | none =>
    let s : State := { s with tly := { s.tly with
      ring := tallyEnter r s.tly.ring, next := (s.tly.next + 1) % 2 ^ 64, entered := s.tly.entered + 1,
      lastStamp := r.stamp } }
    s.setFld F.TLY_OCC_max (Nat.max (s.fld F.TLY_OCC_max) s.tly.ring.length)

/-- One event becomes a record or is merged (R426, R432). -/
def State.tallyAt (s : State) (stamp : Nat) (e : TEvent) (src : TSource) (d0 d1 d2 : Nat) : State :=
  let cc := e.classCode
  s.tallyPut
    { stamp := stamp, seq := 0, cls := cc.1, flags := s.fld F.RT_STATUS_state, code := cc.2, source := src.code,
      d0 := d0 % 2 ^ 32, d1 := d1 % 2 ^ 32, d2 := d2 % 2 ^ 64, ledger := 0 }

/-- One event with the present stamp (R44). -/
def State.tally (s : State) (e : TEvent) (src : TSource) (d0 : Nat := 0) (d1 : Nat := 0) (d2 : Nat := 0) : State :=
  s.tallyAt s.now e src d0 d1 d2

/-- Why a write is discarded (R493). -/
inductive Discard where
  | range | access | safety | unoccupied | width | collision | state | debug
  deriving DecidableEq, Repr

def Discard.code : Discard → Nat
  | .range => 1 | .access => 2 | .safety => 3 | .unoccupied => 4 | .width => 5 | .collision => 6 | .state => 7
  | .debug => 8

/-- Who wrote (R436): the host, a loop core, or an engine of the device carrying out a ledger's command. -/
inductive Writer where
  | host | core (c : Nat) | engine (ledger : Option Nat)
  deriving DecidableEq, Repr

/-- The number by which the holding copies of R8 are kept: the host 0, core Cc c + 1. -/
def Writer.agent : Writer → Nat
  | .host => 0
  | .core c => c + 1
  | .engine _ => 15

def Writer.kind : Writer → Nat
  | .host => 0 | .core _ => 1 | .engine _ => 2

def Writer.source : Writer → TSource
  | .host => .host
  | .core c => .core c
  | .engine (some n) => .ledger n
  | .engine none => .chip

/-- WRITE_DISCARDED (R436, R493). -/
def State.discard (s : State) (w : Writer) (off : Nat) (why : Discard) (value : Nat) : State :=
  s.tally .writeDiscarded w.source (off % 2 ^ 22 + why.code * 2 ^ 22 + w.kind * 2 ^ 26) value

/-! ## The fault summary (R37) -/

/-- A bit of SYS.FAULT takes its condition's present state; FAULT_STICKY is set whenever the bit is 1 (R37). -/
def State.setFaultBit (s : State) (i : Nat) (b : Bool) : State :=
  let s := s.setReg A.SYS_FAULT (BitVec.ofNat 32 (setBitNat (s.reg A.SYS_FAULT).toNat i b))
  if b then s.raiseBits ⟨A.SYS_FAULT_STICKY, 0, 32⟩ (1 <<< i) else s

/-- SYS.FAULT's bits for open region faults follow the list of open faults (R37). -/
def State.refreshFaults (s : State) : State :=
  let open' (r : Nat) : Bool := s.faults.any fun f => f.region == r
  ((s.setFaultBit 8 (open' 0)).setFaultBit 10 (open' 2))

/-- A region reports a contained fault (R22): a record and nothing more. -/
def State.containedFault (s : State) (region cause detail : Nat) : State :=
  s.tally .regionFault (.region region) (cause * 2 ^ 8) detail

/-- A region reports an open fault, once while the same fault stands (R22). -/
def State.openFault (s : State) (region cause object object2 : Nat) : State :=
  if s.faults.any fun f => f.region == region && f.cause == cause && f.object == object && f.object2 == object2 then s
  else
    let s : State := { s with faults := s.faults ++
      [{ region := region, cause := cause, object := object, object2 := object2, since := s.now }] }
    (s.tally .regionFault (.region region) (1 + cause * 2 ^ 8) object).refreshFaults

/-- Every open fault that meets a condition is reported resolved (R23). -/
def State.resolveFaults (s : State) (p : OpenFault → Bool) : State :=
  let gone := s.faults.filter p
  if gone.isEmpty then s
  else
    let s : State := { s with faults := s.faults.filter fun f => !p f }
    let s := s.each gone fun s f => s.tally .regionResolved (.region f.region) (1 + f.cause * 2 ^ 8)
    s.refreshFaults

end Sys2Proof.Machine
end

