-- ==== Sys2Proof/Machine/Ledger.lean ====
section
/-!
DEFINITION. Posting on the host ledgers: completion descriptors, the anchor, moderation, full rings and the order of
final completions (R395 to R400, R406 to R412, R415, R416, R420, R422, R425).
-/

namespace Sys2Proof.Machine

/-- The opcode of a command (R402). -/
def HostCmd.opcode : HostCmd → Nat
  | .nop => 1
  | .modeSet .. => 2
  | .groupSet .. => 3
  | .segAppend .. => 4
  | .segSkip .. => 5
  | .segFlush .. => 6
  | .compareAdd .. => 7
  | .compareRemove .. => 8
  | .payloadSet .. => 9
  | .lawParam .. => 10
  | .dlInsert .. => 11
  | .dlCancel .. => 12
  | .stallToken .. => 13
  | .coordStep .. => 14
  | .overrideSet .. => 15
  | .safetyLoad .. => 16
  | .imageLoad .. => 17
  | .attest .. => 18
  | .status => 19
  | .abort .. => 20

/-- The completion reasons (R408). -/
inductive Reason where
  | none | reset | lengthRange | opcode | format | seqDup | seqGap | dmaError | modePath | configInvalid | epochAlign
  | epochRange | modeBusy | timeCapture | superseded | modeFailed | groupState | safetyHold | lawStart | queueFull
  | segInvalid | paramInvalid | paramState | cmpFull | dlFull | sigInvalid | imageTarget | imageRollback
  | imageInvalid | degraded | twinRole | twinMirror | host
  deriving DecidableEq, Repr

/-- The code of a reason (R408). -/
def Reason.code : Reason → Nat
  | .none => 0 | .reset => 1 | .lengthRange => 2 | .opcode => 3 | .format => 4 | .seqDup => 5 | .seqGap => 6
  | .dmaError => 7 | .modePath => 8 | .configInvalid => 9 | .epochAlign => 10 | .epochRange => 11 | .modeBusy => 12
  | .timeCapture => 13 | .superseded => 14 | .modeFailed => 15 | .groupState => 16 | .safetyHold => 17
  | .lawStart => 18 | .queueFull => 19 | .segInvalid => 20 | .paramInvalid => 21 | .paramState => 22 | .cmpFull => 23
  | .dlFull => 24 | .sigInvalid => 25 | .imageTarget => 26 | .imageRollback => 27 | .imageInvalid => 28
  | .degraded => 29 | .twinRole => 30 | .twinMirror => 31 | .host => 32

/-- The cursors of command ledger `n`. -/
def State.cursor (s : State) (n : Nat) : CmdCursor := Tab.get (fun _ => {}) s.ldg.cmd n

def State.setCursor (s : State) (n : Nat) (c : CmdCursor) : State :=
  { s with ldg := { s.ldg with cmd := Tab.set (fun _ => {}) s.ldg.cmd n c } }

/-- The side record of a completion ledger. -/
def State.cplSide (s : State) (m : Nat) : RingSide := Tab.get (fun _ => {}) s.ldg.cpl m

def State.setCplSide (s : State) (m : Nat) (r : RingSide) : State :=
  { s with ldg := { s.ldg with cpl := Tab.set (fun _ => {}) s.ldg.cpl m r } }

/-- The side record of a tally ledger. -/
def State.talSide (s : State) (k : Nat) : RingSide := Tab.get (fun _ => {}) s.ldg.tal k

def State.setTalSide (s : State) (k : Nat) (r : RingSide) : State :=
  { s with ldg := { s.ldg with tal := Tab.set (fun _ => {}) s.ldg.tal k r } }

/-- How many descriptors a ring holds between two free-running 32-bit counts (R396). -/
def ringHeld (produced consumed : Nat) : Nat := (produced + 2 ^ 32 - consumed) % 2 ^ 32

/-- Completion ledger `m` is enabled and has a free slot (R422). -/
def State.cplRoom (s : State) (m : Nat) : Bool :=
  s.flag (F.CPL_CFG_enable m) &&
    ringHeld (s.fld (F.CPL_PRODUCED_count m)) (s.fld (F.CPL_CONSUMED_count m)) < 2 ^ s.fld (F.CPL_CFG_size m)

/-- STAT.full and its count follow the free slots of completion ledger `m` (R422, R425). -/
def State.refreshFull (s : State) (m : Nat) : State :=
  let full := s.flag (F.CPL_CFG_enable m) && !s.cplRoom m
  if full && !s.flag (F.CPL_STAT_full m) then
    ((s.setFlag (F.CPL_STAT_full m) true).countFld (F.CPL_STAT_full_cnt m)).setCplSide m
      { s.cplSide m with fullSince := some s.now, told := 0 }
  else if !full && s.flag (F.CPL_STAT_full m) then
    (s.setFlag (F.CPL_STAT_full m) false).setCplSide m { s.cplSide m with fullSince := none }
  else s

/-- The same for tally ledger `k`. -/
def State.refreshTalFull (s : State) (k : Nat) : State :=
  let room := ringHeld (s.fld (F.TAL_PRODUCED_count k)) (s.fld (F.TAL_CONSUMED_count k)) < 2 ^ s.fld (F.TAL_CFG_size k)
  let full := s.flag (F.TAL_CFG_enable k) && !room
  if full && !s.flag (F.TAL_STAT_full k) then (s.setFlag (F.TAL_STAT_full k) true).countFld (F.TAL_STAT_full_cnt k)
  else if !full then s.setFlag (F.TAL_STAT_full k) false
  else s

/-- The phase of the descriptor at a count: 1 in even passes of the ring, 0 in odd ones (R399). -/
def phaseOf (size count : Nat) : Nat := 1 - (count / 2 ^ size) % 2

/-- The 64 bytes of a completion descriptor (R406). -/
def Completion.bytes (c : Completion) (phase : Nat) : List Byte :=
  toBytes 8 c.seq ++ toBytes 2 c.opcode ++ toBytes 1 c.kind ++ toBytes 1 c.ledger ++ toBytes 2 c.reason ++
    toBytes 1 phase ++ toBytes 1 0 ++ toBytes 8 c.stamp ++ toBytes 40 c.result

/-- One record of the anchor written, with the header's new generation (R416). -/
def State.anchorRecord (s : State) (off : Nat) (bs : List Byte) : State :=
  let base := s.pair A.LDG_ANCHOR
  let gen := (s.ldg.generation + 1) % 2 ^ 32
  let s := { s with ldg := { s.ldg with generation := gen } }
  (s.hostWrite (base + off) bs).hostWrite base
    (toBytes 4 0x524C4441 ++ toBytes 4 gen ++ toBytes 8 (s.pair A.LDG_TAG) ++ toBytes 48 0)

/-- The anchor update that follows a completion of command ledger `n` on completion ledger `m` (R415, R416). -/
def State.anchorUpdate (s : State) (n m : Nat) : State :=
  if s.flag F.LDG_CFG_anchor_en then
    let c := s.cursor n
    (s.anchorRecord (0x40 + n * 0x20)
      (toBytes 8 (s.fld (F.CMD_CONSUMED_count n)) ++ toBytes 8 c.disposed ++ toBytes 8 c.accepted ++
        toBytes 8 c.final)).anchorRecord (0x240 + m * 8) (toBytes 8 (s.fld (F.CPL_PRODUCED_count m)))
  else s

/-- Moderation after a descriptor: the vector is signalled for an IRQ command, at CFG.count unsignalled descriptors, or
at once when MOD.time is 0 (R401, R425). -/
def State.moderate (s : State) (vector count time : Nat) (irq : Bool) (side : RingSide) (put : State → RingSide → State) :
    State :=
  let n := side.unsignalled + 1
  if irq || n ≥ count || time = 0 then (put s { side with unsignalled := 0 }).signal vector
  else put s { side with unsignalled := n, since := if side.unsignalled = 0 then s.now else side.since }

/-- One completion written to its slot, counted, anchored and signalled (R397, R399, R400, R415). -/
def State.writeCompletion (s : State) (m : Nat) (c : Completion) : State :=
  let size := s.fld (F.CPL_CFG_size m)
  let count := s.fld (F.CPL_PRODUCED_count m)
  let s := s.hostWrite (s.pair (A.CPL_BASE m) + (count % 2 ^ size) * 64) (c.bytes (phaseOf size count))
  let s := s.wrapFld (F.CPL_PRODUCED_count m)
  let s := s.anchorUpdate c.ledger m
  let s := s.refreshFull m
  s.moderate m (s.fld (F.CPL_CFG_count m)) (s.fld (F.CPL_MOD_time m)) c.irq (s.cplSide m)
    fun s r => s.setCplSide m r

/-- Of a pair only the ACTIVE device posts to the shared ledgers (R420). -/
def State.postsCompletions (s : State) : Bool := s.fld F.TWN_STAT_role == 0 || s.fld F.TWN_STAT_role == 3

/-- The count of accepted commands of ledger `n` without a posted final completion (R412). -/
def State.outstanding (s : State) (n : Nat) : Nat := (s.ldg.outst.filter fun o => o.ledger == n).length

/-- What the accepted commands that have not begun will take of a bounded place: the sum of `takes` over them (R94, R410,
R411). -/
def State.waitingTake (s : State) (takes : HostCmd → Nat) : Nat :=
  (s.ldg.outst.map fun o => if o.begun then 0 else takes o.cmd).sum

/-- Disposal of command ledger `n` waits for a window or for a free slot (R412, R422). -/
def State.disposalWaits (s : State) (n : Nat) : Bool :=
  s.outstanding n ≥ s.fld (F.CMD_CFG_window n) || (s.postsCompletions && !s.cplRoom (s.fld (F.CMD_CFG_cpl n)))

/-- A completion of command ledger `n` can be written now: the ledgers are restored, host memory is reachable and its ring
has a free slot (R394, R417, R422). -/
def State.mayPost (s : State) (n : Nat) : Bool :=
  s.flag F.LDG_STAT_ready && s.hostOut && s.cplRoom (s.fld (F.CMD_CFG_cpl n))

/-- A disposition's completion is written; there is room for it wherever a device disposes (R422). Devices in roles that post
nothing write none (R420). -/
def State.postCompletion (s : State) (c : Completion) : State :=
  if s.postsCompletions then s.writeCompletion (s.fld (F.CMD_CFG_cpl c.ledger)) c else s

/-- The first outstanding command of a ledger. -/
def State.firstOutst (s : State) (n : Nat) : Option Outst := s.ldg.outst.find? fun o => o.ledger == n

/-- A command leaves the record of outstanding commands with its final completion (R407, R412). -/
def State.closed (s : State) (o : Outst) : State :=
  let s : State := { s with ldg := { s.ldg with outst := s.ldg.outst.erase o } }
  s.setCursor o.ledger { s.cursor o.ledger with final := o.seq }

/-- The final completion that a command has earned. -/
def Outst.completion (o : Outst) (f : Final) : Completion :=
  { ledger := o.ledger, seq := o.seq, opcode := HostCmd.opcode o.cmd, kind := f.kind, reason := f.reason, stamp := f.stamp,
    result := f.result, irq := o.irq }

/-- The earned final completions of ledger `n` are posted, in acceptance order, each after its ACCEPT, up to the first
command without one; those that find no room wait (R410, R422). An OFFLINE device posts none and keeps none (R420); a
SYNCING or STANDBY device keeps them until the mirror shows the ACTIVE device's (R421). -/
def State.settleLedger : Nat → State → Nat → State
  | 0, s, _ => s
  | fuel + 1, s, n =>
    match s.firstOutst n with
    | none => s
    | some o =>
      match o.final with
      | none => s
      | some f =>
        if s.fld F.TWN_STAT_role = 4 then State.settleLedger fuel (s.closed o) n
        else if s.postsCompletions && s.mayPost n && o.seq ≤ (s.cursor n).accepted then
          State.settleLedger fuel ((s.closed o).postCompletion (o.completion f)) n
        else s

/-- All ledgers' earned final completions are posted (R410). -/
def State.settle (s : State) : State :=
  s.each (List.range 16) fun s n => State.settleLedger s.ldg.outst.length s n

/-- An accepted command earns its final completion: kind 3 DONE or 4 ABORTED (R406, R407). Only the first counts. -/
def State.finish (s : State) (ref : Nat × Nat) (kind reason result : Nat) : State :=
  let mark (o : Outst) : Outst :=
    if o.ledger == ref.1 && o.seq == ref.2 && o.final.isNone then
      { o with final := some { kind := kind, reason := reason, stamp := s.now, result := result } }
    else o
  let s : State := { s with ldg := { s.ldg with outst := s.ldg.outst.map mark } }
  State.settleLedger s.ldg.outst.length s ref.1

/-- DONE of a command (R407). -/
def State.finishDone (s : State) (ref : Nat × Nat) (result : Nat := 0) : State := s.finish ref 3 0 result

/-- ABORTED of a command (R407, R408). -/
def State.finishAborted (s : State) (ref : Nat × Nat) (why : Reason) (result : Nat := 0) : State :=
  s.finish ref 4 why.code result

/-- DONE of a command if there is one. -/
def State.finishDone? (s : State) (ref : Option (Nat × Nat)) (result : Nat := 0) : State :=
  match ref with
  | some r => s.finishDone r result
  | none => s

/-- ABORTED of a command if there is one. -/
def State.finishAborted? (s : State) (ref : Option (Nat × Nat)) (why : Reason) (result : Nat := 0) : State :=
  match ref with
  | some r => s.finishAborted r why result
  | none => s

end Sys2Proof.Machine
end

