-- ==== Sys2Proof/Machine/Token.lean ====
section
/-!
DEFINITION. Tokens on their way to the matching store (R168, R198, R239 to R241), and the events a slice publishes to
the converter triggers and the feedback latch of its bank (R135, R164, R165, R197).
-/

namespace Sys2Proof.Machine

/-! ## Groups, as the interconnect sees them -/

/-- The group that owns a slice; none when it is unassigned (R92). -/
def State.sliceGroup (s : State) (n : Nat) : Option Nat :=
  let w := s.reg (A.MODE_SLICEMAP (n / 8))
  let j := n % 8
  if fieldOf w (4 * j + 3) 1 = 1 then some (fieldOf w (4 * j) 3) else none

/-- The slices of a group, in ascending order: joint index j is the j-th of them (R98). -/
def State.groupSlices (s : State) (g : Nat) : List Nat :=
  (List.range 64).filter fun n => s.sliceGroup n == some g

/-- State of a group: 0 OUT, 1 HOLD, 2 ACTIVE (R75). -/
def State.groupState (s : State) (g : Nat) : Nat := s.fld (F.GRP_STATUS_state g)

/-- The cell mode (R67). -/
def State.cellMode (s : State) : Nat := s.fld F.MODE_CELL_mode

/-- A group and its profile engine beside their registers. -/
def State.grpOf (s : State) (g : Nat) : Grp := Tab.get (fun _ => {}) s.grp g

def State.setGrp (s : State) (g : Nat) (x : Grp) : State := { s with grp := Tab.set (fun _ => {}) s.grp g x }

/-- Segments queued (R130). -/
def State.queued (s : State) (g : Nat) : Nat := s.fld (F.MG_QCOUNT_count g)

/-- In DEGRADED with every group OUT, the profile engines, the compare unit and segment fetch are stopped (R74). -/
def State.motionStopped (s : State) : Bool :=
  s.cellMode == 7 && (List.range 8).all fun g => s.groupState g == 0

/-- A segment prefetch of a group is due (R99). -/
def State.fetchDue (s : State) (g : Nat) : Bool :=
  let x := s.grpOf g
  !s.motionStopped && x.fetched.length < 4 &&
    (if x.cur.isSome then 1 else 0) + (if x.next.isSome then 1 else 0) + x.fetched.length < s.queued g

/-! ## Tokens -/

/-- A token takes its place in the store's input queue: by the clock in which it reached the store, then by ascending
source code, then by arrival (R241). -/
def tokInsert (t : Tok) : List Tok → List Tok
  | [] => [t]
  | u :: us =>
    let a := t.sent / Domain.core.unit
    let b := u.sent / Domain.core.unit
    if a < b || (a == b && t.source < u.source) then t :: u :: us else u :: tokInsert t us

/-- Every token on its way to the matching store. -/
def Hwk.coming (h : Hwk) : List Tok := h.tokens ++ h.held

/-- Class of a token's delivery, by its source: converters, feedback ports, link battens and delay lists 0, the compare
unit and the profile engines 2, the host 4 (R26, R239). -/
def tokenClass (source : Nat) : Option Nat :=
  if [1, 2, 4, 5].contains source then some 0
  else if source = 3 || source = 6 then some 2
  else if source = 8 then some 4
  else none

/-- The requester a token comes from: its source code and which of the sources of that code. -/
def Tok.key (t : Tok) : Nat := t.source * 2 ^ 16 + t.port

/-- A request of class 4 waits: a host token that is held, or a segment prefetch that is due (R26, R99). -/
def State.waits4 (s : State) : Bool :=
  (s.hwk.held.any fun t => tokenClass t.source == some 4) || (List.range 8).any s.fetchDue

/-- A grant to a class of the interconnect. Class 4 starts anew at one of its own, and of sixteen grants in which it has a
request waiting one is its own: it comes before this one (R27). -/
def State.grant (s : State) (k : Nat) : State :=
  let n := s.ic.since4
  { s with ic := { s.ic with since4 := if k = 4 || !s.waits4 then 0 else if n ≥ 15 then 1 else n + 1 } }

/-- A grant to one requester of a class, after which the class goes on with the next one round (R26). -/
def State.grantTo (s : State) (k who : Nat) : State :=
  let s := s.grant k
  { s with ic := { s.ic with last := Tab.set (fun _ => none) s.ic.last k (some who) } }

/-- The requester whose turn it is among those that ask: the next one round after the one granted last (R26). -/
def nextRound (last : Option Nat) (asks : List Nat) : Option Nat :=
  match last.bind fun l => (asks.filter fun a => decide (l < a)).min? with
  | some a => some a
  | none => asks.min?

/-- The held token that the interconnect lets through next: those that do not cross it in order of arrival, then the best
class, class 4 after fifteen grants to others; within a class the requesters take turns, each with its own tokens in
order (R26, R27, R241). -/
def State.nextHeld (s : State) : Option Tok :=
  let h := s.hwk.held
  match h.find? fun t => (tokenClass t.source).isNone with
  | some t => some t
  | none =>
    let has (k : Nat) : Bool := h.any fun t => tokenClass t.source == some k
    let k := if s.ic.since4 ≥ 15 && has 4 then 4 else if has 0 then 0 else if has 2 then 2 else 4
    let mine := h.filter fun t => tokenClass t.source == some k
    match nextRound (Tab.get (fun _ => none) s.ic.last k) (mine.map Tok.key) with
    | none => none
    | some who => mine.find? fun t => t.key == who

/-- A token passes the interconnect and reaches the store's input queue (R26, R241). -/
def State.tokenIn (s : State) (t : Tok) : State :=
  let s := match tokenClass t.source with
    | some k => s.grantTo k t.key
    | none => s
  { s with hwk := { s.hwk with tokens := tokInsert { t with sent := Nat.max t.sent s.clk.time } s.hwk.tokens } }

/-- The input queue gives out its first token, and takes in the next of those that their sources hold (R26, R241). -/
def State.tokenOut (s : State) : State :=
  let s : State := { s with hwk := { s.hwk with tokens := s.hwk.tokens.drop 1 } }
  match s.nextHeld with
  | none => s
  | some t => ({ s with hwk := { s.hwk with held := s.hwk.held.erase t } } : State).tokenIn t

/-- A token is sent to a slot of a stall. A token for stall 0 goes nowhere (R240). While the queue holds 64 tokens the
source holds its own (R241). One sent at a later moment, the end of a frame, is on its way from now on (R361). -/
def State.send (s : State) (stall slot : Nat) (data : Word) (source : Nat) (stamp : Option Nat := none)
    (late : Bool := false) (sender : Nat := 0) (cmd : Option (Nat × Nat) := none) (port : Nat := 0) (at' : Moment := 0) :
    State :=
  if stall = 0 then s.finishDone? cmd
  else
    let t : Tok := { stall := stall, slot := slot, data := data, source := source, port := port, sender := sender,
                     stamp := stamp, late := late, sent := Nat.max at' s.clk.time, cmd := cmd }
    if s.hwk.held.isEmpty && s.hwk.tokens.length < 64 then s.tokenIn t
    else { s with hwk := { s.hwk with held := s.hwk.held ++ [t] } }

/-- The source codes of tokens (R239). -/
def Src.converter : Nat := 1
def Src.feedback : Nat := 2
def Src.compare : Nat := 3
def Src.delay : Nat := 4
def Src.batten : Nat := 5
def Src.profile : Nat := 6
def Src.control : Nat := 7
def Src.host : Nat := 8
def Src.post : Nat := 9
def Src.hawker : Nat := 10

/-! ## Banks, slices and their assignment -/

/-- A slice's PWM beside its registers. -/
def State.sliceOf (s : State) (n : Nat) : Slice := Tab.get (fun _ => {}) s.slice n

def State.setSlice (s : State) (n : Nat) (x : Slice) : State :=
  { s with slice := Tab.set (fun _ => {}) s.slice n x }

/-- Clock time since the last reload of a slice (R131). -/
def State.sinceReload (s : State) (n : Nat) : Nat := (s.clk.raw - (s.sliceOf n).reloadAt).toNat

/-- A bank beside its registers; its offset starts at b × 400 counts (R31). -/
def bankDefault (b : Nat) : Bank := { offset := b * 400 }

def State.bankOf (s : State) (b : Nat) : Bank := Tab.get bankDefault s.bank b

def State.setBank (s : State) (b : Nat) (x : Bank) : State := { s with bank := Tab.set bankDefault s.bank b x }

/-- A feedback port beside its registers. -/
def State.fbkOf (s : State) (n : Nat) : Fbk := Tab.get (fun _ => {}) s.fbk n

def State.setFbk (s : State) (n : Nat) (x : Fbk) : State := { s with fbk := Tab.set (fun _ => {}) s.fbk n x }

/-- A converter beside its registers. -/
def State.convOf (s : State) (c : Nat) : Conv := Tab.get (fun _ => {}) s.conv c

def State.setConv (s : State) (c : Nat) (x : Conv) : State := { s with conv := Tab.set (fun _ => {}) s.conv c x }

def Conv.entry (x : Conv) (e : Nat) : CvEntry := Tab.get (fun _ => {}) x.ent e

def Conv.setEntry (x : Conv) (e : Nat) (v : CvEntry) : Conv := { x with ent := Tab.set (fun _ => {}) x.ent e v }

/-- A host write in BOOT is discarded but for SEC.BOOT_ADDR, SEC.BOOT_CTL and the MEM block (R451). -/
def State.hostGate (s : State) (off value : Nat) (f : State → State) : State :=
  let free := off == A.SEC_BOOT_ADDR || off == A.SEC_BOOT_ADDR + 4 || off == A.SEC_BOOT_CTL ||
    (0x3A0000 ≤ off && off < 0x3C0000)
  if s.cellMode == 1 && !free then s.discard .host off .access value else f s

/-- The groups that own a slice of a bank (R20, R90). -/
def State.bankGroups (s : State) (b : Nat) : List Nat :=
  (List.range 8).filter fun g => (List.range 8).any fun k => s.sliceGroup (8 * b + k) == some g

/-- Rate mode in force in a bank, and its carrier period in counts (R88, R131). -/
def carrierCounts (rate : Nat) : Nat := if rate = 1 then 12500 else if rate = 2 then 50000 else 25000

def State.carrierCountsOf (s : State) (b : Nat) : Nat := carrierCounts (s.bankOf b).rate

/-- A slice is idle: one of the upper four of a bank in B32 (R89). -/
def State.sliceIdle (s : State) (n : Nat) : Bool := (s.bankOf (n / 8)).rate == 1 && n % 8 ≥ 4

/-! ## Events of R135 -/

/-- The timers of a converter's entries that name this slice and event are started; they count timing-clock counts from the
event's count (R164, R165). -/
def State.publishConv (s : State) (c n ev : Nat) : State :=
  s.each (List.range 16) fun s e =>
    if s.fld (F.CV_SEQ_CFG_event c e) == ev && s.fld (F.CV_SEQ_CFG_slice c e) == n % 8 then
      let x := s.convOf c
      let y := x.entry e
      let t := s.edgeNow + s.fld (F.CV_SEQ_CFG_delay c e) * countUnit
      if y.due.any fun d => s.edgeNow < d then s.countFld (F.CV_CNT_delay_ovr c)
      else if y.due.contains t then s
      else s.setConv c (x.setEntry e { y with due := y.due ++ [t] })
    else s

/-- A slice publishes an event of R135 (coded as in R170) to the converter triggers of its bank and to its feedback
port's latch. A frozen slice, a held counter and an idle slice publish nothing. -/
def State.publish (s : State) (n ev : Nat) : State :=
  let x := s.sliceOf n
  if x.frozen.isSome || x.held || s.sliceIdle n then s
  else
    let s := s.each [0, 1, 2] fun s i => s.publishConv (3 * (n / 8) + i) n ev
    if s.fld (F.FB_LATCH_event n) == ev then
      let f := s.fbkOf n
      s.setFbk n { f with due := f.due ++ [s.edgeNow + s.fld (F.FB_LATCH_delay n) * countUnit] }
    else s

end Sys2Proof.Machine
end

