-- ==== Sys2Proof/Machine/Segment.lean ====
section
/-!
DEFINITION. Segment descriptors and the ring that holds them in external DRAM (R93, R94, R97 to R101).
-/

namespace Sys2Proof.Machine

/-- The fields of a 256-byte descriptor (R100, R101). -/
def parseSeg (bs : List Byte) : Seg :=
  let k := bytesAt bs 0 1
  let flags := bytesAt bs 1 1
  let base : Seg :=
    { kind := k, notify := flags.testBit 0, blend := flags.testBit 1, ridge := flags.testBit 2,
      coord := bytesAt bs 2 1 % 16, tag := bytesAt bs 4 4, joints := bytesAt bs 8 2 }
  if k = 1 then
    { base with vscale := bytesAt bs 16 4, ascale := bytesAt bs 20 4, jscale := bytesAt bs 24 4,
                targets := (List.range 16).map fun j => signedOf 64 (bytesAt bs (32 + 8 * j) 8) }
  else if k = 2 then { base with length := signedOf 64 (bytesAt bs 16 8) }
  else if k = 3 then
    { base with value := signedOf 64 (bytesAt bs 16 8), down := (bytesAt bs 24 1).testBit 0,
                interrupt := (bytesAt bs 24 1).testBit 1 }
  else if k = 4 then { base with pitch := bytesAt bs 16 1, timeout := bytesAt bs 20 4 }
  else if k = 5 then { base with pitch := bytesAt bs 16 1 }
  else if k = 6 then
    { base with joint := bytesAt bs 16 1 % 16, steps := signedOf 32 (bytesAt bs 20 4), rStart := bytesAt bs 24 4,
                rMax := bytesAt bs 28 4, accel := bytesAt bs 32 4 }
  else base

/-- The bytes of a descriptor that its type defines, as (first byte, count) (R100, R101). -/
def segDefined (kind : Nat) : List (Nat × Nat) :=
  let head := [(0, 3), (4, 6)]
  if kind = 1 then head ++ [(16, 12), (32, 128)]
  else if kind = 2 then head ++ [(16, 8)]
  else if kind = 3 then head ++ [(16, 9)]
  else if kind = 4 then head ++ [(16, 1), (20, 4)]
  else if kind = 5 then head ++ [(16, 1)]
  else if kind = 6 then head ++ [(16, 1), (20, 16)]
  else head

/-- Every byte that the type does not define is 0. -/
def segBytesClear (kind : Nat) (bs : List Byte) : Bool :=
  bs.length == 256 && (List.range 256).all fun i =>
    (segDefined kind).any (fun r => r.1 ≤ i && i < r.1 + r.2) || bytesAt bs i 1 == 0

/-- The reserved bits within the bytes a type defines are 0 (R97, R100, R101). -/
def segBitsClear (bs : List Byte) : Bool :=
  let k := bytesAt bs 0 1
  let flags := bytesAt bs 1 1
  bytesAt bs 2 1 < 16 && flags < 8 && (!flags.testBit 1 || k == 1) && (!flags.testBit 2 || k == 2) &&
    (k != 3 || bytesAt bs 24 1 < 4) && (k != 6 || bytesAt bs 16 1 < 16)

/-- The joint count of a group (R92). -/
def State.jointCount (s : State) (g : Nat) : Nat := (s.groupSlices g).length

/-- A descriptor passes the checks of R97. -/
def State.segValid (s : State) (g : Nat) (bs : List Byte) : Bool :=
  let x := parseSeg bs
  let joints := s.jointCount g
  (1 ≤ x.kind && x.kind ≤ 6) && segBytesClear x.kind bs && segBitsClear bs &&
    x.joints < 2 ^ joints &&
    (s.fld (F.K_CFG_groups x.coord)).testBit g &&
    (x.kind != 1 || (x.vscale > 0 && x.ascale > 0 && x.jscale > 0)) &&
    (x.kind != 6 || (x.rMax > 0 && x.accel > 0 && x.joint < joints &&
      match (s.groupSlices g)[x.joint]? with
      | some n => s.fld (F.STP_CFG_mode n) != 0
      | none => false)) &&
    ((x.kind != 4 && x.kind != 5) || x.pitch ≤ 63)

/-- Slots of the ring of a group (R93). -/
def State.ringSlots (s : State) (g : Nat) : Nat := 2 ^ s.fld (F.MG_QCFG_size g)

/-- DRAM address of a slot (R93). -/
def State.slotAddr (s : State) (g slot : Nat) : Nat := s.pair (A.MG_QBASE g) + (slot % s.ringSlots g) * 256

/-- The state of a group as its profile engine sees it: in SYNCING and STANDBY, of the mirrored group (R376). -/
def State.engineState (s : State) (g : Nat) : Nat :=
  if s.isStandby then Tab.get (fun _ => 0) s.twin.shadow g else s.groupState g

/-- A stretch of DRAM holds an uncorrectable error (R465). -/
def State.dramBadIn (s : State) (a n : Nat) : Bool := s.dramBad.any fun l => a < (l + 1) * 32 && l * 32 < a + n

/-- The segment in a slot as DRAM holds it, and whether its data carries an uncorrectable error (R99). -/
def State.segAt (s : State) (g slot : Nat) : Seg × Bool :=
  let a := s.slotAddr g slot
  (parseSeg (memBytes s.dram a 256), s.dramBadIn a 256)

/-- The queue has a first segment that is not current yet: prefetched, or read from the ring (R99). -/
def State.queueHead (s : State) (g : Nat) : Option (Seg × Bool) :=
  let x := s.grpOf g
  let taken := (if x.cur.isSome then 1 else 0) + (if x.next.isSome then 1 else 0)
  if s.queued g ≤ taken then none
  else
    match x.fetched with
    | f :: _ => some f
    | [] => some (s.segAt g (s.fld (F.MG_CURSOR_slot g) + taken))

/-- QSTAT.state codes (R96). -/
def Queue.empty : Nat := 0
def Queue.run : Nat := 1
def Queue.wait : Nat := 2
def Queue.halted : Nat := 3
def Queue.stopping : Nat := 4
def Queue.interrupted : Nat := 5

def State.queueState (s : State) (g : Nat) : Nat := s.fld (F.MG_QSTAT_state g)

def State.setQueue (s : State) (g st : Nat) : State := s.setFld (F.MG_QSTAT_state g) st

/-- RUN or WAIT, by the type of a segment (R96). -/
def segQueueState (kind : Nat) : Nat := if kind = 2 || kind = 3 || kind = 4 then Queue.wait else Queue.run

/-- The queue of an ACTIVE group moves to RUN or WAIT by its current or first segment, or is EMPTY (R96). -/
def State.queueGo (s : State) (g : Nat) : State :=
  match (s.grpOf g).cur with
  | some t => s.setQueue g (segQueueState t.seg.kind)
  | none =>
    match s.queueHead g with
    | some (x, _) => s.setQueue g (segQueueState x.kind)
    | none => s.setQueue g Queue.empty

/-- The queue moves to INTERRUPTED (R96, R130, R436). -/
def State.interrupt (s : State) (g reason : Nat) : State :=
  let s := (s.setQueue g Queue.interrupted).setFld (F.MG_QSTAT_reason g) reason
  (s.countFld (F.MG_STAT_interrupted g)).tally .interrupted (.group g) reason

/-- The current segment uses a coordinate that does not wait (R106). -/
def State.tracking (s : State) (g : Nat) : Bool :=
  match (s.grpOf g).cur with
  | some t =>
    let src := s.fld (F.K_CFG_source t.seg.coord)
    !(t.seg.kind == 2 && t.seg.ridge) && (src == 2 || src == 3 || src == 4)
  | none => false

/-- A current segment that cannot be resumed marks what becomes of its queue as the stop ends (R106). -/
def State.markLost (s : State) (g : Nat) (x : Grp) : Grp :=
  if s.tracking g && x.endReason = 0 then { x with endReason := 2 } else x

/-- The queue comes to rest as a stop ends: INTERRUPTED with its cause, HALTED, or EMPTY (R105 to R107). -/
def State.queueRest (s : State) (g : Nat) : State :=
  let x := s.grpOf g
  let live := s.queueState g == Queue.run || s.queueState g == Queue.wait || s.queueState g == Queue.stopping
  let why := (if live then s.markLost g x else x).endReason
  let s := s.setGrp g { x with ramp := 0, endReason := 0 }
  let s := s.setFld (F.MG_HFACT_h g) 0
  if s.queueState g == Queue.interrupted then s
  else if s.queued g = 0 then s.setQueue g Queue.empty
  else if why ≠ 0 then s.interrupt g why
  else s.setQueue g Queue.halted

end Sys2Proof.Machine
end

