-- ==== Sys2Proof/Machine/Group.lean ====
section
/-!
DEFINITION. Arm groups: STO and brake outputs, control tokens, entries into OUT, HOLD and ACTIVE, controlled and
protective stops, the slice trip latch and bank faults (R16 to R20, R72 to R78, R174 to R176, R230, R233, R323 to
R326), and the success of a pending cell mode change (R82).
-/

namespace Sys2Proof.Machine

/-! ## STO and brakes (R325, R326) -/

/-- Causes of the safety region's actions (R339). -/
def Cause.none : Nat := 0
def Cause.pairPstop : Nat := 1
def Cause.pairSto : Nat := 2
def Cause.scale : Nat := 3
def Cause.notScalable : Nat := 4
def Cause.tcpSpeed : Nat := 5
def Cause.standstill : Nat := 6
def Cause.stopTimeout : Nat := 7
def Cause.position : Nat := 8
def Cause.input : Nat := 9
def Cause.stoTest : Nat := 10
def Cause.brakeTest : Nat := 11
def Cause.request : Nat := 12

/-- Reasons of a group's last entry into OUT or HOLD (R92). -/
def GReason.host : Nat := 1
def GReason.sliceTrip : Nat := 2
def GReason.bankFault : Nat := 3
def GReason.mode : Nat := 4
def GReason.safety : Nat := 5
def GReason.degraded : Nat := 6
def GReason.twin : Nat := 7

/-- The brake of a slice is released (R326). -/
def State.brakeReleased (s : State) (n : Nat) : Bool := (s.pair A.SAF_BRK).testBit n

/-- One brake output changes, with its record (R339). -/
def State.setBrake (s : State) (n : Nat) (released : Bool) (cause : Nat) : State :=
  if s.brakeReleased n == released then s
  else (s.setPair A.SAF_BRK (setBitNat (s.pair A.SAF_BRK) n released)).tally .brake (.safety (128 + n))
    (if released then 1 else 0) cause

/-- Both STO channels of a group are released (R325). -/
def State.stoReleased (s : State) (g : Nat) : Bool := s.bitFld F.SAF_STO_a g && s.bitFld F.SAF_STO_b g

/-- A slice's outputs are inhibited from now on; release waits for a reload (R18, R136). -/
def State.undrive (s : State) (n : Nat) : State := s.setSlice n { s.sliceOf n with drive := false }

/-- Both STO channels of a group are asserted and its brakes applied in the same clock (R325, R326). -/
def State.stoAssert (s : State) (g cause : Nat) (pair : Nat := 0) : State :=
  let s :=
    if s.bitFld F.SAF_STO_a g || s.bitFld F.SAF_STO_b g then
      let s := (s.setBitFld F.SAF_STO_a g false).setBitFld F.SAF_STO_b g false
      let s := (s.setFlag (F.SG_STAT_sto g) true).setFld (F.SG_STAT_cause g) cause
      let s := (s.countFld (F.SG_CNT_stos g)).tally .sto (.safety g) 0 cause
      s.tally .groupAction (.group g) cause pair
    else s
  s.each (s.groupSlices g) fun s n => (s.setBrake n false cause).undrive n

/-- Both STO channels of a group are released (R76, R325). -/
def State.stoRelease (s : State) (g : Nat) : State :=
  if s.stoReleased g then s
  else
    let s := (s.setBitFld F.SAF_STO_a g true).setBitFld F.SAF_STO_b g true
    (s.setFlag (F.SG_STAT_sto g) false).tally .sto (.safety g) 1

/-- The brakes of a group are released (R76, R326). -/
def State.brakesRelease (s : State) (g : Nat) : State :=
  s.each (s.groupSlices g) fun s n => s.setBrake n true Cause.none

/-! ## Control tokens (R230) -/

/-- A byte of the law record of a stall (R210). -/
def State.lawByte (s : State) (n off : Nat) : Nat := (memByte s.sram (0x7E0000 + n * 0x100 + off)).toNat

/-- The stalls whose record has enable set and whose slice belongs to the group (R230). -/
def State.groupLaws (s : State) (g : Nat) : List Nat :=
  (List.range 256).filter fun n =>
    n ≥ 1 && (s.lawByte n 2).testBit 0 && s.sliceGroup (s.lawByte n 1 % 64) == some g

/-- Control token codes (R230). -/
def Ctl.start : Nat := 1
def Ctl.activate : Nat := 2
def Ctl.takeover : Nat := 3
def Ctl.stop : Nat := 4

/-- A control token to slot 7 of every law of the group (R230). -/
def State.control (s : State) (g code : Nat) : State :=
  s.each (s.groupLaws g) fun s n => s.send n 7 (BitVec.ofNat 32 code) Src.control

/-- Every law of kind CUR, STEP or USER of the group is in RUN (R233). -/
def State.lawsRunning (s : State) (g : Nat) : Bool :=
  (s.groupLaws g).all fun n =>
    let k := s.lawByte n 0
    !(k == 1 || k == 4 || k ≥ 128) || s.lawByte n 224 == 3

/-- The group has a law whose state the handshake waits for (R233). -/
def State.lawsAwaited (s : State) (g : Nat) : Bool :=
  (s.groupLaws g).any fun n =>
    let k := s.lawByte n 0
    k == 1 || k == 4 || k ≥ 128

/-- A law of the group is in FAULT (R233). -/
def State.lawFaulted (s : State) (g : Nat) : Bool := (s.groupLaws g).any fun n => s.lawByte n 224 == 4

/-! ## Faults that end with a stall out of service (R23) -/

/-- The stall has enable 0, or its owner group is OUT. -/
def State.stallStopped (s : State) (n : Nat) : Bool :=
  let owner := s.fld (F.ST_CFG_owner n)
  !s.flag (F.ST_CFG_enable n) || (owner < 8 && s.groupState owner == 0)

/-- Open motion faults that name a stall are resolved when the stall is out of service (R23, causes 1 to 3). -/
def State.resolveStopped (s : State) : State :=
  s.resolveFaults fun f =>
    f.region == 0 &&
      ((f.cause == 1 && s.stallStopped f.object2) || ((f.cause == 2 || f.cause == 3) && s.stallStopped f.object))

/-- An open motion fault that names a stall, in `object` or for cause 1 in `object2`; one whose stall is out of service
already is resolved at once (R22, R23). -/
def State.openStallFault (s : State) (cause object object2 : Nat) : State :=
  (s.openFault 0 cause object object2).resolveStopped

/-! ## Success of a cell mode change (R82) -/

/-- The node that grants a pitch, 0 this device (R321). -/
def State.pitchHome (s : State) (k : Nat) : Nat := ((Tab.find? s.saf.image.pitches k).getD {}).home

/-- The pitch is granted by this device (R321). -/
def State.pitchLocal (s : State) (k : Nat) : Bool :=
  s.pitchHome k == 0 || s.pitchHome k == s.fld F.LNK_CFG_node

/-- The queue of a pitch. -/
def State.pitchQueue (s : State) (k : Nat) : List PitchReq := Tab.get (fun _ => []) s.saf.queue k

def State.setPitchQueue (s : State) (k : Nat) (q : List PitchReq) : State :=
  { s with saf := { s.saf with queue := Tab.set (fun _ => []) s.saf.queue k q } }

/-- This device has the pitch held: by a group of its own, or as its home by another node's group. What another home
grants to a third node is none of its holdings (R320, R339). -/
def State.pitchHeld (s : State) (k : Nat) : Bool :=
  s.flag (F.SPITCH_W_held k) || s.pitchLocal k && s.fld (F.SPITCH_W_node k) != 0

/-- A pitch's holding in this device ends (R113, R320). With a pitch of another home the request that it granted ends too,
and the home is told (R321, log 28). -/
def State.pitchFree (s : State) (k : Nat) : State :=
  if s.pitchHeld k then
    let g := s.fld (F.SPITCH_W_group k)
    let s : State := if s.pitchLocal k then s
      else
        let s := s.setPitchQueue k ((s.pitchQueue k).eraseP fun r => r.group == g && r.node == 0)
        { s with saf := { s.saf with gives := s.saf.gives ++ [(k, g)] } }
    (((s.setFlag (F.SPITCH_W_held k) false).setFld (F.SPITCH_W_group k) 0).setFld (F.SPITCH_W_node k) 0).tally .pitch
      (.safety (64 + k)) 0
  else s

/-- The carrier grid starts: every slice's copy of it stands with ridge time (R31, R40). -/
def State.gridStart (s : State) : State :=
  if s.flag F.RT_STATUS_grid then s
  else
    (s.setFlag F.RT_STATUS_grid true).each (List.range 64) fun s n =>
      s.setSlice n { s.sliceOf n with absorbed := s.clk.slewTotal }

/-- The cell mode changes. The carrier grid starts as it first leaves CONFIGURE (R40). A mode that permits no drive
inhibits the slices of no group and of groups that are OUT; those of a group that is still to stop go on (R72 to R74).
Leaving DEGRADED clears SYS.FAULT.escalated (R70); entry into CONFIGURE releases every pitch of the device (R320). -/
def State.enterMode (s : State) (m : Nat) : State :=
  let s := if s.cellMode = 2 && m ≠ 2 then s.gridStart else s
  let s := s.setFld F.MODE_CELL_mode m
  let s := if m = 4 || m = 5 || m = 6 then s else s.each (List.range 64) fun s n =>
    match s.sliceGroup n with
    | some g => if s.groupState g = 0 then s.undrive n else s
    | none => s.undrive n
  let s := if m = 2 then { s with balls := true } else s
  let s := if m = 7 then s else s.setFaultBit 12 false
  if m = 2 then s.each (List.range 64) fun s k => s.pitchFree k else s

/-- Every participating group has confirmed the change (R82). -/
def State.groupsConfirmed (s : State) (participants : Nat) : Bool :=
  (List.range 8).all fun g => !participants.testBit g || s.flag (F.GRP_STATUS_confirmed g)

/-- Length of a separation cycle, ns (R91). -/
def State.sepCycle (s : State) : Nat := if s.fld F.MODE_SEP_rate = 1 then 125000 else 250000

/-- The moment by which a change must be confirmed, ns (R82). -/
def State.changeDeadline (s : State) (c : Change) : Nat := c.epoch + 2 * s.sepCycle

/-- A peer's record confirms the change: the same identifier and epoch, and its target, pending or already taken (R82,
R86, log 17). -/
def Peer.confirms (p : Peer) (c : Change) : Bool :=
  p.confirmed && p.id == c.id && p.epoch == c.epoch && (p.target == c.target || (!p.pendingChange && p.mode == c.target))

/-- Every peer of the domain has published confirmation of the same change (R82). -/
def State.peersConfirmed (s : State) (c : Change) : Bool :=
  (s.mode.peers.filter fun p => p.2.confirms c).length ≥ s.fld F.MODE_XCFG_peers

/-- A confirming change succeeds once all have confirmed, by its deadline (R82). -/
def State.checkChange (s : State) : State :=
  match s.mode.change with
  | none => s
  | some c =>
    if c.confirming && s.now ≤ s.changeDeadline c && s.groupsConfirmed c.participants && s.peersConfirmed c then
      let s : State := { s with mode := { s.mode with change := none } }
      let s := (s.enterMode c.target).setFld F.MODE_CELL_change 0
      let s := s.setFld F.MODE_LAST_outcome 1
      (s.tally .changeDone .chip c.target 0 c.id).finishDone? c.cmd
    else s

/-- A group that leaves HOLD or ACTIVE stops being a participant (R83). -/
def State.dropParticipant (s : State) (g : Nat) : State :=
  match s.mode.change with
  | none => s
  | some c =>
    ({ s with mode := { s.mode with
        change := some { c with participants := setBitNat c.participants g false } } } : State).checkChange

/-! ## Group states -/

/-- GROUP_STATE record (R436). -/
def State.groupRecord (s : State) (g : Nat) : State :=
  s.tally .groupState (.group g) (s.groupState g) (s.fld (F.GRP_STATUS_reason g))

/-- The GROUP_SET in progress ends as the group enters a state: DONE when it asked for that state, else ABORTED
(R402, R408). -/
def State.groupCmdEnds (s : State) (g : Nat) : State :=
  let x := s.grpOf g
  let s := s.setGrp g { x with cmd := none }
  if x.want = s.groupState g then s.finishDone? x.cmd else s.finishAborted? x.cmd .superseded

/-- The OUT-to-HOLD sequence is broken off: STO is asserted again and the group stays OUT with its previous reason. -/
def State.abortStart (s : State) (g : Nat) (why : Reason) (cause : Nat := Cause.request) (pair : Nat := 0) : State :=
  let x := s.grpOf g
  if x.start.isSome then
    let s := s.setGrp g { x with start := none, cmd := none }
    (s.stoAssert g cause pair).finishAborted? x.cmd why
  else s

/-- The standstill references of a group are latched anew at the first boundary after its change of state (R323). -/
def State.forgetRefs (s : State) (g : Nat) : State :=
  let slices := s.groupSlices g
  { s with saf := { s.saf with
      ref := s.saf.ref.filter fun e => !slices.contains e.1
      refTold := s.saf.refTold.filter fun e => !slices.contains e.1 } }

/-- A fault acts on a group at this moment (R78). -/
def State.faultActs (s : State) (g : Nat) : State := s.setGrp g { s.grpOf g with faultAt := some s.clk.time }

/-- A group enters OUT: STO asserted, brakes applied, STOP tokens, the queue at rest (R75, R76, R230). -/
def State.groupOut (s : State) (g reason cause : Nat) (pair : Nat := 0) : State :=
  let s := if reason = GReason.host || reason = GReason.mode then s else s.faultActs g
  if s.groupState g = 0 then s.abortStart g .superseded cause pair
  else
    let x := s.grpOf g
    let s := s.setGrp g { x with stop := none, start := none, outAt := s.now }
    let s := ((s.setFld (F.GRP_STATUS_state g) 0).setFlag (F.GRP_STATUS_stopping g) false).setFld
      (F.GRP_STATUS_reason g) reason
    let s := (s.setFlag (F.SG_STAT_pstop g) false).countFld (F.GRP_OUTCNT_count g)
    let s := ((s.stoAssert g cause pair).queueRest g).forgetRefs g
    let s := (s.control g Ctl.stop).groupRecord g
    ((s.groupCmdEnds g).dropParticipant g).resolveStopped

/-- A group enters HOLD (R75, R76). -/
def State.groupHold (s : State) (g reason : Nat) : State :=
  let x := s.grpOf g
  let s := s.setGrp g { x with stop := none, start := none }
  let s := ((s.setFld (F.GRP_STATUS_state g) 1).setFlag (F.GRP_STATUS_stopping g) false).setFld
    (F.GRP_STATUS_reason g) reason
  ((((s.setFlag (F.SG_STAT_pstop g) false).queueRest g).forgetRefs g).groupRecord g).groupCmdEnds g

/-- The reason with which a stop goes on when another joins it: the stricter target's, and of two that lead to OUT that of
a mode entry, the later of two (R72). -/
def Stop.reasonWith (old new : Stop) : Nat :=
  if new.target < old.target || (new.target == old.target && (new.reason == GReason.mode || new.reason == GReason.degraded))
  then new.reason else old.reason

/-- A stop is asked of a HOLD or ACTIVE group, or joined to the one that runs; the more restrictive target stands
(R16, R73, R105, R324). -/
def State.groupStop (s : State) (g : Nat) (new : Stop) : State :=
  let x := s.grpOf g
  let merged : Stop := match x.stop with
    | none => new
    | some old =>
      { target := Nat.min old.target new.target, deadline := Nat.min old.deadline new.deadline,
        reason := old.reasonWith new,
        cause := if old.target ≤ new.target then old.cause else new.cause }
  let fresh := x.stop.isNone
  let q := s.queueState g
  let x := { x with stop := some merged }
  let x := if fresh then { x with ramp := 1, rampTick := 0, rampFrom := s.fld (F.MG_HFACT_h g) } else x
  let s := (s.setGrp g x).setFlag (F.GRP_STATUS_stopping g) true
  if q = Queue.run ∨ q = Queue.wait then s.setQueue g Queue.stopping else s

/-- A controlled stop of R73 that ends in OUT. -/
def State.controlledStop (s : State) (g reason : Nat) : State :=
  if s.groupState g = 0 then s.abortStart g .superseded
  else s.groupStop g { target := 0, reason := reason, deadline := s.now + s.fld (F.GRP_STOP_time g) * 1000 }

/-- A protective stop: requested at the first coordinate tick after now (R324). `target` is the state it leads to. A
request with another cause while one runs changes the group's action, and is recorded (R339). -/
def State.protectiveStop (s : State) (g cause target : Nat) (pair : Nat := 0) (reason : Nat := GReason.safety) :
    State :=
  let s := if reason = GReason.host then s else s.faultActs g
  if s.groupState g = 0 then s.abortStart g .superseded cause pair
  else
    let running := s.flag (F.SG_STAT_pstop g)
    let s := if running then s else (s.setFlag (F.SG_STAT_pstop g) true).countFld (F.SG_CNT_pstops g)
    let s := if running && s.fld (F.SG_STAT_cause g) = cause then s
      else (s.setFld (F.SG_STAT_cause g) cause).tally .groupAction (.group g) cause pair
    s.groupStop g { target := target, reason := reason, cause := cause,
                    deadline := nextMultiple 1000 s.now + s.fld (F.GRP_STOP_time g) * 1000 }

/-- A stop that has reached standstill leads the group into its target state (R73, R76). -/
def State.stopEnds (s : State) (g : Nat) : State :=
  match (s.grpOf g).stop with
  | none => s
  | some t => if t.target = 0 then s.groupOut g t.reason t.cause else s.groupHold g t.reason

/-- The laws report running: brakes released, and the group counts as HOLD (R76, R233). -/
def State.loopsUp (s : State) (g : Nat) : State := (s.brakesRelease g).groupHold g GReason.host

/-- TEACH, COLLABORATE and PRODUCE permit drive (R67). -/
def modeDrives (m : Nat) : Bool := m == 4 || m == 5 || m == 6

/-- A cause of the separation cycles for STO of the group remains: a joint uncertain for more than hold_max cycles, or a
violated entry whose action is STO (R303, R317, R325). -/
def State.stoRemains (s : State) (g : Nat) : Bool :=
  let im := s.saf.image
  let holdMax := ((Tab.find? im.groups g).getD {}).holdMax
  ((s.groupSlices g).any fun n => Tab.get (fun _ => 0) s.saf.unsure n > holdMax) ||
    modeDrives s.cellMode && s.saf.onset.any fun e => ((Tab.find? im.pairs e.1).getD {}).act == 2 &&
      match e.2 with
      | some (_, gs) => gs.any fun x => x.1 == g
      | none => false

/-- OUT to HOLD begins: STO released, START delivered (R76, R230). A group with no law of R233 reports running at
once. Where a cause of STO remains, there is no release: the sequence is broken off as that cause would break it off
(R325). -/
def State.groupStart (s : State) (g : Nat) (cmd : Option (Nat × Nat)) : State :=
  if s.stoRemains g then s.finishAborted? cmd .superseded
  else
  let s := s.setGrp g { s.grpOf g with start := some s.now, cmd := cmd, want := 1 }
  let s := (s.stoRelease g).control g Ctl.start
  if s.lawsAwaited g then s else s.loopsUp g

/-- What a separation cycle has decided takes effect: the factors, and the actions (R317, R331). -/
def State.publishAll (s : State) (p : Publication) : State :=
  let s : State := { s with saf := { s.saf with published := none, factored := true } }
  let s := s.each (List.range 8) fun s g =>
    let f := p.factors.getD g (1024, 0)
    (s.setFld (F.SG_FACTOR_f g) f.1).setFld (F.SG_FACTOR_pair g) f.2
  s.each p.acts fun s a =>
    if a.sto then s.groupOut a.group GReason.safety a.cause a.pair else s.protectiveStop a.group a.cause 1 a.pair

/-- A publication that ends before a moment takes effect (R331). -/
def State.publishDue (s : State) (t : Moment) : State :=
  match s.saf.published with
  | some p => if p.at' * nsUnit < t then (s.advanceTo (p.at' * nsUnit)).publishAll p else s
  | none => s

/-- HOLD to ACTIVE: ACTIVATE delivered, the queue resumes at its cursor, h rises (R76, R105, R230). -/
def State.groupActivate (s : State) (g : Nat) (cmd : Option (Nat × Nat)) : State :=
  let s := s.setGrp g { s.grpOf g with ramp := 2, rampTick := 0, rampFrom := 0, cmd := none }
  let s := (s.setFld (F.GRP_STATUS_state g) 2).control g Ctl.activate
  let s := if s.queueState g = Queue.interrupted then s else s.queueGo g
  (s.groupRecord g).finishDone? cmd

/-! ## Trips and bank faults -/

/-- A feedback error is present: its bit is set in ERR.src and in ERRCFG.trip (R176). -/
def State.fbkPresent (s : State) (n : Nat) : Bool := (s.fld (F.FB_ERR_src n) &&& s.fld (F.FB_ERRCFG_trip n)) != 0

/-- Of the sides given of one input, those that its thresholds let an input pass: no input lies above code 4,095 or below
code 0 (R174, R180). -/
def passable (high low src : Nat) : Nat :=
  (if high ≥ 4095 then 0 else src % 2) + (if low = 0 then 0 else src / 2 % 2 * 2)

/-- Comparator sides that can assert: the enable bit is 1, and the threshold lies within the range of an input (R174). -/
def State.enabledSides (s : State) (n src : Nat) : Nat :=
  (if s.flag (F.OC_CFG_ia_en n) then passable (s.fld (F.OC_TH_high n 0)) (s.fld (F.OC_TH_low n 0)) (src % 4) else 0) +
    (if s.flag (F.OC_CFG_ib_en n) then passable (s.fld (F.OC_TH_high n 1)) (s.fld (F.OC_TH_low n 1)) (src / 4 % 4) * 4
     else 0)

/-- The comparator sides of a slice that are present: enabled and asserted, whether or not CFG.filt counts have passed
(R175, R176). -/
def State.presentSides (s : State) (n : Nat) : Nat := s.enabledSides n (s.sliceOf n).sides

/-- Sources present in the clock in which the latch was set are recorded, whichever comes first (R175). -/
def State.alsoPresent (s : State) (n src : Nat) (fbk : Bool) : State :=
  if s.flag (F.OC_TRIP_latched n) && (s.sliceOf n).trippedAt.any fun t => sameClock .timing t s.clk.time then
    (s.setFld (F.OC_TRIP_src n) (s.fld (F.OC_TRIP_src n) ||| src)).setFlag (F.OC_TRIP_fbk n)
      (fbk || s.flag (F.OC_TRIP_fbk n))
  else s

/-- A slice sets its trip latch and inhibits its outputs; its HOLD or ACTIVE group goes to OUT. The latch records every
source present in its clock, whichever comes first (R18, R19, R175). -/
def State.tripSlice (s : State) (n src : Nat) (fbk : Bool) : State :=
  let fbk := fbk || s.fbkPresent n
  if s.flag (F.OC_TRIP_latched n) then s.alsoPresent n src fbk
  else
    let s := s.setSlice n { s.sliceOf n with trippedAt := some s.clk.time }
    let s := ((s.setFld (F.OC_TRIP_src n) src).setFlag (F.OC_TRIP_fbk n) fbk).setFlag (F.OC_TRIP_latched n) true
    let s := (s.countFld (F.OC_CNT_trips n)).undrive n
    let s := s.tally .sliceTrip (.slice n) (src + if fbk then 16 else 0) (s.fld (F.FB_ERR_src n))
    match s.sliceGroup n with
    | some g => s.groupOut g GReason.sliceTrip Cause.request
    | none => s

/-- Feedback errors: each sets its bit and is counted; those of ERRCFG.trip that are reported now produce a record and
trip the slice (R200). -/
def State.feedbackError (s : State) (n bits reported : Nat) : State :=
  let count := ((List.range 8).filter fun i => bits.testBit i).length
  let s := (s.raiseBits (F.FB_ERR_src n) bits).countFld (F.FB_CNT_err_cnt n) count
  let s := if reported ≠ 0 && (s.sliceGroup n).isSome then { s with twin := { s.twin with fbkAge := 0 } } else s
  let trip := reported &&& s.fld (F.FB_ERRCFG_trip n)
  if trip = 0 then s else (s.tally .feedbackError (.slice n) trip).tripSlice n (s.presentSides n) true

/-- The end of a bank retest, with its outcome (R21): 0 passed, else the first failing check. -/
def State.retestEnds (s : State) (b outcome : Nat) : State :=
  let s := (s.setBitFld F.SYS_BANKCLR_busy b false).setBitFld F.SYS_BANKCLR_failed b (outcome ≠ 0)
  s.tally .bankRetest (.bank b) outcome

/-- A bank fault: all slices inhibited, the fault recorded, the bank's groups to OUT (R20). A bank fault during a retest
ends it as a failure (R21). -/
def State.bankFault (s : State) (b cause : Nat) : State :=
  let s := s.setFaultBit b true
  let s := s.tally .bankFault (.bank b) cause
  let s := if s.bitFld F.SYS_BANKCLR_busy b then
      s.retestEnds b (if cause = 1 then 1 else if cause = 3 then 2 else if cause = 2 then 3 else 4)
    else s
  let s := s.each (List.range 8) fun s k => s.undrive (8 * b + k)
  s.each (s.bankGroups b) fun s g => s.groupOut g GReason.bankFault Cause.request

end Sys2Proof.Machine
end

