-- ==== Sys2Proof/Machine/Trig.lean ====
section
/-!
DEFINITION. Sine and cosine of a rational part of a turn, as integers with 128 fraction bits, correct to a few units of
the last place and exact at the quarter turns. The rules that use them state exact mathematics (R155, R222, R228, R301).
-/

namespace Sys2Proof.Machine

/-- 2 pi with 160 fraction bits. -/
def twoPi160 : Nat := 9182885614096437842769610399486622256908310048836

/-- The sine series with `n` further terms: `term` is the term before the k-th, all with 160 fraction bits. -/
def sinTail (x2 : Nat) : Nat → Nat → Nat → Int
  | 0, _, _ => 0
  | n + 1, k, term =>
    let t : Nat := term * x2 / 2 ^ 160 / ((2 * k) * (2 * k + 1))
    (0 : Int) - Int.ofNat t - sinTail x2 n (k + 1) t

/-- The cosine series with `n` further terms. -/
def cosTail (x2 : Nat) : Nat → Nat → Nat → Int
  | 0, _, _ => 0
  | n + 1, k, term =>
    let t : Nat := term * x2 / 2 ^ 160 / ((2 * k - 1) * (2 * k))
    (0 : Int) - Int.ofNat t - cosTail x2 n (k + 1) t

/-- sin of `r / den` of a quarter turn, r ≤ den, with 128 fraction bits. -/
def sinQuarter (r den : Nat) : Int :=
  if r = 0 then 0
  else
    let x := twoPi160 * r / (4 * den)
    ((x : Int) + sinTail (x * x / 2 ^ 160) 28 1 x) / 2 ^ 32

/-- cos of `r / den` of a quarter turn, with 128 fraction bits. -/
def cosQuarter (r den : Nat) : Int :=
  if r = 0 then 2 ^ 128
  else
    let x := twoPi160 * r / (4 * den)
    ((2 ^ 160 : Int) + cosTail (x * x / 2 ^ 160) 28 1 (2 ^ 160)) / 2 ^ 32

/-- sin(2 pi * num / den), with 128 fraction bits. -/
def sinTurn (num den : Nat) : Int :=
  let a := 4 * (num % den)
  let r := a % den
  match a / den with
  | 0 => sinQuarter r den
  | 1 => cosQuarter r den
  | 2 => -(sinQuarter r den)
  | _ => -(cosQuarter r den)

/-- cos(2 pi * num / den), with 128 fraction bits. -/
def cosTurn (num den : Nat) : Int := sinTurn (4 * num + den) (4 * den)

end Sys2Proof.Machine
end

