-- ==== Sys2Proof/Machine/Slice.lean ====
section
/-!
DEFINITION. Joint slice PWM: carriers and reloads on the bank grid, transfer, duty limit, drive and ball levels,
COMMIT, fine placement, freeze, and a bank's new rate (R17, R31, R33, R88 to R90, R131 to R159, R217).
-/

namespace Sys2Proof.Machine

/-! ## The carrier grid -/

/-- Stagger of slice n after the previous slice, in taps of 1/64 count (R145). -/
def State.staggerTaps (s : State) (n : Nat) : Nat :=
  let x := s.sliceOf n
  if x.stManual then x.stCounts * 64 + x.stFine else s.carrierCountsOf (n / 8) * 8

/-- Distance of a slice's carrier start from its bank's, in taps: the staggers of the slices between (R145, R146). -/
def State.chainTaps (s : State) (n : Nat) : Nat :=
  foldUpTo (n % 8) (fun acc k => acc + s.staggerTaps (n - n % 8 + k + 1)) 0

/-- Whole counts of a slice's carrier start after the grid instant (R31, R145, R146). -/
def State.carrierPos (s : State) (n : Nat) : Nat :=
  (s.bankOf (n / 8)).offset + s.chainTaps n / 64 % s.carrierCountsOf (n / 8)

/-- Stagger fine code of a slice (R146). -/
def State.staggerFine (s : State) (n : Nat) : Nat := s.chainTaps n % 64

/-- Clock time to the slice's next carrier start. The grid of its own copy lags ridge time by the corrections it has not
absorbed; a carrier period lasts to the first grid point more than half a period after its start, so a correction only
lengthens or shortens it (R31, R33, R131). -/
def State.carrierIn (s : State) (n : Nat) : Nat :=
  let x := s.sliceOf n
  let period : Nat := s.carrierCountsOf (n / 8) * countUnit
  let base : Int := (s.carrierPos n * countUnit : Nat) - x.absorbed
  let after : Int := max (s.clk.raw - 1) (x.carrierAt + if x.held then 0 else (period / 2 : Nat))
  (base + ((after - base) / period + 1) * period - s.clk.raw).toNat

/-- The slice's next carrier start as ridge time stands. -/
def State.nextCarrier (s : State) (n : Nat) : Moment := s.clk.time + s.carrierIn n

/-- Counts from the count of now to the slice's next carrier start; a count that has begun is one of them (R217). -/
def State.rem (s : State) (n : Nat) : Nat := (s.carrierIn n + countUnit - 1) / countUnit

/-- The switching period in force (R131). -/
def State.periodOf (s : State) (n : Nat) : Nat := s.fld (F.S_ACT_PERIOD_period n)

/-- P divides the carrier period with a quotient from 1 to 16 (R132). -/
def State.dividesCarrier (s : State) (n p : Nat) : Bool :=
  let c := s.carrierCountsOf (n / 8)
  p > 0 && c % p == 0 && c / p ≤ 16

/-- Clock time to the next reload within the carrier period; none when the next reload is a carrier start (R131,
R132). -/
def State.reloadIn (s : State) (n : Nat) : Option Nat :=
  let x := s.sliceOf n
  let p := s.periodOf n
  let span := p * countUnit - s.sinceReload n
  if s.dividesCarrier n p then
    if x.index + 1 < s.carrierCountsOf (n / 8) / p then some span else none
  else if span < s.carrierIn n then some span else none

/-! ## Drive conditions -/

/-- The slice is in the stepper's quiet mode (R129, R155). -/
def State.quietMode (s : State) (n : Nat) : Bool :=
  s.fld (F.STP_CFG_mode n) == 1 && !s.flag (F.STP_STAT_strong n)

/-- The group drives: HOLD, ACTIVE, or in the OUT-to-HOLD sequence with STO released (R17, R76). -/
def State.groupDrives (s : State) (g : Nat) : Bool :=
  s.groupState g == 1 || s.groupState g == 2 || (s.grpOf g).start.isSome

/-- STO of the slice's group is released (R17). -/
def State.sliceSto (s : State) (n : Nat) : Bool :=
  match s.sliceGroup n with
  | some g => s.stoReleased g
  | none => false

/-- Mode, group, enable and assignment permit drive. A mode that permits none lets a group that is still to stop reach
OUT first (R17, R72 to R74, R136). -/
def State.slicePermitted (s : State) (n : Nat) : Bool :=
  s.flag (F.S_CFG_enable n) &&
    match s.sliceGroup n with
    | some g => (s.cellMode == 4 || s.cellMode == 5 || s.cellMode == 6 || s.groupState g != 0) && s.groupDrives g
    | none => false

/-- Every condition of R17 and R136 holds, and nothing of R89, R90, R131, R151, R154, R373 or R390 holds the outputs inactive. -/
def State.driveOk (s : State) (n : Nat) : Bool :=
  let x := s.sliceOf n
  !s.flag (F.OC_TRIP_latched n) && !s.bitFld F.SYS_FAULT_bank_inh (n / 8) && s.sliceSto n && s.slicePermitted n &&
    !s.sliceIdle n && !x.held && !x.waitCommit && x.frozen.isNone && s.fld F.TWN_STAT_role != 4 &&
    !s.twin.inhibited.testBit n

/-- STATUS.inh: trip latch, bank inhibit, STO, and mode, group, enable or assignment (R159). -/
def State.inhBits (s : State) (n : Nat) : Nat :=
  (if s.flag (F.OC_TRIP_latched n) then 1 else 0) + (if s.bitFld F.SYS_FAULT_bank_inh (n / 8) then 2 else 0) +
    (if s.sliceSto n then 0 else 4) + (if s.slicePermitted n then 0 else 8)

/-- The Hall state that the commutation mask uses (R149). -/
def State.hallOf (s : State) (n : Nat) : Nat :=
  if s.fld (F.FB_CFG_mode n) = 2 then s.fld (F.FB_FSTAT_hall n) else 0

/-- The line that serves output x: 0 to 4, or 5 when the output's fine codes are truncated (R144). -/
def State.lineServing (s : State) (n x : Nat) : Nat := Tab.get (fun k => k % 5) s.serve (n * 5 + x)

/-- The output's fine codes apply: fine_en is 1 and a line serves it (R142, R144). -/
def State.fineApplies (s : State) (n x : Nat) : Bool := s.flag (F.S_CFG_fine_en n) && s.lineServing n x != 5

/-- The fine code an output may use (R142, R144). -/
def State.fineOf (s : State) (n x f : Nat) : Nat := if s.fineApplies n x then f else 0

/-- One tap of a fine code, 39.0625 ps (R142). -/
def tapUnit : Nat := countUnit / 64

/-- The leading edge of an output after its reload, 2^-32 ns of clock time: the stagger fine code alone (R142). -/
def State.leadingEdge (s : State) (n x : Nat) : Nat := s.fineOf n x (s.staggerFine n) * tapUnit

/-- The trailing edge of an output after its reload, at count D plus the stagger's and the duty's taps, which carry into
counts; none where the output is active for the whole period (R133, R142). -/
def State.trailingEdge (s : State) (n x : Nat) : Option Nat :=
  let w := s.fld (F.S_ACT_DUTY_duty n x)
  if w % 2 ^ 16 = s.periodOf n then none
  else some (w % 2 ^ 16 * countUnit + s.fineOf n x (w / 2 ^ 16) * tapUnit + s.leadingEdge n x)

/-- The active state of output x of the duty waveform at the ball, after its delay line (R133, R142, R146). -/
def State.dutyLevel (s : State) (n x : Nat) : Bool :=
  let t := s.sinceReload n
  let before (e : Option Nat) : Bool := e.all fun e => decide (t < e)
  if t < s.leadingEdge n x then before (Tab.get (fun _ => some 0) (s.sliceOf n).tail x)
  else !(s.sliceOf n).held && before (s.trailingEdge n x)

/-- The active state of output x before inhibit: the duty waveform under the commutation mask, or the step and direction
lines of STEPDIR (R133, R149, R150, R157). -/
def State.waveOf (s : State) (n x : Nat) : Bool :=
  if s.fld (F.STP_CFG_mode n) = 2 then
    let st : Stepper := Tab.get (fun _ => {}) s.step n
    if x = 0 then (match st.pulseEnd with
      | some e => decide (s.clk.time < e)
      | none => false)
    else if x = 1 then st.back else false
  else if s.flag (F.S_CFG_commut n) then
    let m := fieldOf (s.reg (A.S_COMMUT n (s.hallOf n))) (2 * x) 2
    if m = 1 then false else if m = 2 then true else s.dutyLevel n x
  else s.dutyLevel n x

/-- The level of PWM ball x of slice n: none while it is high-impedance (R136, R137, R151, R152). -/
def State.pwmBall (s : State) (n x : Nat) : Option Bool :=
  if !s.balls then none
  else
    let c := s.sliceOf n
    let act := match c.frozen with
      | some w => c.drive && w.testBit x
      | none => c.drive && s.driveOk n && s.waveOf n x
    some (act != (s.fld (F.S_CFG_pol n)).testBit x)

/-! ## Transfer and limit -/

/-- L = floor(P × DUTYMAX.max / 1,024) (R134). -/
def dutyLimit (p max : Nat) : Nat := p * max / 1024

/-- A duty replaced by the limit when D + f/64 lies above it (R134). -/
def limited (l d f : Nat) : Nat × Nat × Bool := if d * 64 + f > l * 64 then (l, 0, true) else (d, f, false)

/-- The duty transferred for output x, and what is effective of it under the limit for period P (R134). -/
def State.setDuty (s : State) (n x p d f : Nat) : State :=
  let s := s.setSlice n { s.sliceOf n with given := Tab.set (fun _ => 0) (s.sliceOf n).given x (d + f * 2 ^ 16) }
  let r := limited (dutyLimit p (s.fld (F.S_DUTYMAX_max n))) d (s.fineOf n x f)
  let s := s.setFld (F.S_ACT_DUTY_duty n x) (r.1 + r.2.1 * 2 ^ 16)
  if r.2.2 then (s.raise (F.S_STATUS_clamp n)).countFld (F.S_CNT_clamp_cnt n) else s

/-- The effective codes shown and used after a change of what truncates them: ACT_DUTY follows the transferred duty at
once, and nothing is counted as a clamp (R142, R144). -/
def State.refine (s : State) (n : Nat) : State :=
  s.each [0, 1, 2, 3] fun s x =>
    let w := Tab.get (fun _ => 0) (s.sliceOf n).given x
    let r := limited (dutyLimit (s.periodOf n) (s.fld (F.S_DUTYMAX_max n))) (w % 2 ^ 16) (s.fineOf n x (w / 2 ^ 16))
    if s.fld (F.S_ACT_DUTY_duty n x) % 2 ^ 16 = r.1 then s.setFld (F.S_ACT_DUTY_duty n x) (r.1 + r.2.1 * 2 ^ 16) else s

/-- The four duty shadows transferred (R138). -/
def State.transferDuties (s : State) (n : Nat) : State :=
  s.each [0, 1, 2, 3] fun s x =>
    s.setDuty n x (s.periodOf n) (s.fld (F.S_DUTY_count n x)) (s.fld (F.S_DUTY_fine n x))

/-- The transferred duties evaluated again after P changed (R134, R139): the duties as they were transferred, before the
limit replaced any (DESIGN CHOICE, log 86). -/
def State.relimit (s : State) (n : Nat) : State :=
  s.each [0, 1, 2, 3] fun s x =>
    let w := Tab.get (fun _ => 0) (s.sliceOf n).given x
    s.setDuty n x (s.periodOf n) (w % 2 ^ 16) (w / 2 ^ 16)

/-- PERIOD transferred at a carrier start when it divides the carrier period; else P stays, with its record (R132,
R139). -/
def State.transferPeriod (s : State) (n : Nat) : State :=
  let p := s.fld (F.S_PERIOD_period n)
  if s.dividesCarrier n p then s.setFld (F.S_ACT_PERIOD_period n) p
  else (s.raise (F.S_STATUS_perr n)).tally .periodError (.slice n) p

/-- The duties of the quiet generator: DUTY0 and DUTY1 for coil A, DUTY2 and DUTY3 for coil B (R155). -/
def quietDuties (p pos qamp : Nat) : List Nat :=
  let half (v : Int) : Nat := ((p : Int) * (1024 * 2 ^ 128 + qamp * v) / (2 * 1024 * 2 ^ 128)).toNat
  let a := half (sinTurn (pos % 1024) 1024)
  let b := half (cosTurn (pos % 1024) 1024)
  [a, p - a, b, p - b]

/-- The generator's transfer at a reload; the shadows take its values (R155, R156). -/
def State.generate (s : State) (n : Nat) : State :=
  let p := s.periodOf n
  let ds := quietDuties p (s.fld (F.STP_POS_pos n)) (s.fld (F.STP_AMP_qamp n))
  s.each [0, 1, 2, 3] fun s x =>
    let d := ds.getD x 0
    let s := (s.setFld (F.S_DUTY_count n x) d).setFld (F.S_DUTY_fine n x) 0
    s.setDuty n x p d 0

/-- The transfer of one reload, for a carrier start or another. In quiet stepper mode, where COMMIT is discarded, the
PERIOD shadow is transferred at every carrier start (DESIGN CHOICE, log 86), and the generator computes the duties; the
outputs still wait for the first COMMIT that a transfer takes (R90, R132, R138, R139, R148, R154 to R156, log 77). -/
def State.transfer (s : State) (n : Nat) (carrier : Bool) : State :=
  let x := s.sliceOf n
  if s.quietMode n then
    let s := s.setFlag (F.S_STATUS_pending n) false
    let s := if carrier then s.transferPeriod n else s
    let s := s.generate n
    s.setSlice n { s.sliceOf n with quiet := true }
  else
    let s := s.setSlice n { x with quiet := false }
    if s.flag (F.S_STATUS_pending n) && (carrier || s.flag (F.S_CFG_xfer n)) then
      if carrier then
        let s := s.transferPeriod n
        let s := if x.periodOnly then s.relimit n else s.transferDuties n
        (s.setFlag (F.S_STATUS_pending n) false).setSlice n
          { s.sliceOf n with periodOnly := false, waitCommit := x.waitCommit && !x.committed }
      else if x.periodOnly then s
      else
        let s := s.transferDuties n
        let keep := s.fld (F.S_PERIOD_period n) != s.periodOf n
        (s.setFlag (F.S_STATUS_pending n) keep).setSlice n
          { s.sliceOf n with periodOnly := keep, waitCommit := x.waitCommit && !x.committed }
    else s

/-- The outputs at the start of a switching period: active where the duty is not 0 (R133). -/
def State.startWave (s : State) (n : Nat) : Nat :=
  foldUpTo 4 (fun acc x => if s.fld (F.S_ACT_DUTY_duty n x) = 0 then acc else acc + 2 ^ x) 0

/-- A yielding device inhibits a slice at its first carrier start after the rise of ACT_IN (R390). -/
def State.yieldCarrier (s : State) (n : Nat) : State :=
  match s.twin.riseAt with
  | none => s
  | some t =>
    if s.clk.time ≤ t || s.twin.inhibited.testBit n then s
    else
      ({ s with twin := { s.twin with inhibited := setBitNat s.twin.inhibited n true, lastInh := s.clk.time } } : State).undrive n

/-- What the delay line of each output still holds of the period that ends: the time after the reload up to which the
output stays active (R133, R142). -/
def State.tailsOf (s : State) (n : Nat) : Tab (Option Nat) :=
  foldUpTo 4 (fun acc x =>
    let e := (s.trailingEdge n x).map (· - s.sinceReload n)
    Tab.set (fun _ => some 0) acc x (if (s.sliceOf n).drive && !(s.sliceOf n).held then e else some 0)) []

/-- A reload at the present moment: transfer, limit, drive release, events. An output released now emits nothing of the
period before (R131, R133 to R139, R150). -/
def State.reloadNow (s : State) (n : Nat) (carrier : Bool) : State :=
  let x := s.sliceOf n
  let tails := if x.carrierDue then x.tail else s.tailsOf n
  let s := s.setSlice n { x with
    reloadAt := s.clk.raw, index := if carrier then 0 else x.index + 1, carrierDue := false, tail := tails,
    wasTransfer := carrier || s.flag (F.S_CFG_xfer n), hadPending := s.flag (F.S_STATUS_pending n),
    lateDone := false, early := false }
  let s := if carrier then s.yieldCarrier n else s
  let s := s.transfer n carrier
  let s := s.setSlice n { s.sliceOf n with wave := s.startWave n }
  let s := s.setSlice n { s.sliceOf n with drive := s.driveOk n }
  let s := s.publish n 2
  s.each [0, 1, 2, 3] fun s o =>
    let d := s.fld (F.S_ACT_DUTY_duty n o)
    if d = 0 || d % 2 ^ 16 = s.periodOf n then s else s.publish n (3 + 2 * o)

/-- A reload of the slice falls in the present count and is still to be carried out. -/
def State.reloadHere (s : State) (n : Nat) : Bool :=
  let x := s.sliceOf n
  !x.held && x.frozen.isNone && (x.carrierDue || s.reloadIn n == some 0)

/-- RELOAD: the reload that begins the carrier period, or the next one within it (R131). -/
def State.reload (s : State) (n : Nat) : State :=
  let x := s.sliceOf n
  if x.held || x.frozen.isSome then s
  else if x.early && decide (x.reloadAt = s.clk.raw) then s.setSlice n { x with early := false }
  else if x.carrierDue then s.reloadNow n true
  else
    match s.reloadIn n with
    | some t => (s.advanceBy t).reloadNow n false
    | none => s

/-! ## Writes that reach a slice (R138, R140, R155) -/

/-- The slice's carrier start at the present moment: the counter is set to 0, the grid absorbs up to 2 counts of a
correction, slew takes effect, and the event is published (R33, R131, R135, R158). -/
def State.carrierStart (s : State) (n : Nat) : State :=
  let x := s.sliceOf n
  let part := clampInt (-(2 * countUnit : Nat)) (2 * countUnit : Nat) (s.clk.slewTotal - x.absorbed)
  let tails := s.tailsOf n
  let s := s.setSlice n { x with
    held := false, resumed := false, carrierAt := s.clk.raw, reloadAt := s.clk.raw, index := 0, carrierDue := true,
    tail := tails, early := false, begun := false, wasTransfer := false, absorbed := x.absorbed + part,
    slew := s.fld (F.S_CFG_slew n) }
  s.publish n 1

/-- The slice's carrier starts in the present count, and its CARRIER is still to come. -/
def State.carrierHere (s : State) (n : Nat) : Bool :=
  s.flag F.RT_STATUS_grid && (s.sliceOf n).frozen.isNone && s.carrierIn n == 0

/-- A write of a shadow or of COMMIT that reaches the slice in the count of a reload comes after that reload, and after
the carrier start whose reload it is (R140). -/
def State.beforeShadow (s : State) (n : Nat) : State :=
  let s := if s.carrierHere n then
      let s := s.carrierStart n
      s.setSlice n { s.sliceOf n with begun := true }
    else s
  if s.reloadHere n then
    let s := s.reloadNow n (s.sliceOf n).carrierDue
    s.setSlice n { s.sliceOf n with early := true }
  else s

/-- The late event of R140: a COMMIT, or a shadow write with a COMMIT pending at the reload, in the count of a transfer
reload. Pending then stands for all that the shadows hold, unless it stood for PERIOD alone and PERIOD was written. -/
def State.lateCheck (s : State) (n : Nat) (commit duty : Bool) : State :=
  let x := s.sliceOf n
  let inCount := !x.held && x.frozen.isNone && x.wasTransfer && decide (s.sinceReload n < countUnit)
  if inCount && (commit || x.hadPending || s.flag (F.S_STATUS_pending n)) then
    let s := (s.setFlag (F.S_STATUS_pending n) true).setSlice n { x with periodOnly := x.periodOnly && !duty }
    if x.lateDone then s
    else ((s.raise (F.S_STATUS_late n)).countFld (F.S_CNT_late_cnt n)).setSlice n
      { s.sliceOf n with lateDone := true }
  else s

/-- A COMMIT reaches the slice. One that comes before the counter restarts after a freeze is not the first COMMIT after
the restart (R138, R140, R154, R155). -/
def State.commitSlice (s : State) (n : Nat) : State :=
  if s.quietMode n then s.raise (F.S_STATUS_genwr n)
  else
    let s := s.beforeShadow n
    let x := s.sliceOf n
    let s := (s.setFlag (F.S_STATUS_pending n) true).setSlice n
      { x with committed := x.committed || !(x.held && x.resumed), periodOnly := false }
    s.lateCheck n true true

/-- A shadow write of PERIOD or DUTYx reaches the slice (R138, R140, R155). -/
def State.shadowWrite (s : State) (n : Nat) (duty : Bool) (off : Nat) (w : Word) : State :=
  if duty && s.quietMode n then s.raise (F.S_STATUS_genwr n)
  else
    let s := (s.beforeShadow n).setReg off w
    s.lateCheck n false duty

/-- The check of CMTG and of R217: with rem of at least 16 counts the slice performs a COMMIT; g says whether it did.
In quiet stepper mode the COMMIT is discarded (R285). -/
def State.commitChecked (s : State) (n : Nat) : State × Bool :=
  if s.rem n < 16 then (s, false)
  else if s.quietMode n then (s.commitSlice n, false)
  else (s.commitSlice n, true)

/-! ## CARRIER and OUTPUT_EDGE -/

/-- The carrier sync pulse a slice sees, checked against its position: the second bad one in a row is a loss, and the
bank's first slice to find it raises the bank fault (R20, R147). -/
def State.syncCheck (s : State) (n : Nat) (good : Bool) : State :=
  let b := n / 8
  let was := s.flag (F.BANK_SYNC_lost b)
  let s := s.setSlice n { s.sliceOf n with syncMiss := if good then 0 else (s.sliceOf n).syncMiss + 1 }
  let lost := (List.range 8).any fun k => (s.sliceOf (8 * b + k)).syncMiss ≥ 2
  let s := s.setFlag (F.BANK_SYNC_lost b) lost
  if lost && !was then (s.countFld (F.BANK_SYNC_lost_cnt b)).bankFault b 2 else s

/-- CARRIER: the slice's next carrier start, unless a write of its count had it carried out already, and the check of its
pulse. There is none before the carrier grid starts (R31, R33, R40, R131, R135, R140, R145 to R147, R158). -/
def State.carrier (s : State) (n : Nat) (good : Bool) : State :=
  let x := s.sliceOf n
  if x.frozen.isSome || !s.flag F.RT_STATUS_grid then s
  else if x.begun && decide (x.carrierAt = s.clk.raw) then (s.setSlice n { x with begun := false }).syncCheck n good
  else
    let s := if x.carrierDue then s.reloadNow n true else s
    ((s.advanceBy (s.carrierIn n)).carrierStart n).syncCheck n good

/-- OUTPUT_EDGE: the trailing edge of an output of the duty waveform, at count D of the switching period; its event is at
the whole count (R133, R135). -/
def State.outputEdge (s : State) (n o : Nat) : State :=
  let x := s.sliceOf n
  let d := s.fld (F.S_ACT_DUTY_duty n o) % 2 ^ 16
  if x.held || x.frozen.isSome || x.carrierDue || !x.wave.testBit o || decide (d ≥ s.periodOf n) then s
  else
    let s := s.advanceBy (d * countUnit - s.sinceReload n)
    (s.setSlice n { s.sliceOf n with wave := setBitNat x.wave o false }).publish n (4 + 2 * o)

/-- The physical tap of a code when m taps span one count (R143). -/
def physicalTap (m f : Nat) : Nat := (2 * f * m + 64) / 128

/-! ## Calibration (R143, R144) -/

def State.lineOf (s : State) (n l : Nat) : Line := Tab.get (fun _ => {}) s.line (n * 5 + l)

def State.setLine (s : State) (n l : Nat) (x : Line) : State :=
  { s with line := Tab.set (fun _ => {}) s.line (n * 5 + l) x }

def State.setServing (s : State) (n x l : Nat) : State :=
  { s with serve := Tab.set (fun k => k % 5) s.serve (n * 5 + x) l }

/-- The line in service whose turn it is to become the spare after line l: the next unretired one in cyclic order. -/
def State.nextFreed (s : State) (n l : Nat) : Option Nat :=
  ((List.range 4).map fun i => (l + 1 + i) % 5).find? fun m =>
    !(s.lineOf n m).retired && (List.range 4).any fun x => s.lineServing n x == m

/-- A spare that a passed measurement has calibrated (R144). -/
def State.spareReady (s : State) (n : Nat) : Bool :=
  s.lineServing n 4 != 5 && (s.lineOf n (s.lineServing n 4)).m != 0

/-- A line fails its measurement: it is retired, and the calibrated spare takes its output for good, or the output's fine
codes are truncated at once (R144). -/
def State.lineFails (s : State) (n l : Nat) : State :=
  let b := n / 8
  let s := s.setLine n l { s.lineOf n l with retired := true }
  let s := (s.countFld (F.BANK_CAL_failed b)).tally .calFailed (.bank b) (n + l * 2 ^ 8)
  match (List.range 4).find? fun x => s.lineServing n x == l with
  | none => if s.lineServing n 4 = l then s.setServing n 4 5 else s
  | some x =>
    if s.spareReady n then (s.setServing n x (s.lineServing n 4)).setServing n 4 5
    else
      let s := (s.setServing n x 5).refine n
      let s := (s.setFlag (F.S_STATUS_fine_off n) true).setFlag (F.S_STATUS_calerr n) true
      s.containedFault 0 6 n

/-- The code that the line of an output holds now: the stagger's up to the leading edge, then the trailing edge's
(R142). -/
def State.codeInUse (s : State) (n x : Nat) : Nat :=
  let sf := s.fineOf n x (s.staggerFine n)
  if s.sinceReload n < s.leadingEdge n x then sf
  else (sf + s.fineOf n x (s.fld (F.S_ACT_DUTY_duty n x) / 2 ^ 16)) % 64

/-- The first whole count after the reload, from count c on, that no count of a list lies within ±4 counts of. -/
def clearCount (edges : List Nat) : Nat → Nat → Nat
  | 0, c => c
  | fuel + 1, c => if edges.any fun e => e ≤ c + 4 && c ≤ e + 4 then clearCount edges fuel (c + 1) else c

/-- The clock time of the count at which a line may be switched on an output: none of its edges lies within ±4 counts
(R143). -/
def State.switchAt (s : State) (n x : Nat) : Int :=
  let p := s.periodOf n
  let trail := (s.trailingEdge n x).toList.map (· / countUnit)
  let edges := 0 :: p :: trail ++ trail.map (· + p)
  s.clk.raw - s.sinceReload n + (clearCount edges 32 (s.sinceReload n / countUnit + 1) * countUnit : Nat)

/-- The measured spare of a bank goes into service at its count; the line it replaces becomes the spare (R143). -/
def State.switchLine (s : State) (b : Nat) : State :=
  match (s.bankOf b).swap with
  | none => s
  | some (n, x, at_) =>
    if s.clk.raw < at_ then s
    else
      let s := s.setBank b { s.bankOf b with swap := none }
      let l := s.lineServing n 4
      let f := s.lineServing n x
      if l = 5 || f = 5 then s else (s.setServing n x l).setServing n 4 f

/-- The count of measurements of a round, and the rounds completed (R143, R159). -/
def State.calRound (s : State) (b : Nat) : State :=
  let x := s.bankOf b
  let live := ((List.range 40).filter fun i => !(s.lineOf (8 * b + i / 5) (i % 5)).retired).length
  if x.calCount + 1 ≥ live then (s.setBank b { x with calCount := 0 }).countFld (F.BANK_CAL_rotations b)
  else s.setBank b { x with calCount := x.calCount + 1 }

/-- CALIBRATION: a line measured. A spare that passes is set to the code in use on the output whose line is next in turn,
and goes into service there at a count clear of its edges (R143); a measurement outside 64 to 127, or a tap map that is
not monotonic, fails (R144). The engine takes the spare: only a failure is known of a line in service while there is one
(log 77). -/
def State.calibrate (s : State) (n l m : Nat) (monotonic : Bool) : State :=
  let b := n / 8
  let s := s.switchLine b
  if (s.lineOf n l).retired || s.tclkGone then s
  else
    let s := s.setFld (F.BANK_CAL_taps b) m
    if m < 64 || m > 127 || !monotonic then (s.lineFails n l).calRound b
    else if s.lineServing n 4 != l then
      if s.lineServing n 4 = 5 then (s.setLine n l { s.lineOf n l with m := m }).calRound b else s
    else
      let s := s.setLine n l { s.lineOf n l with m := m }
      let s :=
        match s.nextFreed n l with
        | some f =>
          match (List.range 4).find? fun x => s.lineServing n x == f with
          | some x =>
            (s.setLine n l { s.lineOf n l with tap := physicalTap m (s.codeInUse n x) }).setBank b
              { s.bankOf b with swap := some (n, x, s.switchAt n x) }
          | none => s
        | none => s
      s.calRound b

/-! ## Freeze and restart (R151 to R154) -/

/-- A freeze: each output holds the level it had (R151). -/
def State.freezeSlices (s : State) : State :=
  s.each (List.range 64) fun s n =>
    let x := s.sliceOf n
    if x.frozen.isSome then s
    else
      let w := foldUpTo 4 (fun acc o => if s.waveOf n o then acc + 2 ^ o else acc) 0
      (s.setSlice n { x with frozen := some w, frozenFor := s.sinceReload n }).setFlag (F.S_STATUS_frozen n) true

/-- A restart: outputs inactive until the first COMMIT, the counter held to the next carrier start (R90, R131, R154). -/
def State.restartSlice (s : State) (n : Nat) (resumed : Bool := false) : State :=
  let x := s.sliceOf n
  (s.setSlice n { x with frozen := none, held := true, waitCommit := true, committed := false, drive := false,
                         resumed := resumed || x.resumed, begun := false, wave := 0, index := 0, carrierDue := false, early := false,
                         carrierAt := s.clk.raw, reloadAt := s.clk.raw }).setFlag (F.S_STATUS_frozen n) false

/-! ## New rate, offset or stagger (R90, R148) -/

/-- BANK_RATE_APPLY: at the next ridge-time multiple of 125 us the waiting rates, offsets and staggers take effect, and
the carriers of their banks restart (R88, R90, R131, R148). -/
def State.bankRateApply (s : State) : State :=
  if (List.range 8).any fun b => (s.bankOf b).rateWait then
    let s := s.advanceTo (nextMultiple 125000 s.now * nsUnit)
    s.each (List.range 8) fun s b =>
      let x := s.bankOf b
      if x.rateWait then
        let s := s.setBank b { x with rateWait := false, rate := s.fld ⟨A.MODE_BANK, 2 * b, 2⟩,
                                      offset := s.fld (F.BANK_OFFSET_offset b) }
        s.each (List.range 8) fun s k =>
          let n := 8 * b + k
          let s := s.setSlice n { s.sliceOf n with
            stManual := s.flag (F.S_CTRL_manual n), stCounts := s.fld (F.S_CTRL_stagger n),
            stFine := s.fld (F.S_CTRL_stagger_fine n) }
          if (s.sliceOf n).frozen.isSome then s else s.restartSlice n
      else s
  else s

end Sys2Proof.Machine
end

