-- ==== Sys2Proof/Machine/Adc.lean ====
section
/-!
DEFINITION. Converters, their sequences, filters and tokens, the over-current comparators, the retest of a bank, and the
chip's own converter CM (R160 to R180, R485, R486, R494, R20, R21).
-/

namespace Sys2Proof.Machine

/-! ## One conversion (R160, R162) -/

/-- The unclamped value x of R162, for a voltage in nV and a gain code: 2,048 + floor(4,096 G (V - VMID) / VREF). -/
def rawCode (gain : Nat) (nv : Int) : Int := 2048 + 4096 * 2 ^ gain * (nv - 750000000) / 1500000000

/-- The code of a conversion and whether it is out of range (R162). -/
def convert (gain : Nat) (nv : Int) : Sample :=
  let x := rawCode gain nv
  { code := (clampInt 0 4095 x).toNat, beyond := x < 0 || x > 4095 }

/-- One conversion takes 1.0 us; its sample is held after 0.25 us (R160). -/
def convSpan : Moment := 1000 * nsUnit
def convHold : Moment := 250 * nsUnit

/-- The result word (R171). -/
def resultWord (code : Nat) (valid settling beyond : Bool) (count : Nat) : Nat :=
  code + (if valid then 2 ^ 12 else 0) + (if settling then 2 ^ 13 else 0) + (if beyond then 2 ^ 14 else 0) + count * 2 ^ 16

/-- The result word of an entry after a conversion has entered its filter, or was left out (R171 to R173). -/
def CvEntry.result (x : CvEntry) (last : Sample) : Nat :=
  if x.filter.isEmpty then resultWord last.code false x.settling false 0
  else
    resultWord ((x.filter.map Sample.code).foldl (· + ·) 0 / x.filter.length) true x.settling
      (x.filter.any Sample.beyond) x.filter.length

/-- An entry takes the gain and depth of its trigger: a change empties the filter (R173). -/
def CvEntry.settle (x : CvEntry) (gain depth : Nat) : CvEntry :=
  if gain ≠ x.gain then { x with gain := gain, depth := depth, filter := [], skip := 2, settling := true }
  else if depth ≠ x.depth then { x with depth := depth, filter := [], settling := true }
  else x

/-- One conversion's result enters the entry (R172, R173). -/
def CvEntry.take (x : CvEntry) (v : Sample) : CvEntry :=
  if x.skip > 0 then { x with skip := x.skip - 1, filter := [], settling := true }
  else
    let depth := 2 ^ x.depth
    let f := x.filter ++ [v]
    let f := f.drop (f.length - depth)
    { x with filter := f, settling := x.settling && f.length < depth }

/-! ## Sequences (R164 to R169) -/

/-- A trigger's sequence starts at a clock time: the first entry's burst begins. The stamp of its first conversion is the
ridge time at which its sample is held (R44, R160, R171). -/
def State.startSequence (s : State) (c : Nat) (es : List (Nat × Nat × Nat)) (t : Int) : State :=
  match es with
  | [] => s
  | (e, g, d) :: _ =>
    let x := s.convOf c
    let x := x.setEntry e ((x.entry e).settle g d)
    (s.setConv c { x with run := some { entries := es, convs := 0, stamp := s.ridgeAt (t + convHold) / nsUnit, start := t } }).setFlag
      (F.CV_STATUS_busy c) true

/-- The word of an entry goes to its destination with its stamp (R168). -/
def State.sendResult (s : State) (c e : Nat) : State :=
  s.send (s.fld (F.CV_SEQ_DEST_stall c e)) (s.fld (F.CV_SEQ_DEST_slot c e)) (s.reg (A.CV_RES c e)) Src.converter
    (some (s.pair (A.CV_STAMP c e))) false 0 none c

/-- A further trigger is dropped: each entry keeps its result, marked STALE, and delivers it (R167, R169). -/
def State.dropTrigger (s : State) (c : Nat) (es : List (Nat × Nat × Nat)) : State :=
  let s := (s.raise (F.CV_STATUS_trigovr c)).countFld (F.CV_CNT_trigovr_cnt c) es.length
  s.each es fun s e =>
    (s.setReg (A.CV_RES c e.1) (BitVec.ofNat 32 (setBitNat (s.reg (A.CV_RES c e.1)).toNat 15 true))).sendResult c e.1

/-- The clock time at which the running sequence ends. -/
def CvRun.ends (r : CvRun) : Int :=
  match r.entries with
  | [] => r.start
  | (_, _, d) :: es =>
    r.start + (2 ^ d - r.convs + (es.map fun e => 2 ^ e.2.2).foldl (· + ·) 0) * convSpan

/-- A trigger reaches the converter; in the count at which a held trigger started it meets that one as a further trigger
(R166, R167). -/
def State.trigger (s : State) (c : Nat) (es : List (Nat × Nat × Nat)) (t : Int) : State :=
  let x := s.convOf c
  match x.run with
  | none => s.startSequence c es t
  | some r =>
    if x.pendingTrig.isSome || x.heldStart == some t then s.dropTrigger c es
    else
      let s := (s.setConv c { x with pendingTrig := some es }).setFlag (F.CV_STATUS_pending c) true
      if r.ends = t then s else s.countFld (F.CV_CNT2_held_cnt c)

/-- A field as its register stood when the present count began (R173, R492). -/
def State.clockFld (s : State) (f : Fld) : Nat := s.asOf.fld f

/-- ADC_TRIGGER: the trigger instant of an entry. Entries whose instants fall in the same count form one trigger, in
ascending order; a write in that count leaves the burst at the old gain and depth (R164 to R166, R173). Without the
timing clock nothing is sampled (R160). -/
def State.adcTrigger (s : State) (c e : Nat) : State :=
  match ((s.convOf c).entry e).due with
  | [] => s
  | t :: _ =>
    if s.tclkGone then s
    else
      let s := s.advanceRaw t
      let es := (List.range 16).filter fun i => ((s.convOf c).entry i).due.head? == some t
      let s := s.each es fun s i =>
        s.setConv c ((s.convOf c).setEntry i { (s.convOf c).entry i with due := ((s.convOf c).entry i).due.drop 1 })
      s.trigger c (es.map fun i => (i, s.clockFld (F.CV_SEQ_CFG_gain c i), s.clockFld (F.CV_SEQ_CFG_depth c i))) t

/-- The running sequence goes on after one conversion: the next of the burst, the next entry, or its end (R166 to
R168). -/
def State.sequenceGoes (s : State) (c : Nat) (r : CvRun) : State :=
  let t := r.start + convSpan
  match r.entries with
  | [] => s
  | (e, _, d) :: rest =>
    if r.convs + 1 < 2 ^ d then
      s.setConv c { s.convOf c with run := some { r with convs := r.convs + 1, start := t } }
    else
      let s := s.sendResult c e
      if rest.isEmpty then
        let x := s.convOf c
        let s := ((s.setConv c { x with
          run := none, pendingTrig := none,
          heldStart := if x.pendingTrig.isSome then some t else none }).setFlag (F.CV_STATUS_busy c) false).setFlag
          (F.CV_STATUS_pending c) false
        s.startSequence c (x.pendingTrig.getD []) t
      else s.startSequence c rest t

/-- The voltage at a channel, in nV: the internal references stand at theirs, every other input at what drives it (R161,
R162). -/
def channelVolts (ch : Nat) (volts : Option (BitVec 32)) : Option Int :=
  if ch = 9 then some 750000000 else if ch = 10 then some 0 else volts.map fun v => v.toInt

/-- CONVERSION_END: the present conversion's result (R160 to R162, R168, R171 to R173). The code of an input that nothing
drives is a free value (R494, log 2). The channel is the one that SEQ.CFG names as the conversion ends, also after a write
during the burst (DESIGN CHOICE, log 87). -/
def State.conversionEnd (s : State) (c : Nat) (volts : Option (BitVec 32)) : State :=
  if s.tclkGone then s else
  match (s.convOf c).run with
  | none => s
  | some r =>
    match r.entries with
    | [] => s
    | (e, _, _) :: _ =>
      let s := s.advanceRaw (r.start + convSpan)
      let x := s.convOf c
      let nv := channelVolts (s.fld (F.CV_SEQ_CFG_channel c e)) volts
      let v : Sample := match nv with
        | some v => convert (x.entry e).gain v
        | none => { code := s.freeVal.toNat % 4096, beyond := s.freeVal.getLsbD 12 }
      let s := if nv.isNone then s.usedFree else s
      let ent := (x.entry e).take v
      let s := s.setConv c (x.setEntry e ent)
      let s := (s.setReg (A.CV_RES c e) (BitVec.ofNat 32 (ent.result v))).setPair (A.CV_STAMP c e) r.stamp
      s.sequenceGoes c r

/-- CONVERTER_FAILURE: a conversion that does not complete within 1.25 us of its start. A bank's converter that has
started none cannot fail one; CM converts for the service region (R178, R179). -/
def State.converterFailure (s : State) (c : Nat) : State :=
  if c = 24 then (s.setFlag (F.CV_STATUS_fail c) true).containedFault 2 2 0
  else
    match (s.convOf c).run with
    | some r => ((s.advanceRaw (r.start + 1250 * nsUnit)).setFlag (F.CV_STATUS_fail c) true).bankFault (c / 3) 1
    | none => s

/-! ## Comparators (R174 to R177) -/

/-- A comparator side's output for an input of `nv` nV: beyond the voltage of its threshold at gain ×1, in 1/256 code, as
its comparator places it, or, once asserted, not yet 4 codes inside (R162, R174, R484). -/
def sideOn (above : Bool) (threshold err : Nat) (on : Bool) (nv : Int) : Bool :=
  let at' : Int := ((threshold : Int) - 2048) * 256 + ((err % 3073 : Nat) - 1536)
  let back : Int := if on then 1024 else 0
  let v : Int := (nv - 750000000) * 1048576
  if above then decide (v > (at' - back) * 1500000000) else decide (v < (at' + back) * 1500000000)

/-- The comparator outputs of a slice that the voltages of its inputs assert, as in OC TRIP.src (R174). -/
def State.sidesOf (s : State) (n : Nat) (v : PhaseVolts) : Nat :=
  let side (i : Nat) (above : Bool) (th : Nat) (nv : Int) : Nat :=
    if sideOn above th (Config.comparatorError (4 * n + i)) ((s.sliceOf n).sides.testBit i) nv then 2 ^ i else 0
  side 0 true (s.fld (F.OC_TH_high n 0)) v.ia.toInt + side 1 false (s.fld (F.OC_TH_low n 0)) v.ia.toInt +
    (side 2 true (s.fld (F.OC_TH_high n 1)) v.ib.toInt + side 3 false (s.fld (F.OC_TH_low n 1)) v.ib.toInt)

/-- The comparator sides that count as asserted: those of `src` that have stayed so for CFG.filt counts; `held` gives the
counts of each side, 5 bits a side (R174). -/
def State.heldSides (s : State) (n src held : Nat) : Nat :=
  src &&& (((List.range 4).map fun i => if bitsOf held (5 * i) 5 ≥ s.fld (F.OC_CFG_filt n) then 2 ^ i else 0).sum)

/-- The comparator outputs of a slice stand as its inputs give them. -/
def State.setSides (s : State) (n sides : Nat) : State := s.setSlice n { s.sliceOf n with sides := sides }

/-- SLICE_TRIP: the voltages of a slice's inputs, with the counts for which its comparator outputs have been asserted, and
feedback errors reported. A side asserted for CFG.filt counts trips; the latch records every side present (R18, R174 to
R176, R200). -/
def State.sliceTrip (s : State) (n : Nat) (volts : PhaseVolts) (held err : Nat) : State :=
  let s := s.setSides n (s.sidesOf n volts)
  let present := s.presentSides n
  let trips := s.enabledSides n (s.heldSides n (s.sliceOf n).sides held)
  let s := s.feedbackError n (err &&& (255 - (err &&& s.fld (F.FB_ERR_src n)))) 0
  let fbk := (err &&& s.fld (F.FB_ERRCFG_trip n)) != 0
  let s := if fbk && !s.flag (F.OC_TRIP_latched n) then
      s.tally .feedbackError (.slice n) (err &&& s.fld (F.FB_ERRCFG_trip n))
    else s
  if trips ≠ 0 || fbk then s.tripSlice n present fbk else s.alsoPresent n present false

/-- TRIP_CLEAR: the host writes `v`, with a 1 to OC[s].TRIP.clr, while the inputs of the slice stand at these voltages (R176). -/
def State.tripClear (s : State) (n : Nat) (volts : PhaseVolts) (v : Nat := 0x100) : State :=
  (s.setSides n (s.sidesOf n volts)).hostGate (A.OC_TRIP n) v fun s =>
    let out := match s.sliceGroup n with
      | some g => s.groupState g == 0
      | none => true
    let present := s.presentSides n != 0 || s.fbkPresent n
    if out && !present && !s.bitFld F.SYS_FAULT_bank_inh (n / 8) && s.cellMode != 7 then
      ((s.setFld (F.OC_TRIP_src n) 0).setFlag (F.OC_TRIP_fbk n) false).setFlag (F.OC_TRIP_latched n) false
    else s.discard .host (A.OC_TRIP n) .state v

/-- COMPARATOR_SELFTEST: at the next 1 ms instant the spare takes the next role and its comparator is withdrawn. With a
comparator out of service there is no spare to take the role (R177). -/
def State.comparatorSelftest (s : State) (b : Nat) : State :=
  let x := s.bankOf b
  let s := s.advanceTo (nextMultiple 1000000 (Nat.max (s.now - 1) (x.lastTest.getD 0)) * nsUnit)
  if x.compOut ≠ 0 || x.test.isSome then s.setBank b { x with lastTest := some s.now }
  else s.setBank b { x with lastTest := some s.now, test := some x.nextRole }

/-- COMPARATOR_TEST_END: 10 us later the withdrawn comparator becomes the spare, or stays out of service (R177). -/
def State.comparatorTestEnd (s : State) (b : Nat) (pass : Bool) : State :=
  let x := s.bankOf b
  match x.test with
  | none => s
  | some role =>
    let s := s.advanceTo ((x.lastTest.getD 0 + 10000) * nsUnit)
    if pass then
      let s := (s.setBank b { x with test := none, nextRole := (role + 1) % 16 }).setFld (F.OCB_STAT_spare b) role
      if role = 15 then s.countFld (F.OCB_STAT_rounds b) else s
    else
      let s := s.setBank b { x with test := none, compOut := setBitNat x.compOut role true }
      (s.setFlag (F.OCB_STAT_fail b) true).bankFault b 3

/-! ## Retest of a bank (R21) -/

/-- BANK_RETEST_REQUEST: a host write of SYS.BANKCLR.retest. DEGRADED is cleared first (R16, log 78). A bank whose retest
runs already is not fit for another; a write that names fit and unfit banks starts the fit ones, and one record with
reason STATE and the written mask stands for the others (R21, log 14). -/
def State.bankRetestRequest (s : State) (mask : Nat) (v : Nat := mask) : State :=
  s.hostGate A.SYS_BANKCLR v fun s =>
    let fit (b : Nat) : Bool :=
      s.bitFld F.SYS_FAULT_bank_inh b && s.cellMode != 7 && !s.bitFld F.SYS_BANKCLR_busy b &&
        (s.bankGroups b).all fun g => s.groupState g == 0 && (s.grpOf g).start.isNone
    let asked := (List.range 8).filter fun b => mask.testBit b
    let s' := s.each (asked.filter fit) fun s b => s.setBitFld F.SYS_BANKCLR_busy b true
    if asked.all fit then s' else s'.discard .host A.SYS_BANKCLR .state v

/-- The first failing check of a retest; 0 when all pass (R21, R436). -/
def retestOutcome (r : RetestResult) : Nat :=
  if r.conv ≠ 0 then 1 else if r.comp ≠ 0 then 2 else if r.sync then 3 else if r.trip ≠ 0 then 4 else 0

/-- BANK_RETEST: the retest of a bank ends with what its checks found. Check 4 sets the trip latches that are clear, also
where an earlier check has failed; a pass clears those it set, and after a failure they stay set (R21, log 14). -/
def State.bankRetest (s : State) (b : Nat) (r : RetestResult) : State :=
  if !s.bitFld F.SYS_BANKCLR_busy b then s
  else
    let set := (List.range 8).filter fun k => !s.flag (F.OC_TRIP_latched (8 * b + k))
    let latch (on : Bool) (s : State) : State :=
      s.each set fun s k => s.setFlag (F.OC_TRIP_latched (8 * b + k)) on
    let s := s.each set fun s k => s.countFld (F.OC_CNT_trips (8 * b + k))
    if retestOutcome r = 0 then
      let s := s.each [0, 1, 2] fun s i => s.setFlag (F.CV_STATUS_fail (3 * b + i)) false
      let s := (s.setFlag (F.OCB_STAT_fail b) false).setBank b { s.bankOf b with compOut := 0 }
      let s := s.each (List.range 8) fun s k =>
        s.setSlice (8 * b + k) { s.sliceOf (8 * b + k) with waitCommit := true, committed := false, drive := false }
      ((latch false s).setFaultBit b false).retestEnds b 0
    else
      let s := s.each [0, 1, 2] fun s i => if r.conv.getLsbD i then s.setFlag (F.CV_STATUS_fail (3 * b + i)) true else s
      let s := if r.comp = 0 then s
        else (s.setFlag (F.OCB_STAT_fail b) true).setBank b
          { s.bankOf b with compOut := (s.bankOf b).compOut ||| r.comp.toNat }
      (latch true s).retestEnds b (retestOutcome r)

/-! ## The chip's converter CM (R161, R178, R179, R485, R486) -/

/-- The code of a supply of `uv` microvolts through a divider of k (R485). -/
def cmCode (uv k : Nat) : Nat := 4096 * uv / (1500000 * k)

/-- Lowest and highest code within the operating range of supply channel i: VDD, VDDA, VDDIO, VDDS, VBAT (R473,
R485). -/
def cmRange (i : Nat) : Nat × Nat :=
  match i with
  | 0 => (cmCode 760000 1, cmCode 840000 1)
  | 1 => (cmCode 1710000 2, cmCode 1890000 2)
  | 2 => (cmCode 3135000 4, cmCode 3465000 4)
  | 3 => (cmCode 855000 1, cmCode 945000 1)
  | _ => (cmCode 2000000 4, cmCode 3600000 4)

/-- A temperature of at least `t` degrees, T = (code - 1,638) / 6 (R485). -/
def cmHot (code t : Nat) : Bool := code ≥ 1638 + 6 * t

/-- The limits applied to a supply channel (R486). -/
def State.cmSupply (s : State) (i code : Nat) : State :=
  let r := cmRange i
  let out := code < r.1 || code > r.2
  let s := if i = 4 then s.setFlag F.PIN_SUPPLY_vbat_ok (!out) else s.setBitFld F.PIN_SUPPLY_ok i (!out)
  let n := if out then Nat.min 3 (Tab.get (fun _ => 0) s.cmBad i + 1) else 0
  let s : State := { s with cmBad := Tab.set (fun _ => 0) s.cmBad i n }
  if n = 3 && !s.cmOut.testBit i then
    ({ s with cmOut := setBitNat s.cmOut i true } : State).containedFault 2 4 i
  else if !out && s.cmOut.testBit i then
    ({ s with cmOut := setBitNat s.cmOut i false } : State).tally .regionResolved (.region 2) (4 * 2 ^ 8) i
  else s

/-- The limit applied to a temperature channel (R486). -/
def State.cmTemp (s : State) (i code : Nat) : State :=
  let n := if cmHot code 130 then Nat.min 3 (Tab.get (fun _ => 0) s.cmBad i + 1) else 0
  let s : State := { s with cmBad := Tab.set (fun _ => 0) s.cmBad i n }
  if n = 3 then s.openFault 2 5 0 0 else s

/-- Start of the 100 us interval whose conversions end next: the present one, or the next where its own have ended
(R179). -/
def State.cmInterval (s : State) : Nat :=
  let t := s.now / 100000 * 100000
  if s.cmLast == some t then t + 100000 else t

/-- CM's sequence runs: its nine conversions of 1.0 us fill the start of each interval (R160, R179). -/
def State.cmBusy (s : State) : Bool := !s.tclkGone && s.now % 100000 < 9000

/-- CM_CONVERSION: the nine channels have been converted once in the 100 us interval (R179), with the limits of R486. A
channel that is given no code reads a free value (log 2). Without the timing clock there is no conversion (R160). -/
def State.cmConversion (s : State) (codes : List (BitVec 12)) : State :=
  if s.tclkGone then s else
  let t := s.cmInterval
  let s := s.advanceTo ((t + 9000) * nsUnit)
  let s : State := { s with cmLast := some t }
  let s := s.each (List.range 9) fun s i =>
    let code := match codes[i]? with
      | some v => v.toNat
      | none => s.freeVal.toNat % 4096
    let s := if codes.length ≤ i then s.usedFree else s
    let s := (s.setReg (A.CV_RES 24 i) (BitVec.ofNat 32 (resultWord code true false false 1))).setPair (A.CV_STAMP 24 i)
      (t + 1000 * i + 250)
    if i < 5 then s.cmSupply i code else s.cmTemp i code
  if [5, 6, 7, 8].all fun i => !cmHot (fieldOf (s.reg (A.CV_RES 24 i)) 0 12) 120 then
    s.resolveFaults fun f => f.region == 2 && f.cause == 5
  else s

end Sys2Proof.Machine
end

