-- ==== Sys2Proof/Machine/Delay.lean ====
section
/-!
DEFINITION. Insertion into and cancellation from the delay lists (R60, R61, R63, R251, R252). Their evaluation at a
tick stands in Coord.lean.
-/

namespace Sys2Proof.Machine

/-- The parts of 2^-32 units in which a coordinate's value is held: 32 further fraction bits (R50). -/
def coordUnit : Int := 2 ^ 32

/-- A driving coordinate. -/
def State.coordOf (s : State) (n : Nat) : Coord := Tab.get (fun _ => {}) s.coord n

def State.setCoord (s : State) (n : Nat) (c : Coord) : State :=
  { s with coord := Tab.set (fun _ => {}) s.coord n c }

/-- A delay list. -/
def State.dlist (s : State) (m : Nat) : DList := Tab.get (fun _ => {}) s.dl m

def State.setDlist (s : State) (m : Nat) (l : DList) : State := { s with dl := Tab.set (fun _ => {}) s.dl m l }

/-- How many entries a list holds at most (R60). -/
def dlCapacity (m : Nat) : Nat := if m = 0 then 1024 else 512

/-- The Q32.32 value that a coordinate shows: its value truncated to a multiple of 2^-32 (R50, R66). -/
def Coord.shown (x : Coord) : Int := x.value / coordUnit

/-- The value a list is keyed in: ridge time in ns for list 0, the Q32.32 value of its coordinate for lists 1 to 4
(R60, R64). -/
def State.dlValue (s : State) (m : Nat) : Int :=
  if m = 0 then s.now else (s.coordOf (s.fld (F.DL_CFG_coord m))).shown

/-- A key: unsigned ns for list 0, Q32.32 for the others. -/
def dlKey (m key : Nat) : Int := if m = 0 then (key : Int) else signedOf 64 key

/-- The list is full (R60). Accepted insertions that have not begun take their places. -/
def State.dlFull (s : State) (m : Nat) : Bool :=
  let waiting := s.waitingTake fun c => match c with
    | .dlInsert m' .. => if m'.toNat == m then 1 else 0
    | _ => 0
  (s.dlist m).entries.length + waiting ≥ dlCapacity m

/-- An insertion into a list that has room (R61, R251): it is registered at the next tick (R54). -/
def State.dlInsertEntry (s : State) (m dir stall slot : Nat) (data : Word) (key : Nat) (cmd : Option (Nat × Nat)) :
    State :=
  let l := s.dlist m
  let v := s.dlValue m
  let k := dlKey m key
  let late := if m = 0 then decide (k ≤ v)
    else if dir = 0 then decide (k ≤ v) else if dir = 1 then decide (v ≤ k) else false
  (s.setDlist m { l with entries := l.entries ++
    [{ key := k, dir := dir, stall := stall, slot := slot, data := data, side := v - k, late := late,
       since := s.clk.time, cmd := cmd }] }).setFld
      (F.DL_STAT_count m) (l.entries.length + 1)

/-- A refused insertion: counted and recorded (R63, R436). -/
def State.dlRefuse (s : State) (m stall slot : Nat) : State :=
  (s.countFld (F.DL_STAT_full_cnt m)).tally .dlFull (.delayList m) (stall + slot * 2 ^ 8)

/-- A cancellation removes every entry of the list with that destination; one that has fired stays fired (R252). -/
def State.dlCancelEntries (s : State) (m stall slot : Nat) : State :=
  let l := s.dlist m
  let hit (e : DlEntry) : Bool := e.stall == stall && e.slot == slot && e.fired.isNone
  let kept := l.entries.filter fun e => !hit e
  let s' := (s.setDlist m { l with entries := kept }).setFld (F.DL_STAT_count m) kept.length
  s'.each (l.entries.filter hit) fun s e => s.finishDone? e.cmd

end Sys2Proof.Machine
end

