-- ==== Sys2Proof/Machine/Geometry.lean ====
section
/-!
DEFINITION. The geometry of the safety region: the two kinematics units, exact distances, engines G1 and G2, the
stopping table, the speed-factor curves (R300 to R302, R308 to R312, R316).

Lengths: Q16.16 mm are integers of 2^-16 mm. Inside the kinematics units a coordinate is an integer of 2^-64 mm and a
rotation has 64 fraction bits; distances are integers of 2^-32 mm (log 27).
-/

namespace Sys2Proof.Machine

/-! ## Vectors -/

def Vec.add (a b : Vec) : Vec := { x := a.x + b.x, y := a.y + b.y, z := a.z + b.z }
def Vec.sub (a b : Vec) : Vec := { x := a.x - b.x, y := a.y - b.y, z := a.z - b.z }
def Vec.scale (k : Int) (a : Vec) : Vec := { x := k * a.x, y := k * a.y, z := k * a.z }
def Vec.div (a : Vec) (k : Int) : Vec := { x := a.x / k, y := a.y / k, z := a.z / k }
def Vec.dot (a b : Vec) : Int := a.x * b.x + a.y * b.y + a.z * b.z
def Vec.cross (a b : Vec) : Vec :=
  { x := a.y * b.z - a.z * b.y, y := a.z * b.x - a.x * b.z, z := a.x * b.y - a.y * b.x }
def Vec.norm2 (a : Vec) : Nat := (a.dot a).toNat

/-- One coordinate by its number. -/
def Vec.at (a : Vec) (i : Nat) : Int := if i = 0 then a.x else if i = 1 then a.y else a.z

/-- A rotation applied to a vector, both with the same unit: the products lose 64 fraction bits. -/
def Rot.apply (r : Rot) (v : Vec) : Vec :=
  { x := r.x.dot v / 2 ^ 64, y := r.y.dot v / 2 ^ 64, z := r.z.dot v / 2 ^ 64 }

/-- Column i of a rotation. -/
def Rot.col (r : Rot) (i : Nat) : Vec := { x := r.x.at i, y := r.y.at i, z := r.z.at i }

/-- The rotation from three columns. -/
def Rot.ofCols (a b c : Vec) : Rot :=
  { x := { x := a.x, y := b.x, z := c.x }, y := { x := a.y, y := b.y, z := c.y }, z := { x := a.z, y := b.z, z := c.z } }

/-- Product of two rotations. -/
def Rot.mul (a b : Rot) : Rot := Rot.ofCols (a.apply (b.col 0)) (a.apply (b.col 1)) (a.apply (b.col 2))

/-- A rotation of an image, Q2.30, with 64 fraction bits. -/
def Rot.fine (r : Rot) : Rot :=
  { x := Vec.scale (2 ^ 34) r.x, y := Vec.scale (2 ^ 34) r.y, z := Vec.scale (2 ^ 34) r.z }

/-! ## Joint positions (R300) -/

/-- The counts by which a latched position lies from zero, modulo 2^32 as a signed value. -/
def SJoint.counts (j : SJoint) (pos : Nat) : Int := signedOf 32 (unsignedOf 32 ((pos : Int) - j.zero))

/-- Rotation about the local z axis by q revolutions, 64 fraction bits. -/
def SJoint.turn (j : SJoint) (pos : Nat) : Rot :=
  let den := j.cpj.toNat
  let num := ((j.counts pos * 2 ^ 32) % j.cpj).toNat
  let c := cosTurn num den / 2 ^ 64
  let s := sinTurn num den / 2 ^ 64
  { x := { x := c, y := -s, z := 0 }, y := { x := s, y := c, z := 0 }, z := { x := 0, y := 0, z := 2 ^ 64 } }

/-- Motion along the local z axis by q metres, in 2^-64 mm. -/
def SJoint.lift (j : SJoint) (pos : Nat) : Vec := { z := j.counts pos * 2 ^ 32 * 1000 * 2 ^ 64 / j.cpj }

/-- The origin of a joint's frame in its parent's, 2^-64 mm; the record gives Q16.16 m (R119). -/
def SJoint.place (j : SJoint) : Vec := Vec.scale (1000 * 2 ^ 48) j.origin

/-! ## Kinematics (R301) -/

/-- A frame in the cell: its rotation and its origin. -/
structure Frame where
  rot : Rot := {}
  org : Vec := {}
  deriving DecidableEq, Repr

/-- A group's base frame. -/
def SGroup.base (g : SGroup) : Frame := { rot := g.baseRot.fine, org := Vec.scale (2 ^ 48) g.baseOrg }

/-- K1: the frame of a joint from its parent's. -/
def Frame.step (f : Frame) (j : SJoint) (pos : Nat) : Frame :=
  let r := f.rot.mul j.rot.fine
  let o := f.org.add (f.rot.apply j.place)
  if j.prismatic then { rot := r, org := o.add (r.apply (j.lift pos)) } else { rot := r.mul (j.turn pos), org := o }

/-- K1: the frames of a group from its base outward: 0 the base, j + 1 joint j. `joints` stand in joint order. -/
def frames (base : Frame) (pos : Nat → Nat) (joints : List SJoint) : List Frame :=
  joints.foldl (fun (fs : List Frame) (j : SJoint) => fs ++ [(fs.getD j.parent base).step j (pos j.joint)]) [base]

/-- K1: a capsule point of a frame in the cell frame, 2^-64 mm. -/
def k1Point (fs : List Frame) (frame : Nat) (p : Vec) : Vec :=
  let f := fs.getD frame {}
  f.org.add (f.rot.apply (Vec.scale (2 ^ 48) p))

/-- K2: a point carried from a frame inward to the base; `n` bounds the length of the chain. -/
def k2Walk (joints : List SJoint) (pos : Nat → Nat) : Nat → Nat → Vec → Vec
  | 0, _, p => p
  | n + 1, frame, p =>
    if frame = 0 then p
    else
      match joints.find? fun j => j.joint + 1 == frame with
      | none => p
      | some j =>
        let moved := if j.prismatic then p.add (j.lift (pos j.joint)) else (j.turn (pos j.joint)).apply p
        k2Walk joints pos n j.parent (j.place.add (j.rot.fine.apply moved))

/-- K2: a capsule point in the cell frame, 2^-64 mm. -/
def k2Point (base : Frame) (joints : List SJoint) (pos : Nat → Nat) (frame : Nat) (p : Vec) : Vec :=
  base.org.add (base.rot.apply (k2Walk joints pos 17 frame (Vec.scale (2 ^ 48) p)))

/-- A coordinate of 2^-64 mm as Q16.16 mm: the rule names no rounding, so bit `i` of a free value says up or down. -/
def roundCoord (free : Nat) (i : Nat) (v : Int) : Int :=
  v / 2 ^ 48 + if v % 2 ^ 48 ≠ 0 && free.testBit i then 1 else 0

/-- A point rounded to Q16.16 mm by three bits of a free value. -/
def roundPoint (free i : Nat) (p : Vec) : Vec :=
  { x := roundCoord free i p.x, y := roundCoord free (i + 1) p.y, z := roundCoord free (i + 2) p.z }

/-! ## Roots -/

/-- The square root of num / den units squared, in units of 2^-16, rounded down. -/
def rootFloor (num den : Nat) : Nat := if den = 0 then 0 else isqrt (num * 2 ^ 32 / den)

/-- The same, rounded up. -/
def rootCeil (num den : Nat) : Nat :=
  let r := rootFloor num den
  if r * r * den = num * 2 ^ 32 then r else r + 1

/-! ## Exact distances, squared, as fractions -/

/-- A squared distance num / den. -/
abbrev Frac := Nat × Nat

/-- The lesser of two fractions. -/
def Frac.min (a b : Frac) : Frac := if a.1 * b.2 ≤ b.1 * a.2 then a else b

/-- Squared distance of a point from a segment. -/
def pointSeg (p a b : Vec) : Frac :=
  let d := b.sub a
  let w := p.sub a
  let e := d.norm2
  let t := w.dot d
  if t ≤ 0 then (w.norm2, 1)
  else if (e : Int) ≤ t then ((p.sub b).norm2, 1)
  else (w.norm2 * e - (t * t).toNat, e)

/-- Squared distance of two segments: the least of the four end-point distances and, where both feet lie on the segments,
that of the lines. -/
def segSeg (a0 a1 b0 b1 : Vec) : Frac :=
  let u := a1.sub a0
  let v := b1.sub b0
  let w := a0.sub b0
  let ends := ((pointSeg a0 b0 b1).min (pointSeg a1 b0 b1)).min ((pointSeg b0 a0 a1).min (pointSeg b1 a0 a1))
  let n := u.cross v
  let dd := n.norm2
  let sN := u.dot v * v.dot w - v.dot v * u.dot w
  let tN := u.dot u * v.dot w - u.dot v * u.dot w
  if dd ≠ 0 && 0 ≤ sN && sN ≤ dd && 0 ≤ tN && tN ≤ dd then ends.min ((w.dot n * w.dot n).toNat, dd) else ends

/-- How far a coordinate num / den lies outside [lo, hi], times den. -/
def outside (lo hi num : Int) (den : Nat) : Int := max (max (lo * den - num) (num - hi * den)) 0

/-- Squared distance of the point a + t (b - a), t = num / den, from a box. -/
def boxAt (a b lo hi : Vec) (num : Int) (den : Nat) : Frac :=
  let o (i : Nat) : Int := outside (lo.at i) (hi.at i) (a.at i * den + (b.at i - a.at i) * num) den
  ((o 0 * o 0 + o 1 * o 1 + o 2 * o 2).toNat, den * den)

/-- The places on a segment at which its distance from a box can be least: its ends, the crossings of the six planes, and
the feet for every choice of the faces that count; as fractions num / den with den > 0. -/
def boxPlaces (a b lo hi : Vec) : List (Int × Nat) :=
  let d := b.sub a
  let norm (num den : Int) : Int × Nat := if den < 0 then (-num, den.natAbs) else (num, den.natAbs)
  let planes := (List.range 3).flatMap fun i => [norm (lo.at i - a.at i) (d.at i), norm (hi.at i - a.at i) (d.at i)]
  let choice (k i : Nat) : Nat := k / 3 ^ i % 3
  let feet := (List.range 27).map fun k =>
    let used (i : Nat) : Bool := choice k i != 0
    let c (i : Nat) : Int := if choice k i = 1 then lo.at i else hi.at i
    let term (i : Nat) : Int := if used i then d.at i * (c i - a.at i) else 0
    let sq (i : Nat) : Int := if used i then d.at i * d.at i else 0
    norm (term 0 + term 1 + term 2) (sq 0 + sq 1 + sq 2)
  [((0 : Int), 1), (1, 1)] ++ (planes ++ feet).filter fun t => t.2 ≠ 0 && 0 ≤ t.1 && t.1 ≤ t.2

/-- Squared distance of a segment from a closed box. -/
def segBox (a b lo hi : Vec) : Frac :=
  (boxPlaces a b lo hi).foldl (fun (m : Frac) (t : Int × Nat) => m.min (boxAt a b lo hi t.1 t.2)) (boxAt a b lo hi 0 1)

/-! ## Engine G1 (R310) -/

/-- A member of a pair: end points or box corners in Q16.16 mm, and the radius. -/
abbrev Member := Shape

/-- The true distance of a capsule and another member, in 2^-32 mm, rounded down. -/
def trueDistance (a b : Member) : Int :=
  let f := if b.kind = 2 then segBox a.p a.q b.p b.q else segSeg a.p a.q b.p b.q
  (rootFloor f.1 f.2 : Int) - (a.radius + b.radius) * 2 ^ 16

/-- d1: at most 1/64 mm below the true distance, by a free amount. -/
def g1Distance (free : Nat) (a b : Member) : Int := trueDistance a b - (free % 2 ^ 26 : Nat)

/-! ## Engine G2 (R311) -/

/-- A chain of spheres: its centres are p + (q - p) i / max (n - 1) 1; its radius in 2^-32 mm. -/
structure Chain where
  n : Nat
  radius : Nat
  deriving DecidableEq, Repr

/-- The chain that covers a capsule; `eMax` in UQ8.8 mm. -/
def chainOf (eMax : Nat) (c : Member) : Chain :=
  let l2 := (c.q.sub c.p).norm2
  let e := eMax * 2 ^ 8
  if l2 = 0 then { n := 1, radius := c.radius * 2 ^ 16 }
  else
    let fits (n : Nat) : Bool := l2 ≤ 4 * (n - 1) * (n - 1) * (2 * c.radius * e + e * e)
    let n := (((List.range 15).map (· + 2)).find? fits).getD 16
    let m := 2 * (n - 1)
    { n := n, radius := rootFloor (c.radius * c.radius * m * m + l2) (m * m) }

/-- R - r, in 2^-32 mm. -/
def Chain.excess (k : Chain) (c : Member) : Int := (k.radius : Int) - c.radius * 2 ^ 16

/-- Centre i of a capsule's chain, times max (n - 1) 1. -/
def centre (c : Member) (n i : Nat) : Vec := (Vec.scale (Nat.max (n - 1) 1) c.p).add (Vec.scale i (c.q.sub c.p))

/-- The sphere of b nearest along its axis to a point num / den. -/
def nearSphere (b : Member) (nb : Nat) (pt : Vec) (den : Nat) : Nat :=
  let v := b.q.sub b.p
  let l2 := v.norm2 * den
  let t := (pt.sub (Vec.scale den b.p)).dot v * (nb - 1 : Nat)
  if l2 = 0 then 0 else (clampInt 0 (nb - 1 : Nat) ((2 * t + l2) / (2 * l2))).toNat

/-- d2: the least distance of a sphere of a from b. -/
def g2Distance (eMax : Nat) (a b : Member) : Int :=
  let ka := chainOf eMax a
  let da := Nat.max (ka.n - 1) 1
  let one (i : Nat) : Int :=
    let c := centre a ka.n i
    if b.kind = 2 then
      let o (k : Nat) : Int := outside (b.p.at k) (b.q.at k) (c.at k) da
      (rootFloor (o 0 * o 0 + o 1 * o 1 + o 2 * o 2).toNat (da * da) : Int) - ka.radius - b.radius * 2 ^ 16
    else
      let kb := chainOf eMax b
      let db := Nat.max (kb.n - 1) 1
      let k := nearSphere b kb.n c da
      let d := (Vec.scale db c).sub (Vec.scale da (centre b kb.n k))
      (rootFloor d.norm2 (da * db * (da * db)) : Int) - ka.radius - kb.radius
  ((List.range ka.n).map one).foldl min (one 0)

/-- ε: the sum of the excesses of the capsule members (R312). -/
def excessSum (eMax : Nat) (a b : Member) : Int :=
  (chainOf eMax a).excess a + if b.kind = 2 then 0 else (chainOf eMax b).excess b

/-! ## Stopping table and curves (R308, R316) -/

/-- The two points of a table between which, or beyond which, v lies. -/
def spanOf (v : Nat) : List (Nat × Nat × Nat) → Option ((Nat × Nat × Nat) × (Nat × Nat × Nat))
  | a :: b :: c :: r => if v < b.1 * 2 ^ 32 then some (a, b) else spanOf v (b :: c :: r)
  | [a, b] => some (a, b)
  | _ => none

/-- S_s(v) in 2^-3 mm and T_s(v) in us, for v in 2^-32 mm/s, as fractions with one denominator. -/
def SGroup.stopping (g : SGroup) (v : Nat) : Int × Int × Nat :=
  match spanOf v g.stops with
  | none => (0, 0, 1)
  | some (a, b) =>
    let den : Nat := (b.1 - a.1) * 2 ^ 32
    let t : Int := (v : Int) - (a.1 * 2 ^ 32 : Nat)
    let at' (p q : Nat) : Int := (p : Int) * den + ((q : Int) - p) * t
    (at' a.2.1 b.2.1, at' a.2.2 b.2.2, den)

/-- The quotient rounded up. -/
def divUp (a : Int) (b : Nat) : Int := -((-a) / (b : Int))

/-- th_r in 2^-16 mm, for a capsule's speed in 2^-32 mm/s (R309). -/
def SGroup.thatch (g : SGroup) (v : Nat) : Int :=
  let (s, _, den) := g.stopping v
  divUp ((v * g.tr : Nat) * den + s * (125000 * 2 ^ 32) + (g.zr * (den * (1000000 * 2 ^ 24)) : Nat)) (den * (1000000 * 2 ^ 16))

/-- th_h in 2^-16 mm, for a person's speed in UQ16.16 mm/s, the group's speed and the slot's allowance (R309). -/
def SGroup.personThatch (g : SGroup) (vh v extra : Nat) : Int :=
  let (_, t, den) := g.stopping v
  divUp ((vh : Int) * ((g.tr : Int) * den + t)) (den * 1000000) + extra

/-- The factor of a curve at a slack in 2^-32 mm, at least 0 (R316). Curve 0 gives 1,024. -/
def curveFactor (ps : List (Nat × Nat)) (slack : Nat) : Nat :=
  let s (k : Nat) : Nat := (ps.getD k (0, 0)).1 * 2 ^ 32
  let f (k : Nat) : Nat := (ps.getD k (0, 0)).2
  if ps.isEmpty then 1024
  else if slack < s 0 then f 0
  else if slack ≥ s 7 then f 7
  else
    match (List.range 7).find? fun k => s k ≤ slack && slack < s (k + 1) with
    | some k => f k + (slack - s k) * (f (k + 1) - f k) / (s (k + 1) - s k)
    | none => f 7

end Sys2Proof.Machine
end

