-- ==== Sys2Proof/Machine/Dynamics.lean ====
section
/-!
DEFINITION. The feedforward task (R116 to R119): recursive rigid-body inverse dynamics over a group's link model, and
the current feedforward of each joint. Every quantity carries 64 fraction bits in the units m, rad, s, kg; the last
rounding, to Q16.16 A, is a free bit for each joint (log 80).
-/

namespace Sys2Proof.Machine

/-- Product of two numbers of 64 fraction bits. -/
def mulFine (a b : Int) : Int := a * b / 2 ^ 64

/-- Product of a number and a vector of 64 fraction bits. -/
def Vec.times (k : Int) (v : Vec) : Vec := (Vec.scale k v).div (2 ^ 64)

/-- Cross product of two vectors of 64 fraction bits. -/
def Vec.wedge (a b : Vec) : Vec := (a.cross b).div (2 ^ 64)

/-- The transpose of a rotation. -/
def Rot.flip (r : Rot) : Rot := { x := r.col 0, y := r.col 1, z := r.col 2 }

/-- 2 pi with 64 fraction bits. -/
def twoPiFine : Int := twoPi160 / 2 ^ 96

/-- A rigid body: mass, centre of mass, and Ixx, Iyy, Izz, Ixy, Ixz, Iyz about it (R119). -/
structure Body where
  mass : Int
  com : Vec
  inertia : List Int
  deriving DecidableEq, Repr

/-- A joint of a link model with its link (R119). -/
structure Link where
  prismatic : Bool
  parent : Nat
  rot : Rot
  origin : Vec
  bodies : List Body
  rotor : Int
  fv : Int
  fc : Int
  ki : Int
  deriving DecidableEq, Repr

/-- A joint's frame as it moves, in its own axes: the rotation to its parent's axes, its origin there, its angular
velocity and acceleration, and the acceleration of its origin, gravity included. -/
structure Moving where
  rot : Rot := {}
  org : Vec := {}
  spin : Vec := {}
  dspin : Vec := {}
  acc : Vec := {}
  deriving DecidableEq, Repr

/-- A force and a moment about a frame's origin, in its axes. -/
structure Wrench where
  force : Vec := {}
  moment : Vec := {}
  deriving DecidableEq, Repr

def Wrench.add (a b : Wrench) : Wrench := { force := a.force.add b.force, moment := a.moment.add b.moment }

/-- The inertia of a body applied to a vector. -/
def Body.turn (b : Body) (v : Vec) : Vec :=
  let i (k : Nat) : Int := b.inertia.getD k 0
  { x := (i 0 * v.x + i 3 * v.y + i 4 * v.z) / 2 ^ 64, y := (i 3 * v.x + i 1 * v.y + i 5 * v.z) / 2 ^ 64,
    z := (i 4 * v.x + i 5 * v.y + i 2 * v.z) / 2 ^ 64 }

/-- The acceleration of a point fixed in a moving frame. -/
def Moving.accOf (m : Moving) (p : Vec) : Vec :=
  (m.acc.add (m.dspin.wedge p)).add (m.spin.wedge (m.spin.wedge p))

/-- The force and the moment that a body in a moving frame requires. -/
def Body.needs (b : Body) (m : Moving) : Wrench :=
  let force := Vec.times b.mass (m.accOf b.com)
  { force := force, moment := ((b.turn m.dspin).add (m.spin.wedge (b.turn m.spin))).add (b.com.wedge force) }

/-- Rotation about z by a position in revolutions, Q32.32. -/
def turnZ (pos : Int) : Rot :=
  let num := (pos % 2 ^ 32).toNat
  let c := cosTurn num (2 ^ 32) / 2 ^ 64
  let s := sinTurn num (2 ^ 32) / 2 ^ 64
  { x := { x := c, y := -s }, y := { x := s, y := c }, z := { z := 2 ^ 64 } }

/-- Outward: the motion of a joint's frame from its parent's, by the joint's operands (R116, R117). -/
def Link.move (l : Link) (m : Moving) (p : Setp) : Moving :=
  let scale := if l.prismatic then 2 ^ 64 else twoPiFine
  let vel := mulFine (p.vff * 2 ^ 48) scale
  let acc := mulFine (p.aff * 2 ^ 48) scale
  let z (v : Int) : Vec := { z := v }
  let rot := if l.prismatic then l.rot else l.rot.mul (turnZ p.pos)
  let org := if l.prismatic then l.origin.add (l.rot.apply (z (p.pos * 2 ^ 32))) else l.origin
  let back := rot.flip
  let spin := back.apply m.spin
  let dspin := back.apply m.dspin
  let base := back.apply (m.accOf org)
  if l.prismatic then
    { rot := rot, org := org, spin := spin, dspin := dspin,
      acc := (base.add (Vec.scale 2 (spin.wedge (z vel)))).add (z acc) }
  else
    { rot := rot, org := org, spin := spin.add (z vel),
      dspin := (dspin.add (z acc)).add (spin.wedge (z vel)), acc := base }

/-- The motion of every joint's frame, from the base outward; `base` holds gravity as an upward acceleration. -/
def outward (base : Moving) (ls : List Link) (ps : List Setp) : List Moving :=
  (ls.zip ps).foldl (fun (ms : List Moving) (x : Link × Setp) =>
    let parent := if x.1.parent = 0 then base else ms.getD (x.1.parent - 1) base
    ms ++ [x.1.move parent x.2]) []

/-- A wrench in a joint's frame as its parent sees it. -/
def Moving.carry (m : Moving) (w : Wrench) : Wrench :=
  let force := m.rot.apply w.force
  { force := force, moment := (m.rot.apply w.moment).add (m.org.wedge force) }

/-- Inward: the wrench at every joint, its own link's and those of the joints it carries. -/
def inward (ls : List Link) (ms : List Moving) : List Wrench :=
  let own (x : Link × Moving) : Wrench := x.1.bodies.foldl (fun (w : Wrench) b => w.add (b.needs x.2)) {}
  (List.range ls.length).reverse.foldl (fun (ws : List Wrench) (j : Nat) =>
    match ls[j]?, ms[j]? with
    | some l, some m =>
      if l.parent = 0 then ws
      else ws.set (l.parent - 1) ((ws.getD (l.parent - 1) {}).add (m.carry (ws.getD j {})))
    | _, _ => ws) ((ls.zip ms).map own)

/-- The torque of one joint: rigid-body part, rotor inertia about the joint axis, friction (R117). -/
def Link.torque (l : Link) (w : Wrench) (p : Setp) : Int :=
  let acc := mulFine (p.aff * 2 ^ 48) (if l.prismatic then 2 ^ 64 else twoPiFine)
  (if l.prismatic then w.force.z else w.moment.z) + mulFine l.rotor acc +
    mulFine l.fv (p.vff * 2 ^ 48) + l.fc * p.vff.sign

/-- The torques of a link model with a gravity vector, for the operands of its joints (R117). -/
def torques (gravity : Vec) (ls : List Link) (ps : List Setp) : List Int :=
  let ws := inward ls (outward { acc := Vec.scale (-1) gravity } ls ps)
  (ls.zip (ws.zip ps)).map fun x => x.1.torque x.2.1 x.2.2

/-! ## The model's registers (R119) -/

/-- A signed 32-bit register with `bits` fraction bits, as a number of 64. -/
def State.fineReg (s : State) (a bits : Nat) : Int := (s.reg a).toInt * 2 ^ (64 - bits)

/-- Three registers as a vector. -/
def State.fineVec (s : State) (a : Nat → Nat) : Vec :=
  { x := s.fineReg (a 0) 16, y := s.fineReg (a 1) 16, z := s.fineReg (a 2) 16 }

/-- Nine registers as a rotation, row by row. -/
def State.fineRot (s : State) (a : Nat → Nat) : Rot :=
  let row (i : Nat) : Vec := { x := s.fineReg (a i) 30, y := s.fineReg (a (i + 1)) 30, z := s.fineReg (a (i + 2)) 30 }
  { x := row 0, y := row 3, z := row 6 }

/-- The record of joint j, the payload with the link it is fixed to. -/
def State.link (s : State) (g j : Nat) : Link :=
  let own : Body :=
    { mass := s.fineReg (A.MODEL_MASS g j) 16, com := s.fineVec (A.MODEL_COM g j),
      inertia := (List.range 6).map fun i => s.fineReg (A.MODEL_INERTIA g j i) 24 }
  let load : Body :=
    { mass := s.fineReg (A.MODEL_PL_MASS g) 16, com := s.fineVec (A.MODEL_PL_COM g),
      inertia := (List.range 6).map fun i => s.fineReg (A.MODEL_PL_INERTIA g i) 24 }
  { prismatic := s.fld (F.MODEL_KIND_kind g j) == 1, parent := s.fld (F.MODEL_KIND_parent g j),
    rot := s.fineRot (A.MODEL_ROT g j), origin := s.fineVec (A.MODEL_ORIGIN g j),
    bodies := if s.fld (F.MODEL_COUNT_pl_link g) = j + 1 then [own, load] else [own],
    rotor := s.fineReg (A.MODEL_ROTOR g j) 24, fv := s.fineReg (A.MODEL_FV g j) 16,
    fc := s.fineReg (A.MODEL_FC g j) 16, ki := s.fineReg (A.MODEL_KI g j) 16 }

/-- A number of 64 fraction bits as Q16.16, saturated; `up` says how it is rounded, which the rule does not. -/
def currentOf (v : Int) (up : Bool) : Word :=
  BitVec.ofInt 32 (clampInt (-(2 ^ 31)) (2 ^ 31 - 1) (v / 2 ^ 48 + if v % 2 ^ 48 ≠ 0 && up then 1 else 0))

/-- The task's results: the current feedforward of every joint, Q16.16 A (R117). -/
def State.ffResults (s : State) (g : Nat) : List Word :=
  let ls := (List.range (s.fld (F.MODEL_COUNT_count g))).map (s.link g)
  let ts := torques (s.fineVec (A.MODEL_GRAVITY g)) ls (s.grpOf g).ffOps
  (List.range ls.length).map fun j =>
    currentOf (mulFine (ts.getD j 0) (s.link g j).ki) (s.freeVal.getLsbD j)

/-- A stall has ended a readiness by DONE: the feedforward tasks that run in it have their results, when they end by
200 us after their start (R116). -/
def State.ffEnded (s : State) (n : Nat) : State :=
  s.each (List.range 8) fun s g =>
    match (s.grpOf g).ffStart with
    | some t =>
      if s.flag (F.MG_FF_enable g) && s.fld (F.MG_FF_stall g) == n && decide (s.now ≤ t + 200000) then
        (s.setGrp g { s.grpOf g with ffDone := true, ffNext := some (s.ffResults g) }).usedFree
      else s
    | none => s

/-- The current laws of joint j of a group (R215). -/
def State.jointLaws (s : State) (g j : Nat) : List Nat :=
  match (s.groupSlices g)[j]? with
  | some n => (s.groupLaws g).filter fun k => s.lawByte k 0 == 1 && s.lawByte k 1 % 64 == n
  | none => []

/-- Feedforward operands to slot 6 of the joints' current laws (R117, R215). -/
def State.ffDeliver (s : State) (g : Nat) (vs : List Word) : State :=
  s.each (List.range vs.length) fun s j =>
    s.each (s.jointLaws g j) fun s k => s.send k 6 (vs.getD j 0) Src.post none false (s.fld (F.MG_FF_stall g))

/-- FFSTAT.state becomes ZEROED, with its record (R118). -/
def State.ffZero (s : State) (g why : Nat) : State :=
  if s.fld (F.MG_FFSTAT_state g) = 3 then s
  else (s.setFld (F.MG_FFSTAT_state g) 3).tally (if why = 2 then .ffMismatch else .ffZeroed) (.group g) why

/-- The 200 us of a posted task are over: it has ended, or it is missed (R118). -/
def State.ffClose (s : State) (g : Nat) : State :=
  let x := s.grpOf g
  if x.ffStart.isNone then s
  else if x.ffDone then
    (s.setGrp g { x with ffStart := none, ffMiss := 0 }).setFld (F.MG_FFSTAT_state g) 1
  else
    let s := s.setGrp g { x with ffStart := none, ffMiss := x.ffMiss + 1, ffHold := x.ffMiss = 0 }
    let s := s.countFld (F.MG_FFSTAT_misses g)
    if x.ffMiss = 0 then s.setFld (F.MG_FFSTAT_state g) 2 else s.ffZero g 1

/-- A multiple of 250 us: the results of the interval that ends apply; after one miss the present ones stay; else the
feedforward is 0 (R116, R118). Nothing happens a second time at one multiple. -/
def State.ffApply (s : State) (g : Nat) : State :=
  if (s.grpOf g).ffAt = some s.now then s
  else
    let s := s.ffClose g
    let x := s.grpOf g
    let y := { x with ffAt := some s.now, ffNext := none, ffHold := false }
    match x.ffNext with
    | some vs => (s.setGrp g { y with ffOut := vs }).ffDeliver g vs
    | none =>
      if x.ffHold then s.setGrp g y
      else (s.setGrp g { y with ffOut := [] }).ffDeliver g (x.ffOut.map fun _ => 0)

end Sys2Proof.Machine
end

