-- ==== Sys2Proof/Machine/Points.lean ====
section
/-!
DEFINITION. The points of the signal fabric in shared SRAM and DRAM: the directory, a point's place and content, and the
tries of a read that has found a point being written (R437 to R439).
-/

namespace Sys2Proof.Machine

/-! ## The directory (R437, R444) -/

/-- Writer kinds of the directory (R444). -/
def Kind.unused : Nat := 0
def Kind.link : Nat := 1
def Kind.device : Nat := 2
def Kind.host : Nat := 3
def Kind.core : Nat := 4

/-- Where the directory entry of a point stands: the first MiB at DRAM_BASE holds the 2^17 entries, eight bytes each,
DENT_LO below DENT_HI (R437; the places within the MiB DEDUCED, log 56). -/
def State.dirPlace (s : State) (p : Nat) : Nat := s.pair A.FAB_DRAM_BASE + 8 * p

/-- A DRAM byte lies in a 32-byte line with an uncorrectable error (R465). -/
def State.dramFails (s : State) (a : Nat) : Bool := s.dramBad.contains (a / 32)

/-- The directory entry of a point: the words DENT_LO and DENT_HI. One that its DRAM returns with an error names no
point (DESIGN CHOICE, log 56). -/
def State.dirEntry (s : State) (p : Nat) : Word × Word :=
  let a := s.dirPlace p
  if s.dramFails a then (0, 0)
  else (BitVec.ofNat 32 (ofBytes (memBytes s.dram a 4)), BitVec.ofNat 32 (ofBytes (memBytes s.dram (a + 4) 4)))

/-! ## A point (R437, R438) -/

def State.pointOffset (s : State) (p : Nat) : Nat := fieldOf (s.dirEntry p).1 0 25
def State.pointWords (s : State) (p : Nat) : Nat := fieldOf (s.dirEntry p).1 25 6 + 1
def State.pointKind (s : State) (p : Nat) : Nat := fieldOf (s.dirEntry p).2 0 3

/-- The point is mirrored; the flag of a CORE point has no effect (R443). -/
def State.pointMirrored (s : State) (p : Nat) : Bool := fieldOf (s.dirEntry p).1 31 1 == 1 && s.pointKind p != Kind.core

/-- A byte of the fabric space lies in shared SRAM, at the offset given, or in DRAM, at the address given (R437). -/
def State.fabPlace (s : State) (off : Nat) : Bool × Nat :=
  let size := s.fld F.FAB_SRAM_SIZE_size
  if off < size then (true, s.fld F.FAB_SRAM_BASE_base + off)
  else (false, s.pair A.FAB_DRAM_BASE + 2 ^ 20 + (off - size))

/-- A byte of the fabric space. -/
def State.fabByte (s : State) (off : Nat) : Byte :=
  match s.fabPlace off with
  | (true, a) => memByte s.sram a
  | (false, a) => memByte s.dram a

/-- Bytes of the fabric space. -/
def State.fabBytes (s : State) (off n : Nat) : List Byte := (List.range n).map fun i => s.fabByte (off + i)

/-- ver of a point. -/
def State.pointVer (s : State) (p : Nat) : Nat := ofBytes (s.fabBytes (s.pointOffset p) 4)

/-- The record of a point. -/
def State.pointRecord (s : State) (p : Nat) : List Byte := s.fabBytes (s.pointOffset p + 16) (4 * s.pointWords p)

/-- The stamp of a point. -/
def State.pointStamp (s : State) (p : Nat) : Nat := ofBytes (s.fabBytes (s.pointOffset p + 8) 8)

/-- The failing words of shared SRAM and lines of DRAM that a read of the point meets, the line of its directory entry
among them (R465, R466). -/
def State.pointErrors (s : State) (p : Nat) : List Nat × List Nat :=
  let places := (List.range (16 + 4 * s.pointWords p)).map fun i => s.fabPlace (s.pointOffset p + i)
  let words := places.filterMap fun x => if x.1 then some (x.2 / 4 * 4) else none
  let lines := places.filterMap fun x => if x.1 then none else some (x.2 / 32)
  (words.eraseDups.filter s.sramBad.contains, (s.dirPlace p / 32 :: lines).eraseDups.filter s.dramBad.contains)

/-! ## Repeated reads (R439) -/

/-- The time between two tries of a read: 50 ns (R439). -/
def tryGap : Moment := 50 * nsUnit

/-- A read that has failed and is repeated, as the tries due by now leave it: the memory has stood as it is since it was
last written, so the first due try settles it, or all due ones have failed (R439). -/
def FabTry.run (s : State) (t : FabTry) : FabTry :=
  if t.got.isSome || t.left = 0 || s.clk.time < t.next then t
  else if s.pointVer t.point % 2 = 0 && (s.pointErrors t.point).1.isEmpty && (s.pointErrors t.point).2.isEmpty then
    { t with got := some { at' := t.next, ver := s.pointVer t.point, stamp := s.pointStamp t.point,
                           record := s.pointRecord t.point } }
  else
    let n := Nat.min t.left ((s.clk.time - t.next) / tryGap + 1)
    { t with left := t.left - n, next := t.next + n * tryGap }

/-- The tries due by now read the memory as it stands, before it is written. -/
def State.triesRun (s : State) : State :=
  if s.fab.tries.isEmpty then s
  else { s with fab := { s.fab with tries := s.fab.tries.map (FabTry.run s) } }

/-- A read of the host window has not ended (R442). -/
def State.hostReads (s : State) : Bool :=
  s.fab.tries.any fun t => t.reader == .host && (t.run s).got.isNone && (t.run s).left != 0

end Sys2Proof.Machine
end

