-- ==== Sys2Proof/Machine/LawRun.lean ====
section
/-!
DEFINITION. The control laws of the library: the record as a law sees it, control tokens, ramped references, skips and
faults, conditional integration, and one run of the current, velocity, position and stepper laws (R211 to R232).
`State.lawRun` is the run of the stall whose execution ends; the formats of the values between the formulas' variables
are the model's (log 71).
-/

namespace Sys2Proof.Machine

/-! ## The record's format and ranges (R211 to R213, R223, R225, R227, R229) -/

/-- A check of a field of a law record: first byte, width in bytes, signed, least and greatest value. -/
structure LawField where
  pos : Nat
  width : Nat
  sign : Bool := false
  lo : Option Int := none
  hi : Option Int := none

/-- The field of a record lies within its range. -/
def LawField.ok (f : LawField) (r : List Byte) : Bool :=
  let u := bytesAt r f.pos f.width
  let v : Int := if f.sign then signedOf (8 * f.width) u else u
  (match f.lo with
    | some l => decide (l ≤ v)
    | none => true) &&
  match f.hi with
    | some h => decide (v ≤ h)
    | none => true

/-- A field of reserved bytes reads 0 (R212). -/
def lawZero (pos width : Nat) : LawField := { pos := pos, width := width, hi := some 0 }

/-- A signed field above 0. -/
def lawAbove (pos : Nat) : LawField := { pos := pos, width := 4, sign := true, lo := some 1 }

/-- Offset of a RES register within the ADC block, or 0 (R180, R223). -/
def vdcAddrOk (a : Nat) : Bool :=
  a == 0 || (a / 0x400 < 25 && 0x100 ≤ a % 0x400 && a % 0x400 < 0x140 && a % 4 == 0)

/-- The ranges of the parameter area by kind (R223, R225, R227, R229). -/
def lawFields (kind : Nat) : List LawField :=
  if kind = 1 then
    [{ pos := 24, width := 2, hi := some 4095 }, { pos := 26, width := 2, hi := some 4095 },
     { pos := 28, width := 1, lo := some 1, hi := some 64 }, { pos := 29, width := 1, lo := some 1 }, lawZero 30 2,
     { pos := 32, width := 4, lo := some 1 }, { pos := 36, width := 4, sign := true, lo := some 0, hi := some (2 ^ 24) },
     { pos := 68, width := 4, sign := true, hi := some 0 }, lawAbove 72, lawAbove 84, lawAbove 88,
     { pos := 92, width := 2, hi := some 1024 }, lawZero 94 2, lawAbove 96, lawZero 100 60]
  else if kind = 2 then
    [{ pos := 28, width := 4, sign := true, lo := some 0, hi := some (2 ^ 30) }, lawAbove 72, lawZero 76 84]
  else if kind = 3 then [lawAbove 24, lawAbove 28, lawZero 36 124]
  else if kind = 4 then
    [{ pos := 24, width := 2, hi := some 4095 }, { pos := 26, width := 2, hi := some 4095 }, lawAbove 44, lawAbove 48,
     lawZero 52 108]
  else []

/-- The formats and ranges of a record (R211 to R213). -/
def lawRecordOk (r : List Byte) : Bool :=
  let b (i : Nat) : Nat := bytesAt r i 1
  let kind := b 0
  let lib := 1 ≤ kind && kind ≤ 4
  let fl := b 2
  (kind ≤ 4 || kind ≥ 128) && b 1 < 64 && (!fl.testBit 1 || kind == 1) && (!fl.testBit 2 || kind == 2) &&
    (if kind = 1 then b 3 == 1 || b 3 == 2 || b 3 == 4 else b 3 == 0) && bytesAt r 6 2 == 0 && bytesAt r 12 4 == 0 &&
    (!lib || (fl < 8 && 1 ≤ b 5 && b 5 ≤ 15 && decide (signedOf 32 (bytesAt r 8 4) > 0))) &&
    (lawFields kind).all (fun f => f.ok r) && (kind != 1 || vdcAddrOk (bytesAt r 76 4)) &&
    (kind != 4 || vdcAddrOk (bytesAt r 36 4))

/-! ## The record as its law sees it (R210, R212) -/

/-- The law record of a stall (R210). -/
def State.lawRec (s : State) (n : Nat) : List Byte := memBytes s.sram (0x7E0000 + n * 0x100) 256

/-- A byte string laid over another from an offset. -/
def overlay (r : List Byte) (off : Nat) (bs : List Byte) : List Byte := r.take off ++ bs ++ r.drop (off + bs.length)

/-- The record with its working area, bytes [223:160], in the order in which the laws below number it (log 30). -/
def lawIn (r : List Byte) : List Byte :=
  overlay r 160 ((List.finRange 64).map fun i => r.getD (160 + (Config.workOrder i).val) 0)

/-- The record with its working area as the record holds it (log 30). -/
def lawOut (r : List Byte) : List Byte :=
  overlay r 160 ((List.finRange 64).map fun i => r.getD (160 + (Config.workOrder.symm i).val) 0)

/-- Signed 32-bit value at an offset. -/
def recI (r : List Byte) (off : Nat) : Int := signedOf 32 (bytesAt r off 4)

/-- The record with a signed 32-bit value at an offset. -/
def putI (r : List Byte) (off : Nat) (v : Int) : List Byte := overlay r off (toBytes 4 (unsignedOf 32 v))

/-- The record with an unsigned value of `w` bytes at an offset. -/
def putU (r : List Byte) (off w v : Nat) : List Byte := overlay r off (toBytes w v)

/-- Saturation to a 32-bit signed number (R221, R271). -/
def sat32 (i : Int) : Int := satSigned 32 i

/-- A product of fixed-point numbers, truncated (R221). -/
def mulQ (frac : Nat) (a b : Int) : Int := a * b / 2 ^ frac

/-- A product with a number of 128 fraction bits, truncated. -/
def mulT (a t : Int) : Int := a * t / 2 ^ 128

/-- States of a law (R212). -/
def Law.idle : Nat := 0
def Law.offset : Nat := 1
def Law.soft : Nat := 2
def Law.run : Nat := 3
def Law.fault : Nat := 4

def lawState (r : List Byte) : Nat := bytesAt r 224 1

/-- Places of the working area: the integrators; the ramped references; the link voltage held; sums and numbers of the
codes of OFFSET and its runs; the drive was strong in the last run; the ramp has still to start from the measured
value (log 30). -/
def W.int0 : Nat := 160
def W.int1 : Nat := 164
def W.theta : Nat := 168
def W.ref0 : Nat := 172
def W.ref1 : Nat := 176
def W.vdc : Nat := 180
def W.sumA : Nat := 184
def W.sumB : Nat := 188
def W.numA : Nat := 192
def W.numB : Nat := 194
def W.runs : Nat := 196
def W.strong : Nat := 222
def W.fresh : Nat := 223

/-- VEL: Iv, d, i_prev, v_prev, and x1, x2, y1, y2 of both notches, in the order of R381; then its ramped reference.
-/
def W.vel : Nat := 160
def W.velRef : Nat := 208

/-- The 48 bytes of a VEL record's working state that R381 mirrors, and the record with them written. -/
def velState (r : List Byte) : List Byte := ((lawIn r).drop W.vel).take 48

def velWith (r st : List Byte) : List Byte := lawOut (overlay (lawIn r) W.vel (st.take 48))

/-- Ip of a POS record (R381), and the record with it written. -/
def posState (r : List Byte) : List Byte := ((lawIn r).drop W.int0).take 4

def posWith (r ip : List Byte) : List Byte := lawOut (overlay (lawIn r) W.int0 (ip.take 4))

/-! ## Integration and ramps (R221, R231) -/

/-- An integrator after its output has been clamped (R221). -/
def integrate (i inc unsat satd ilim : Int) : Int :=
  if (unsat > satd && inc > 0) || (unsat < satd && inc < 0) then i else clampInt (-ilim) ilim (sat32 (i + inc))

/-- A ramped reference after one run (R231). -/
def ramped (r x soft : Int) : Int := sat32 (r + clampInt (-soft) soft (x - r))

/-- A run with a saturated output is counted (R212). -/
def countSat (r : List Byte) (b : Bool) : List Byte := if b then putU r 232 4 (satCount 32 (bytesAt r 232 4 + 1)) else r

/-- The soft-start step (R212). -/
def softOf (r : List Byte) : Int := recI r 8

/-- A ramp that restarts from the measured value: the law is in SOFT (R231). -/
def restartRamp (r : List Byte) : List Byte := putU (putU r 224 1 Law.soft) W.fresh 1 1

/-! ## What a run needs, and what it gives -/

/-- What a law reads beside its record. -/
structure LawEnv where
  /-- operands of slots 0 to 7 (R215) -/
  ops : List Word
  /-- carrier period and P in force, in counts -/
  carrier : Nat
  period : Nat
  /-- LATCH.delay and CFG.spd_shift of the slice's port -/
  latch : Nat
  shift : Nat
  /-- CFG.xfer of the slice is EVERY -/
  every : Bool
  /-- the result word at vdc_addr -/
  link : Word
  /-- set-point of R214: position, Q32.32 rev, and velocity feedforward -/
  pos : Int
  vff : Int
  /-- the outer period in half nanoseconds (R216) -/
  to2 : Nat
  /-- MOT.STP: STAT.strong, POS, IRUN; the duty shadows -/
  strong : Bool
  stp : Nat
  irun : Int
  duty : List Nat
  /-- the slice belongs to a group -/
  owned : Bool
  deriving DecidableEq, Repr

/-- Operand k as an unsigned and as a signed number. -/
def LawEnv.op (e : LawEnv) (k : Nat) : Nat := (e.ops.getD k 0).toNat

def LawEnv.opI (e : LawEnv) (k : Nat) : Int := (e.ops.getD k 0).toInt

/-- What a run gives: its record; the duties to commit, each with its fine code, output 0 first; the tokens to the
next stall; whether they pass the check of R218; a skip; the cause of a fault it finds. -/
structure LawRes where
  r : List Byte
  duties : Option (List (Nat × Nat)) := none
  posts : List (Nat × Word) := []
  guarded : Bool := false
  skip : Bool := false
  fault : Option Nat := none
  deriving DecidableEq, Repr

/-- A code of an input and whether its word is usable (R171, R219). -/
def codeOf (w : Nat) : Nat := bitsOf w 0 12

def usable (w : Nat) : Bool := w.testBit 12 && !w.testBit 14 && !w.testBit 15

/-- An input scaled to amperes: its offset at `off`, its scale at `scale` (R222, R223). -/
def amps (r : List Byte) (w off scale : Nat) : Int := sat32 (((codeOf w : Nat) - bytesAt r off 2) * recI r scale)

/-- The link voltage: of the register at vdc_addr while it is usable, then as last used; or vdc_fix; at least vdc_min
(R222). The parameters lie at `p`: vdc_addr, vdc_scale, vdc_fix, vdc_min. The record keeps the value. -/
def linkVolts (e : LawEnv) (r : List Byte) (p : Nat) : Int × List Byte :=
  let w := e.link.toNat
  let v :=
    if bytesAt r p 4 = 0 then recI r (p + 8)
    else if w.testBit 12 && !w.testBit 15 then sat32 ((codeOf w : Nat) * recI r (p + 4))
    else recI r W.vdc
  (max v (recI r (p + 12)), putI r W.vdc v)

/-- Zero duties of `n` outputs (R220, R230, R232). -/
def zeroDuties (n : Nat) : Option (List (Nat × Nat)) := some (List.replicate n (0, 0))

/-- Outputs that a law of this kind commits: P0 to P2 for CUR, all four for STEP, none for the others. -/
def lawOutputs (kind : Nat) : Nat := if kind = 1 then 3 else if kind = 4 then 4 else 0

/-- Zero duties of a law that drives its slice; a STEP law commits none while its drive is not strong (R220, R228). -/
def lawZeros (e : LawEnv) (kind : Nat) : Option (List (Nat × Nat)) :=
  if lawOutputs kind = 0 || (kind = 4 && !e.strong) then none else zeroDuties (lawOutputs kind)

/-! ## The current law (R216, R222, R232) -/

/-- Speed of the motor's electrical angle, Q16.16 rev/s, from SPEED in counts/s times 2^(8 - spd_shift) (R204, R222).
-/
def elecSpeed (e : LawEnv) (r : List Byte) : Int :=
  let cpr : Int := bytesAt r 32 4
  sat32 (if cpr = 0 then 0 else bytesAt r 28 1 * e.opI 3 * 2 ^ (8 + e.shift) / cpr)

/-- Turns, with 32 fraction bits, that a speed of Q16.16 rev/s makes in half counts of 1.25 ns. -/
def turnsIn (we : Int) (halves : Int) : Int := we * halves * 2 ^ 16 * 5 / 4000000000

/-- The electrical angle of a run, 32 fraction bits of a turn (R222). -/
def elecAngle (e : LawEnv) (r : List Byte) (we : Int) : Nat :=
  if (e.op 4).testBit 6 || (e.op 4).testBit 5 then
    unsignedOf 32 (bytesAt r W.theta 4 + turnsIn we (2 * e.carrier))
  else
    let cpr := bytesAt r 32 4
    let pos : Nat := if cpr = 0 then 0 else (e.opI 2 % cpr).toNat
    unsignedOf 32 ((if cpr = 0 then 0 else (bytesAt r 28 1 * pos * 2 ^ 32 / cpr : Nat)) + recI r 36 * 2 ^ 8)

/-- cos and sin of an angle of 32 fraction bits, with 128 fraction bits. -/
def cosA (th : Nat) : Int := cosTurn th (2 ^ 32)
def sinA (th : Nat) : Int := sinTurn th (2 ^ 32)

/-- The square root of 3 with 128 fraction bits, and its inverse. -/
def root3 : Int := 589386348426860482768174911371534154633
def invRoot3 : Int := 196462116142286827589391637123844718211

/-- A joint angle, Q8.24 rev within -128 to 128 rev, from a position in counts (R216). -/
def jointAngle (r : List Byte) (pos : Int) : Int :=
  let den : Nat := bytesAt r 32 4 * bytesAt r 96 4
  if den = 0 then 0 else signedOf 32 (unsignedOf 32 (pos * 2 ^ 40 / den))

/-- A joint speed, Q16.16 rev/s, from SPEED (R204, R216). -/
def jointSpeed (r : List Byte) (word : Int) (shift : Nat) : Int :=
  let den : Nat := bytesAt r 32 4 * bytesAt r 96 4
  sat32 (if den = 0 then 0 else word * 2 ^ (24 + shift) / den)

/-- The tokens that CUR forwards at a run whose count is a multiple of outdiv (R216). -/
def forwards (e : LawEnv) (r : List Byte) : List (Nat × Word) :=
  if bytesAt r 252 4 % Nat.max 1 (bytesAt r 3 1) = 0 then
    [(0, BitVec.ofInt 32 (jointAngle r (e.opI 2))), (1, BitVec.ofInt 32 (jointSpeed r (e.opI 3) e.shift)),
     (2, e.ops.getD 4 0), (3, e.ops.getD 6 0)]
  else []

/-- A run of CUR in OFFSET: zero duties; the codes of valid words are summed, and after ofs_runs runs their means
become the offsets (R232). An input without a valid word keeps its offset (log 71). -/
def curOffset (e : LawEnv) (r : List Byte) : LawRes :=
  let add (r : List Byte) (w sum num : Nat) : List Byte :=
    if w.testBit 12 then putU (putU r sum 4 (bytesAt r sum 4 + codeOf w)) num 2 (bytesAt r num 2 + 1) else r
  let r' := add (add r (e.op 0) W.sumA W.numA) (e.op 1) W.sumB W.numB
  let c := bytesAt r W.runs 2 + 1
  let mean (r : List Byte) (sum num off : Nat) : List Byte :=
    let k := bytesAt r num 2
    if k = 0 then r else putU r off 2 ((2 * bytesAt r sum 4 + k) / (2 * k))
  let r' := putU r' W.runs 2 c
  let r' := if c < bytesAt r 29 1 then r' else restartRamp (mean (mean r' W.sumA W.numA 24) W.sumB W.numB 26)
  let ok := usable (e.op 0) && usable (e.op 1)
  { r := r', duties := if ok then zeroDuties 3 else none, posts := forwards e r, skip := !ok }

/-- A duty and its fine code of a phase, from P × (1/2 + v / vdc) (R222). -/
def phaseDuty (period : Nat) (v vdc : Int) : Nat × Nat :=
  let y : Nat := if vdc ≤ 0 then 0 else (64 * period * (vdc + 2 * v) / (2 * vdc)).toNat
  (y / 64 % 2 ^ 16, y % 64)

/-- The duties of three phases from the voltages of the stationary axes, with zero-sequence injection (R222). -/
def phaseDuties (period : Nat) (val vbe vdc : Int) : List (Nat × Nat) :=
  let b := mulT vbe root3
  let va := val
  let vb := (-val + b) / 2
  let vc := (-val - b) / 2
  let vz := -(max va (max vb vc) + min va (min vb vc)) / 2
  [va, vb, vc].map fun v => phaseDuty period (v + vz) vdc

/-- A run of CUR in SOFT or RUN (R222). A run whose inputs are not usable makes no COMMIT and is a skip; its angle
goes on (R219). -/
def curRun (e : LawEnv) (r : List Byte) : LawRes :=
  let we := elecSpeed e r
  let th := elecAngle e r we
  let r1 := putU r W.theta 4 th
  if !(usable (e.op 0) && usable (e.op 1)) then { r := r1, posts := forwards e r, skip := true }
  else
    let ia := amps r (e.op 0) 24 16
    let ib := amps r (e.op 1) 26 20
    let be := mulT (sat32 (ia + 2 * ib)) invRoot3
    let id := sat32 (mulT ia (cosA th) + mulT be (sinA th))
    let iq := sat32 (mulT be (cosA th) - mulT ia (sinA th))
    let iqT := clampInt (-recI r 72) (recI r 72) (sat32 (e.opI 5 + e.opI 6))
    let idT := recI r 68
    let fresh := bytesAt r W.fresh 1 = 1
    let soft := lawState r = Law.soft
    let idR := if soft then ramped (if fresh then id else recI r W.ref0) idT (softOf r) else idT
    let iqR := if soft then ramped (if fresh then iq else recI r W.ref1) iqT (softOf r) else iqT
    let ed := sat32 (idR - id)
    let eq := sat32 (iqR - iq)
    let w := sat32 (we * twoPi160 / 2 ^ 160)
    let lv := linkVolts e r1 76
    let vdc := lv.1
    let vmax := mulT ((bytesAt r 92 2 : Nat) * vdc / 1024) invRoot3
    let vdU := sat32 (sat32 (mulQ 16 (recI r 40) ed + recI r W.int0) - sat32 (mulQ 24 w (sat32 (mulQ 16 (recI r 60) iq))))
    let flux := sat32 (mulQ 16 (recI r 56) id + recI r 64)
    let vqU := sat32 (sat32 (mulQ 16 (recI r 48) eq + recI r W.int1) + sat32 (mulQ 24 w flux))
    let vd := clampInt (-vmax) vmax vdU
    let vl : Int := (isqrt (vmax * vmax - vd * vd).toNat : Nat)
    let vq := clampInt (-vl) vl vqU
    let tha := unsignedOf 32 ((th : Int) + turnsIn we (3 * e.carrier - 2 * e.latch))
    let val := sat32 (mulT vd (cosA tha) - mulT vq (sinA tha))
    let vbe := sat32 (mulT vd (sinA tha) + mulT vq (cosA tha))
    let r2 := putI lv.2 W.int0 (integrate (recI r W.int0) (mulQ 16 (recI r 44) ed) vdU vd vmax)
    let r2 := putI r2 W.int1 (integrate (recI r W.int1) (mulQ 16 (recI r 52) eq) vqU vq vmax)
    let r2 := countSat r2 (vdU ≠ vd || vqU ≠ vq)
    let r2 := putI (putI r2 W.ref0 idR) W.ref1 iqR
    let r2 := putU (putU r2 W.fresh 1 0) 224 1 (if idR = idT && iqR = iqT then Law.run else lawState r)
    let r2 := putI (putI (putI (putI r2 236 id) 240 iq) 244 vd) 248 vq
    { r := r2, duties := some (phaseDuties e.period val vbe vdc), posts := forwards e r }

/-! ## The velocity law (R224) -/

/-- One notch: coefficients b0, b1, b2, a1, a2 and the states x1, x2, y1, y2 (R224). -/
def notch (c : Nat → Int) (st : Nat → Int) (x : Int) : Int :=
  sat32 (sat32 (sat32 (sat32 (mulQ 30 (c 0) x + mulQ 30 (c 1) (st 0)) + mulQ 30 (c 2) (st 1)) - mulQ 30 (c 3) (st 2)) -
    mulQ 30 (c 4) (st 3))

/-- The values of one VEL run: d, the inputs and outputs of the notches, and i_ref. -/
structure VelRun where
  d : Int
  u0 : Int
  u1 : Int
  out : Int
  iref : Int
  e : Int
  deriving DecidableEq, Repr

/-- A VEL run of R224: own record, working state before the run in the order of R381, v_r, slot 3, the measured speed,
and T_o in half nanoseconds. -/
def velRun (r before : List Byte) (vr ff v : Int) (to2 : Nat) : VelRun :=
  let w (k : Nat) : Int := recI before (4 * k)
  let e := sat32 (vr - v)
  let jn := recI r 24
  let d :=
    if jn = 0 then 0
    else
      let acc := mulQ 16 jn (sat32 (v - w 3)) * 2000000000 / to2
      let z := sat32 (sat32 (w 2 + ff) - sat32 acc)
      sat32 (w 1 + mulQ 30 (recI r 28) (sat32 (z - w 1)))
  let u0 := sat32 (sat32 (mulQ 16 (recI r 16) e + w 0) - d)
  let n1 := notch (fun i => recI r (32 + 4 * i)) (fun i => w (4 + i)) u0
  let u1 := notch (fun i => recI r (52 + 4 * i)) (fun i => w (8 + i)) n1
  { d := d, u0 := u0, u1 := n1, out := u1, iref := clampInt (-recI r 72) (recI r 72) u1, e := e }

/-- i_ref of a VEL run (R224, R385). -/
def velRef (r before : List Byte) (vt ff v : Int) (to2 : Nat) : Int := (velRun r before vt ff v to2).iref

/-- A run of VEL in SOFT or RUN (R224). -/
def velStep (e : LawEnv) (r : List Byte) : LawRes :=
  let v := e.opI 1
  let x := if (bytesAt r 2 1).testBit 2 then e.opI 4 else e.vff
  let soft := lawState r = Law.soft
  let vr := if soft then ramped (if bytesAt r W.fresh 1 = 1 then v else recI r W.velRef) x (softOf r) else x
  let before := (r.drop W.vel).take 48
  let w (k : Nat) : Int := recI before (4 * k)
  let y := velRun r before vr (e.opI 3) v e.to2
  let iv := integrate (w 0) (mulQ 16 (recI r 20) y.e) y.out y.iref (recI r 72)
  let state := [iv, y.d, y.iref, v, y.u0, w 4, y.u1, w 6, y.u1, w 8, y.out, w 10]
  let r' := overlay r W.vel (state.flatMap fun k => toBytes 4 (unsignedOf 32 k))
  let r' := putU (putU (putI r' W.velRef vr) W.fresh 1 0) 224 1 (if vr = x then Law.run else lawState r)
  let r' := countSat (putI (putI (putI r' 236 y.iref) 240 y.d) 244 v) (y.out ≠ y.iref)
  { r := r', posts := [(5, BitVec.ofInt 32 y.iref)], guarded := true }

/-! ## The position law (R226) -/

/-- A difference of positions wrapped into -128 to 128 rev, Q8.24 (R226). -/
def wrapRev (a : Int) : Int := signedOf 32 (unsignedOf 32 a)

/-- A run of POS in SOFT or RUN (R226). -/
def posRun (e : LawEnv) (r : List Byte) : LawRes :=
  let q := e.opI 0
  let x := wrapRev (e.pos / 2 ^ 8)
  let soft := lawState r = Law.soft
  let from' := if bytesAt r W.fresh 1 = 1 then q else recI r W.ref0
  let step := clampInt (-(softOf r)) (softOf r) (wrapRev (x - from'))
  let qr := if soft then wrapRev (from' + step) else x
  let err := wrapRev (qr - q)
  let vU := sat32 (sat32 (sat32 (mulQ 16 (recI r 20) e.vff) + sat32 (mulQ 24 (recI r 16) err)) + recI r W.int0)
  let vref := clampInt (-recI r 28) (recI r 28) vU
  let r' := putU (putU (putI r W.ref0 qr) W.fresh 1 0) 224 1 (if qr = x then Law.run else lawState r)
  let r' := putI r' 236 err
  if err.natAbs > recI r 24 then { r := r', fault := some 4 }
  else
    let r' := putI r' W.int0 (integrate (recI r W.int0) (mulQ 24 (recI r 32) err) vU vref (recI r 28))
    let r' := countSat (putI r' 240 vref) (vU ≠ vref)
    { r := r', posts := [(0, e.ops.getD 0 0), (1, e.ops.getD 1 0), (2, e.ops.getD 2 0), (3, e.ops.getD 3 0),
                         (4, BitVec.ofInt 32 vref)] }

/-! ## The stepper law (R228) -/

/-- The duty of a coil's first output for a voltage: floor(P / 2 × (1 + v / vdc)) (R228). -/
def coilDuty (period : Nat) (v vdc : Int) : Nat := if vdc ≤ 0 then 0 else (period * (vdc + v) / (2 * vdc)).toNat

/-- A run of STEP in SOFT or RUN (R228). In quiet drive it does nothing; the first strong run starts its integrators
from the shadows that the generator left, and its ramp from the measured currents. -/
def stepRun (e : LawEnv) (r : List Byte) : LawRes :=
  if !e.strong then { r := putU (putU r 224 1 Law.run) W.strong 1 0 }
  else if !(usable (e.op 0) && usable (e.op 1)) then { r := r, skip := true }
  else
    let lv := linkVolts e r 36
    let vdc := lv.1
    let ia := amps r (e.op 0) 24 16
    let ib := amps r (e.op 1) 26 20
    let first := bytesAt r W.strong 1 = 0
    let start (x : Nat) : Int :=
      if e.period = 0 then 0
      else sat32 (((e.duty.getD x 0 : Nat) - (e.duty.getD (x + 1) 0 : Nat)) * vdc / e.period)
    let iA0 := if first then start 0 else recI r W.int0
    let iB0 := if first then start 2 else recI r W.int1
    let st := if first then Law.soft else lawState r
    let fresh := first || bytesAt r W.fresh 1 = 1
    let xA := mulT e.irun (sinTurn (e.stp % 1024) 1024)
    let xB := mulT e.irun (cosTurn (e.stp % 1024) 1024)
    let rA := if st = Law.soft then ramped (if fresh then ia else recI r W.ref0) xA (softOf r) else xA
    let rB := if st = Law.soft then ramped (if fresh then ib else recI r W.ref1) xB (softOf r) else xB
    let eA := sat32 (rA - ia)
    let eB := sat32 (rB - ib)
    let uA := sat32 (mulQ 16 (recI r 28) eA + iA0)
    let uB := sat32 (mulQ 16 (recI r 28) eB + iB0)
    let vA := clampInt (-vdc) vdc uA
    let vB := clampInt (-vdc) vdc uB
    let r' := putI lv.2 W.int0 (integrate iA0 (mulQ 16 (recI r 32) eA) uA vA vdc)
    let r' := putI r' W.int1 (integrate iB0 (mulQ 16 (recI r 32) eB) uB vB vdc)
    let r' := countSat (putI (putI r' W.ref0 rA) W.ref1 rB) (uA ≠ vA || uB ≠ vB)
    let r' := putU (putU r' W.strong 1 1) W.fresh 1 0
    let r' := putU r' 224 1 (if rA = xA && rB = xB then Law.run else st)
    let r' := putI (putI r' 236 ia) 240 ib
    let dA := coilDuty e.period vA vdc
    let dB := coilDuty e.period vB vdc
    { r := r', duties := some [(dA, 0), (e.period - dA, 0), (dB, 0), (e.period - dB, 0)] }

/-! ## Control tokens (R230 to R232) -/

/-- The record with its working area zeroed. -/
def zeroWork (r : List Byte) : List Byte := overlay r 160 (List.replicate 64 0)

/-- START: the record is checked; a good one is zeroed and its law enters OFFSET or SOFT (R230, R232). -/
def lawStart (ok : Bool) (kind : Nat) (r : List Byte) : List Byte × Option Nat :=
  let r := putU (putU (putU (putU r 226 2 0) 228 4 0) 232 4 0) 252 4 0
  if !ok then (r, some 1)
  else
    let r := zeroWork r
    if kind = 1 && (bytesAt r 2 1).testBit 1 then (putU r 224 1 Law.offset, none) else (restartRamp r, none)

/-- A control token acts on a law before anything else in its run. FAULT persists until START (R220, R230, R231). -/
def lawControl (ok : Bool) (kind code : Nat) (r : List Byte) : List Byte × Option Nat :=
  if code = 1 then lawStart ok kind r
  else if lawState r = Law.fault then (if code = 3 then putU r 252 4 0 else r, none)
  else if code = 2 then (if kind = 2 || kind = 3 then restartRamp r else r, none)
  else if code = 3 then
    let r := putU r 252 4 0
    (restartRamp (if kind = 1 || kind = 4 then putI (putI r W.int0 0) W.int1 0 else r), none)
  else if code = 4 then (putU r 224 1 Law.idle, none)
  else (r, none)

/-! ## A run -/

/-- The run of a library law after its control token; `stop`: the token was STOP (R211, R220, R230, R232). -/
def lawBody (e : LawEnv) (kind : Nat) (stop : Bool) (r : List Byte) : LawRes :=
  let st := lawState r
  if st = Law.idle then { r := r, duties := if stop then lawZeros e kind else none }
  else if st = Law.fault then { r := r, duties := lawZeros e kind }
  else if e.every && (kind = 1 || kind = 4) then { r := r, fault := some 2 }
  else if kind = 1 then if st = Law.offset then curOffset e r else curRun e r
  else if kind = 2 then velStep e r
  else if kind = 3 then posRun e r
  else stepRun e r

/-- What a law with record r reads beside it. -/
def State.lawEnv (s : State) (r : List Byte) (ops : List Word) : LawEnv :=
  let slice := bytesAt r 1 1 % 64
  let carrier := s.carrierCountsOf (slice / 8)
  let at' := if bytesAt r 0 1 = 1 then bytesAt r 76 4 else bytesAt r 36 4
  let setp : Nat := match s.sliceGroup slice with
    | some g => 0x7F0000 + (g * 16 + (s.groupSlices g).idxOf slice) * 0x20
    | none => 0x7F0000
  let outdiv : Nat := match (List.range 256).find? fun k =>
      k ≥ 1 && s.lawByte k 0 == 1 && (s.lawByte k 2).testBit 0 && s.lawByte k 1 % 64 == slice with
    | some k => s.lawByte k 3
    | none => 1
  { ops := ops, carrier := carrier, period := s.periodOf slice
    latch := s.fld (F.FB_LATCH_delay slice), shift := s.fld (F.FB_CFG_spd_shift slice)
    every := s.flag (F.S_CFG_xfer slice), link := s.reg (0x140000 + at')
    pos := signedOf 64 (memNat s.sram setp 8), vff := signedOf 32 (memNat s.sram (setp + 8) 4)
    to2 := Nat.max 1 (Nat.max 1 outdiv * carrier * 5)
    strong := s.flag (F.STP_STAT_strong slice), stp := s.fld (F.STP_POS_pos slice)
    irun := (s.reg (A.STP_IRUN slice)).toInt
    duty := (List.range 4).map fun x => s.fld (F.S_DUTY_count slice x), owned := (s.sliceGroup slice).isSome }

/-- The duties of a run reach the slice's shadows, and its COMMIT under the check of R217; whether it was refused. -/
def State.lawCommit (s : State) (slice : Nat) (ds : Option (List (Nat × Nat))) : State × Bool :=
  match ds with
  | none => (s, false)
  | some ds =>
    let s := s.each (List.range ds.length) fun s x =>
      let d := ds.getD x (0, 0)
      s.shadowWrite slice true (A.S_DUTY slice x) (BitVec.ofNat 32 (d.1 + d.2 * 2 ^ 16))
    let c := s.commitChecked slice
    (c.1, !c.2)

/-- A law's record enters FAULT in the status area: the law library asks the safety supervisor to stop the group,
which then goes to OUT; the stop is supervised as a protective one (R73, R212, R220, R324). -/
def State.lawFaultSeen (s : State) (n : Nat) : State :=
  let s := s.tally .lawFault (.stall n) (s.lawByte n 225)
  match s.sliceGroup (s.lawByte n 1 % 64) with
  | some g => if s.groupState g = 0 then s else s.protectiveStop g Cause.request 0
  | none => s

/-- A skip is counted, and enough of them in a row make a fault, unless the law is in FAULT already; a run that is
none, as every run in IDLE, ends the row (R219, R230). -/
def lawSkips (skip : Bool) (r : List Byte) : List Byte × Option Nat :=
  if !skip || lawState r = Law.idle then (putU r 226 2 0, none)
  else
    let k := satCount 16 (bytesAt r 226 2 + 1)
    (putU (putU r 226 2 k) 228 4 (satCount 32 (bytesAt r 228 4 + 1)),
      if k ≥ bytesAt r 5 1 && lawState r ≠ Law.fault then some 3 else none)

/-- out2 and out3 are 0 where the kind shows nothing there (R212). -/
def lawOuts (kind : Nat) (r : List Byte) : List Byte :=
  let r := if kind = 1 then r else putU r 248 4 0
  if kind = 1 || kind = 2 then r else putU r 244 4 0

/-- The record after a run: runs counted, a fault entered (R212, R220). -/
def lawClose (fault : Option Nat) (r : List Byte) : List Byte :=
  let r := putU r 252 4 (bytesAt r 252 4 + 1)
  match fault with
  | some c => putU (putU r 224 1 Law.fault) 225 1 c
  | none => r

/-- The tokens of a run go to the next stall (R216, R218, R226). -/
def State.lawPosts (s : State) (n next : Nat) (stamp : Option Nat) (ps : List (Nat × Word)) : State :=
  s.each ps fun s p => s.send next p.1 p.2 Src.post stamp false n

/-! ## Shared SRAM -/

/-- A word of shared SRAM written by any writer: a failing word is whole again, and the faults it opened are resolved
(R23, R466). A read being repeated finds the memory as it stood before (R439). -/
def State.sramWrite (s : State) (off : Nat) (bs : List Byte) : State :=
  let words := (List.range ((off % 4 + bs.length + 3) / 4)).map fun i => off / 4 * 4 + 4 * i
  let s := s.triesRun
  let s : State := { s with
    sram := memWrite s.sram off bs
    sramBad := s.sramBad.filter fun w => !words.contains w
    sramTold := s.sramTold.filter fun t => !words.contains t.1 }
  if s.faults.isEmpty then s
  else s.resolveFaults fun f => f.region == 0 && f.cause == 1 && words.contains f.object

/-- A store of a core, or of an agreed vote, reaches shared SRAM; one that makes the status area of an enabled law
show FAULT is the library's request of a stop (R212, R220). -/
def State.coreSramWrite (s : State) (off : Nat) (bs : List Byte) : State :=
  let n := (off - 0x7E0000) / 0x100
  let covers := 0x7E0000 ≤ off && off < 0x7F0000 && off % 0x100 ≤ 224 && 224 < off % 0x100 + bs.length
  let old := s.lawByte n 224
  let s := s.sramWrite off bs
  if covers && old != 4 && s.lawByte n 224 == 4 && (s.lawByte n 2).testBit 0 then s.lawFaultSeen n else s

/-! ## The run that an execution's end carries out -/

/-- A run of the library law that the record of stall n names, as its execution ends, with the operands it was given
and the slots then fresh: NONE, a USER law and a record without enable run nothing here. `stamp` is the instant of the
vote of a dual stall (R211, R217 to R220, R230, R239). -/
def State.lawRun (s : State) (n : Nat) (ops : List Word) (fresh : Nat) (stamp : Option Nat) : State :=
  let kind := s.lawByte n 0
  if kind = 0 || kind > 4 || !(s.lawByte n 2).testBit 0 then s
  else
    let r := lawIn (s.lawRec n)
    let slice := bytesAt r 1 1 % 64
    let told := fresh.testBit 7
    let code := (ops.getD 7 0).toNat
    let s := if told && (code = 0 || code > 4) then s.tally .tokenReserved (.stall n) code else s
    let e := s.lawEnv r ops
    let c := if told then lawControl (lawRecordOk r && e.owned) kind code r else (r, none)
    let b : LawRes := match c.2 with
      | some k => { r := c.1, fault := some k }
      | none => lawBody e kind (told && code = 4) c.1
    let refused := b.guarded && !b.posts.isEmpty && s.rem slice < 16
    let g := s.lawCommit slice b.duties
    let k := lawSkips (b.skip || g.2 || refused) (lawOuts kind b.r)
    let fault := b.fault.or k.2
    let next := bytesAt r 4 1
    let s := if fault.isSome then (g.1.lawCommit slice (lawZeros e kind)).1
      else if refused then g.1
      else g.1.lawPosts n next stamp b.posts
    let s := s.sramWrite (0x7E0000 + n * 0x100 + 16) ((lawOut (lawClose fault k.1)).drop 16)
    if fault.isSome then s.lawFaultSeen n else s

end Sys2Proof.Machine
end

