-- ==== Sys2Proof/Machine/Hawker.lean ====
section
/-!
DEFINITION. The hawker: tokens and the matching store, readiness, preemption, dispatch, deadlines, the end of an
execution and votes, self-tests, quarantine and counters (R235 to R260, R281 to R283).
-/

namespace Sys2Proof.Machine

/-! ## Stalls and cores -/

def State.stallOf (s : State) (n : Nat) : Stall := Tab.get (fun _ => {}) s.stall n

def State.setStall (s : State) (n : Nat) (x : Stall) : State := { s with stall := Tab.set (fun _ => {}) s.stall n x }

def State.coreOf (s : State) (c : Nat) : LCore := Tab.get (fun _ => {}) s.core c

def State.setCore (s : State) (c : Nat) (x : LCore) : State := { s with core := Tab.set (fun _ => {}) s.core c x }

/-- States of a stall (R236). -/
def St.off : Nat := 0
def St.waiting : Nat := 1
def St.ready : Nat := 2
def St.running : Nat := 3
def St.idle : Nat := 4
def St.voting : Nat := 5

def State.stallState (s : State) (n : Nat) : Nat := s.fld (F.ST_STATE_state n)

def State.setStallState (s : State) (n st : Nat) : State := s.setFld (F.ST_STATE_state n) st

/-- A register of a core (R262): an unlisted register reads 0 (log 4); cid reads the core's number. -/
def State.coreReg (s : State) (c r : Nat) : Word :=
  if r = 52 then BitVec.ofNat 32 c else Tab.get (fun _ => 0) (s.coreOf c).r r

def LCore.setR (x : LCore) (r : Nat) (w : Word) : LCore := { x with r := Tab.set (fun _ => 0) x.r r w }

def LCore.getR (x : LCore) (r : Nat) : Word := Tab.get (fun _ => 0) x.r r

def LCore.getA (x : LCore) (i : Nat) : BitVec 72 := Tab.get (fun _ => 0) x.a i

def LCore.setA (x : LCore) (i : Nat) (v : BitVec 72) : LCore := { x with a := Tab.set (fun _ => 0) x.a i v }

def tabNat (t : Tab Nat) (k : Nat) : Nat := Tab.get (fun _ => 0) t k

/-- The core is quarantined (R258). -/
def State.quarantined (s : State) (c : Nat) : Bool := s.flag (F.HC_HEALTH_quarantined c)

/-- The core waits in TAKE and is neither quarantined, withdrawn nor halted (R243); one that has been preempted waits
there once its context is saved (R246). -/
def State.coreFree (s : State) (c : Nat) : Bool :=
  let x := s.coreOf c
  x.status == .take && x.takeSince ≤ s.now && !s.quarantined c && !x.withdraw && x.ctx.isNone && !x.haltReq

/-! ## Busy clocks (R260, R479) -/

/-- Core clocks in a stretch of ns, with the spread of the core PLL (R479). -/
def coreClocks (spread ns : Nat) : Nat := ns * 8 * (400 - spread) / 4000

def State.clocksIn (s : State) (ns : Nat) : Nat := coreClocks (s.fld F.PIN_CLK_spread) ns

/-- TAKE does not count as busy; save, restore and self-test do. -/
def LCore.busy (x : LCore) : Bool :=
  match x.status with
  | .take => false
  | .off => false
  | _ => x.ctx.isNone

/-- The busy clocks of a core up to now are added to the present millisecond. -/
def State.accountBusy (s : State) (c : Nat) : State :=
  let x := s.coreOf c
  let add := if x.busy then s.clocksIn (s.now - x.busyFrom) else 0
  s.setCore c { x with busyAcc := x.busyAcc + add, busyFrom := s.now }

/-- At each ridge-time millisecond the busy clocks of the last one are shown (R260). -/
def State.closeBusy (s : State) : State :=
  s.each (List.range 12) fun s c =>
    let s := s.accountBusy c
    let x := s.coreOf c
    let n := Nat.min x.busyAcc (s.clocksIn 1000000)
    let s := (s.setCore c { x with busyAcc := 0 }).setFld (F.HC_BUSY_last c) n
    s.setFld (F.HC_BUSY_MAX_max c) (Nat.max n (s.fld (F.HC_BUSY_MAX_max c)))

/-- A core's status changes. -/
def State.coreStatus (s : State) (c : Nat) (st : CoreStatus) : State :=
  let s := s.accountBusy c
  s.setCore c { s.coreOf c with status := st }

/-! ## Context (R281) -/

/-- The 96 words of a core's context. -/
def LCore.context (x : LCore) : List Word :=
  let regs (lo n : Nat) : List Word := (List.range n).map fun i => x.getR (lo + i)
  let accs : List Word := ((List.range 4).map fun i =>
    let a := x.getA i
    [a.extractLsb' 0 32, a.extractLsb' 32 32, (a.extractLsb' 64 8).signExtend 32]).flatten
  let marks (t : Tab Nat) : List Word := (List.range 3).map fun i => BitVec.ofNat 32 (tabNat t i)
  let pend : List Word := match x.pend with
    | [] => [0, 0, 0]
    | [(r, w)] => [BitVec.ofNat 32 (1 + r * 2 ^ 8), w, 0]
    | (r, w) :: (_, v) :: _ => [BitVec.ofNat 32 (3 + r * 2 ^ 4), w, v]
  regs 0 16 ++ accs ++ regs 16 32 ++ regs 48 3 ++ marks x.lstart ++ marks x.lend ++
    [BitVec.ofNat 32 x.levels, x.getR 51, BitVec.ofNat 32 x.pc] ++ pend ++ List.replicate 21 0

/-- A core that has loaded a context (R282). Whether a level is a REP is not in the context: at an attention point no
REP level is active (R278). -/
def LCore.load (x : LCore) (ws : List Word) : LCore :=
  let w (i : Nat) : Word := ws.getD i 0
  let x := (List.range 16).foldl (fun x i => x.setR i (w i)) x
  let x := (List.range 4).foldl (fun x i =>
    x.setA i ((w (18 + 3 * i)).extractLsb' 0 8 ++ w (17 + 3 * i) ++ w (16 + 3 * i))) x
  let x := (List.range 32).foldl (fun x i => x.setR (16 + i) (w (28 + i))) x
  let x := (List.range 3).foldl (fun x i => x.setR (48 + i) (w (60 + i))) x
  let marks (lo : Nat) : Tab Nat :=
    (List.range 3).foldl (fun t i => Tab.set (fun _ => 0) t i (w (lo + i)).toNat) []
  let p := (w 72).toNat
  let pend : List (Nat × Word) :=
    if !p.testBit 0 then []
    else if p.testBit 1 then [(bitsOf p 4 4, w 73), (bitsOf p 4 4 + 1, w 74)]
    else [(bitsOf p 8 6, w 73)]
  { (x.setR 51 (w 70 &&& 0x37F)) with
    lstart := marks 63, lend := marks 66, levels := (w 69).toNat % 4, lrep := [], pc := (w 71).toNat,
    pend := pend, branch := none, accBy := [], iterEnd := true, runLen := 0 }

/-! ## The matching store (R240) -/

/-- Slots that hold a fresh token. -/
def State.freshBits (s : State) (n : Nat) : Nat := s.fld (F.ST_STATE_fresh n)

def Stall.slot (x : Stall) (k : Nat) : SlotInfo := Tab.get (fun _ => {}) x.slots k

/-- The retained values of a stall's slots (R238). -/
def State.slotData (s : State) (n : Nat) : List Word := (List.range 8).map fun k => s.reg (A.ST_SLOT n k)

/-- Present depth of a level, counting executions (R260). -/
def State.levelDepth (s : State) (p : Nat) : Nat :=
  (s.hwk.queue.filter fun e => s.fld (F.ST_CFG_prio e.stall) == p).length

/-- The largest depth of every level is at least its present one, as after a stall has changed its priority (R260). -/
def State.levelsDeepen (s : State) : State :=
  s.each (List.range 16) fun s p => s.setFld (F.LVL_DEPTH_max p) (Nat.max (s.fld (F.LVL_DEPTH_max p)) (s.levelDepth p))

/-- An execution joins the ready queue; the level's largest depth follows (R243, R260). -/
def State.enqueue (s : State) (e : QExec) : State :=
  let s : State := { s with hwk := { s.hwk with queue := s.hwk.queue ++ [e] } }
  let p := s.fld (F.ST_CFG_prio e.stall)
  s.setFld (F.LVL_DEPTH_max p) (Nat.max (s.fld (F.LVL_DEPTH_max p)) (s.levelDepth p))

/-- Cores that already run or ran an execution of this readiness of the stall (R253, R255). -/
def State.execCores (s : State) (n : Nat) : List Nat := (s.stallOf n).execs.map Exec.core

/-- The core may take this execution once it waits in TAKE (R243, R253, R255). -/
def State.mayRun (s : State) (e : QExec) (c : Nat) : Bool :=
  s.bitFld (F.ST_CORES_cores e.stall) c && !(s.execCores e.stall).contains c

/-- A preempt attention is sent to a victim for an execution that finds no free core (R246). -/
def State.preemptFor (s : State) (e : QExec) : State :=
  let p := s.fld (F.ST_CFG_prio e.stall)
  if !s.flag F.HWK_CFG_preempt_en || p > s.fld F.HWK_CFG_preempt || e.asked ||
      (List.range 12).any fun c => s.coreFree c && s.mayRun e c then s
  else
    let victim (best : Option Nat) (c : Nat) : Option Nat :=
      let x := s.coreOf c
      let q := s.fld (F.ST_CFG_prio x.stall)
      let running := match x.status with
        | .running => true
        | .stalled _ => true
        | _ => false
      if x.stall ≠ 0 && running && q > p && s.mayRun e c && !s.quarantined c && !x.withdraw && !x.preempt &&
          x.ctx.isNone && !(s.stallOf x.stall).dual then
        match best with
        | none => some c
        | some b =>
          let y := s.coreOf b
          let r := s.fld (F.ST_CFG_prio y.stall)
          if q > r || (q = r && x.dispatched > y.dispatched) then some c else best
      else best
    match (List.range 12).foldl victim none with
    | none => s
    | some c =>
      let s := s.setCore c { s.coreOf c with preempt := true }
      { s with hwk := { s.hwk with queue := s.hwk.queue.map fun q => if q = e then { q with asked := true } else q } }

/-- The deadline instant of a readiness that begins now, in ns (R249). -/
def State.deadlineFrom (s : State) (n : Nat) : Option Nat :=
  match s.fld (F.ST_DEADLINE_kind n) with
  | 1 => some (s.now + s.fld (F.ST_DEADLINE_rel n) * 10)
  | 2 => some (s.nextCarrier (s.fld (F.ST_DEADLINE_slice n)) / nsUnit)
  | _ => none

/-- A WAITING stall becomes READY: one execution, or two for a dual stall (R242, R253). -/
def State.makeReady (s : State) (n : Nat) : State :=
  let s := s.setStallState n St.ready
  let s := s.setStall n { s.stallOf n with
    ready := s.now, deadline := s.deadlineFrom n, missCounted := false, wasOff := false, execs := [], waited := false,
    third := false, saved := none, dual := s.flag (F.ST_CFG_dual n) }
  let e : QExec := { stall := n, exec := 0, ready := s.now }
  if s.flag (F.ST_CFG_dual n) then
    ((s.enqueue e).enqueue { e with exec := 1 }).preemptFor e |>.preemptFor { e with exec := 1 }
  else (s.enqueue e).preemptFor e

/-- A WAITING stall whose fresh bits cover its mask becomes READY (R242). -/
def State.wakeIfCovered (s : State) (n : Nat) : State :=
  let mask := s.fld (F.ST_CFG_mask n)
  if s.stallState n = St.waiting && (s.freshBits n &&& mask) = mask then s.makeReady n else s

/-- A token is accepted by the matching store (R239, R240). -/
def State.acceptToken (s : State) (t : Tok) : State :=
  let n := t.stall
  if n = 0 then s.finishDone? t.cmd
  else if !s.flag (F.ST_CFG_enable n) then (s.countFld (F.ST_CNT2_dropped n)).finishDone? t.cmd
  else
    let x := s.stallOf n
    let beyond := (s.freshBits n).testBit t.slot
    let info : SlotInfo := { source := t.source, port := t.port, sender := t.sender, stamp := t.stamp.getD s.now, late := t.late,
                             overrun := beyond || (x.slot t.slot).overrun }
    let s := s.setStall n { x with slots := Tab.set (fun _ => {}) x.slots t.slot info }
    let s := (s.setReg (A.ST_SLOT n t.slot) t.data).setBitFld (F.ST_STATE_fresh n) t.slot true
    let s := if beyond then (s.countFld (F.ST_CNT1_overruns n)).raise (F.ST_STATE_overrun n) else s
    (s.finishDone? t.cmd).wakeIfCovered n

/-- TOKEN: the next token of the input queue is accepted, not before it was sent (R240, R241, R361). -/
def State.tokenNext (s : State) : State :=
  match s.hwk.tokens with
  | [] => s
  | t :: _ => ((if s.clk.time < t.sent then s.advanceTo t.sent else s).tokenOut).acceptToken t

/-! ## Dispatch (R238, R243, R244, R247) -/

/-- The area of program memory that holds an address: 0 to 7 of a group, 8 the cell area, 9 the vendor area (R452). -/
def areaOf (a : Nat) : Nat := if a < 0x4000 then 9 else if a < 0xC000 then (a - 0x4000) / 0x1000 else 8

/-- The area that an IMAGE_LOAD writes (R452, R455). -/
def Image.progArea (i : Image) : Nat := if i.kind = 2 then 9 else i.area

/-- The hawker holds a stall while its area is loaded; it holds every stall while the vendor area is (R454, R455). -/
def State.stallHeld (s : State) (n : Nat) : Bool :=
  match s.sec.job with
  | some j => !j.loaded && (j.image.kind == 2 || s.fld (F.ST_CFG_owner n) == j.image.area && j.image.area < 8 ||
      areaOf (s.fld (F.ST_ENTRY_entry n)) == j.image.progArea)
  | none => false

/-- An address lies in an area that has been written and whose comparison has not ended (R454). -/
def State.areaBusy (s : State) (a : Nat) : Bool :=
  match s.sec.job with
  | some j => j.written && !j.loaded && areaOf a == j.image.progArea
  | none => false

/-- A byte of program memory (R452). -/
def State.progByte (s : State) (a : Nat) : Byte :=
  let k := areaOf a
  let base := if k = 9 then 0 else if k = 8 then 0xC000 else 0x4000 + k * 0x1000
  (Tab.get (fun _ => []) s.prog k).getD (a - base) 0

/-- How many cores of a stall's mask are not quarantined. -/
def State.coresLeft (s : State) (n : Nat) : Nat :=
  ((List.range 12).filter fun c => s.bitFld (F.ST_CORES_cores n) c && !s.quarantined c).length

/-- Enough cores can run the readiness: one, or two of a dual stall (R243, R256). -/
def State.runnable (s : State) (n : Nat) : Bool := s.coresLeft n ≥ if (s.stallOf n).dual then 2 else 1

/-- In DEGRADED only safe stalls and stalls whose owner group is not yet OUT are dispatched (R247); none is while its
area is loaded (R454), and no dual stall with too few cores (R256). -/
def State.dispatchable (s : State) (n : Nat) : Bool :=
  let owner := s.fld (F.ST_CFG_owner n)
  !s.stallHeld n && s.runnable n &&
    (s.cellMode != 7 || s.flag (F.ST_CFG_safe n) || (owner < 8 && s.groupState owner != 0))

/-- Order of the ready queue (R243, R255). -/
def State.before (s : State) (a b : QExec) : Bool :=
  let p := s.fld (F.ST_CFG_prio a.stall)
  let q := s.fld (F.ST_CFG_prio b.stall)
  if p ≠ q then p < q
  else if a.head ≠ b.head then a.head
  else if a.ready ≠ b.ready then a.ready < b.ready
  else if a.stall ≠ b.stall then a.stall < b.stall
  else a.exec < b.exec

/-- The core that takes an execution: the one that has waited longest in TAKE, then the lowest number (R243). -/
def State.chooseCore (s : State) (e : QExec) : Option Nat :=
  let better (best : Option Nat) (c : Nat) : Option Nat :=
    if s.coreFree c && s.mayRun e c then
      match best with
      | none => some c
      | some b => if (s.coreOf c).takeSince < (s.coreOf b).takeSince then some c else best
    else best
  (List.range 12).foldl better none

/-- The next dispatch of R243: the first execution in order that has an eligible core. -/
def State.nextDispatch (s : State) : Option (QExec × Nat) :=
  let better (best : Option (QExec × Nat)) (e : QExec) : Option (QExec × Nat) :=
    if !s.dispatchable e.stall then best
    else
      match s.chooseCore e with
      | none => best
      | some c =>
        match best with
        | none => some (e, c)
        | some (b, _) => if s.before e b then some (e, c) else best
  s.hwk.queue.foldl better none

/-- Stalls in the ready queue that no core can run any more are reported as open faults (R243, R256). -/
def State.reportUnrunnable (s : State) : State :=
  s.each s.hwk.queue fun s e =>
    if s.runnable e.stall then s else s.openStallFault 2 e.stall 0

/-- The dispatch block of R238. -/
def dispatchBlock (stall prio exec fresh ready deadline : Nat) (data : List Word) (info : List SlotInfo) : List Byte :=
  toBytes 1 stall ++ toBytes 1 prio ++ toBytes 1 exec ++ toBytes 1 fresh ++ toBytes 8 ready ++ toBytes 8 deadline ++
    toBytes 12 0 ++
    ((List.range 8).map fun k =>
      let i := info.getD k {}
      let flags := (if fresh.testBit k then 1 else 0) + (if i.late then 2 else 0) + (if i.overrun then 4 else 0)
      toBytes 4 (data.getD k 0).toNat ++ toBytes 1 i.source ++ toBytes 1 flags ++ toBytes 1 i.sender ++ toBytes 1 0 ++
        toBytes 8 i.stamp).flatten

/-- Local data memory of a core (R264). -/
def localKey (c a : Nat) : Nat := c * 2 ^ 16 + a

/-- Bytes written to a core's local data memory: a failing word that is written is whole again. -/
def State.localWrite (s : State) (c off : Nat) (bs : List Byte) : State :=
  let k := localKey c off
  let stays (w : Nat) : Bool := w + 4 ≤ k / 4 * 4 || k + bs.length ≤ w
  { s with
    localMem := memWrite s.localMem k bs
    localBad := s.localBad.filter stays
    localSoft := s.localSoft.filter stays }

/-- The operands of a readiness are taken at its first dispatch: fresh bits and overrun flags are cleared (R244,
R253). -/
def State.takeOperands (s : State) (n : Nat) : State :=
  let x := s.stallOf n
  if x.waited then s
  else
    let wait := satCount 32 (s.now - x.ready)
    let s := (s.setFld (F.ST_WAIT_LAST_ns n) wait).setFld (F.ST_WAIT_MAX_ns n)
      (Nat.max wait (s.fld (F.ST_WAIT_MAX_ns n)))
    let s := s.setStall n { x with
      waited := true, snapData := s.slotData n, snapInfo := (List.range 8).map x.slot, snapFresh := s.freshBits n,
      slots := x.slots.map fun e => (e.1, { e.2 with overrun := false }) }
    s.setFld (F.ST_STATE_fresh n) 0

/-- The enabled law of a kind that serves a slice (R211, R212). -/
def State.lawOf (s : State) (kind slice : Nat) : Option Nat :=
  (List.range 256).find? fun n =>
    n ≥ 1 && s.lawByte n 0 == kind && (s.lawByte n 2).testBit 0 && s.lawByte n 1 % 64 == slice

/-- The `n` first bytes of a string, filled with 0. -/
def padTo (n : Nat) (bs : List Byte) : List Byte := (bs ++ List.replicate n 0).take n

/-- The ACTIVE device captures the state before a VEL law's first run whose feedback latch lies at or after the
snapshot instant (R382). The latch of a run is taken as the last one of the slice's port before slot 0 arrived
(DEDUCED, log 31). -/
def State.captureSnap (s : State) (n : Nat) : State :=
  let slice := s.lawByte n 1 % 64
  let x := s.stallOf n
  let latch := s.pair (A.FB_STAMP slice)
  if s.fld F.TWN_STAT_role ≠ 3 || s.lawByte n 0 ≠ 2 || !(s.lawByte n 2).testBit 0 ||
      (Tab.get (fun _ => none) s.twin.snap slice).isSome || latch < s.twin.snapAt ||
      (x.snapInfo.getD 0 {}).stamp < latch then s
  else
    let r := s.lawRec n
    let target : List Byte :=
      if (s.lawByte n 2).testBit 2 then toBytes 4 (x.snapData.getD 4 0).toNat
      else
        match s.sliceGroup slice with
        | some g => memBytes s.sram (0x7F0000 + (g * 16 + (s.groupSlices g).idxOf slice) * 0x20 + 8) 4
        | none => toBytes 4 0
    let ip : List Byte := match s.lawOf 3 slice with
      | some k => padTo 4 (posState (s.lawRec k))
      | none => toBytes 4 0
    let y : Snap := { stall := n, head := target ++ toBytes 4 (x.snapData.getD 3 0).toNat ++ ip,
                      before := padTo 48 (velState r) }
    { s with twin := { s.twin with snap := Tab.set (fun _ => none) s.twin.snap slice (some y) } }

/-- The snapshot run of a stall has ended: its out0 is known (R381, R382). -/
def State.endSnap (s : State) (n : Nat) : State :=
  let slice := s.lawByte n 1 % 64
  match Tab.get (fun _ => none) s.twin.snap slice with
  | none => s
  | some y =>
    if y.stall ≠ n || y.out0.isSome then s
    else
      let y := { y with out0 := some (memNat s.sram (0x7E0000 + n * 0x100 + 236) 4) }
      { s with twin := { s.twin with snap := Tab.set (fun _ => none) s.twin.snap slice (some y) } }

/-- A dispatch (R244). A restored execution continues from its saved context (R282). -/
def State.dispatchTo (s : State) (e : QExec) (c : Nat) : State :=
  let n := e.stall
  let s : State := { s with hwk := { s.hwk with queue := s.hwk.queue.erase e, dispatches := s.hwk.dispatches + 1 } }
  let s := if e.restore then s else (s.takeOperands n).captureSnap n
  let x := s.stallOf n
  let s := s.accountBusy c
  let y := { s.coreOf c with
    stall := n, exec := e.exec, status := .running, dispatched := s.hwk.dispatches, stallFrom := s.now, preempt := false }
  let s :=
    if e.restore then s.setCore c (y.load (x.saved.getD []))
    else
      let y := { y with pc := s.fld (F.ST_ENTRY_entry n), levels := 0, lrep := [], pend := [], branch := none,
                        accBy := [], iterEnd := true, runLen := 0 }
      let y := (List.range 8).foldl (fun y k => y.setR (8 + k) (x.snapData.getD k 0)) y
      let s := s.setCore c y
      let block := dispatchBlock n (s.fld (F.ST_CFG_prio n)) e.exec x.snapFresh x.ready (x.deadline.getD 0) x.snapData
        x.snapInfo
      s.localWrite c 0xFF60 block
  let s := s.setStall n { s.stallOf n with saved := none }
  let s := if (s.stallOf n).dual then
      s.setStall n { s.stallOf n with execs := (s.stallOf n).execs ++ [{ exec := e.exec, core := c }] }
    else s
  let s := s.setStallState n St.running
  if e.exec = 0 then s.setFld (F.ST_STATE_core n) c else s

/-- DISPATCH: one dispatch (R243); an execution that no core can ever run is reported (R22, R243). -/
def State.dispatch (s : State) : State :=
  let s := s.reportUnrunnable
  match s.nextDispatch with
  | none => s
  | some (e, c) => s.dispatchTo e c

/-! ## Reads of shared SRAM -/

/-- A failing word of shared SRAM is found by a read or by the scrubber: FAULT ECC at its first detection (R466). The
pair (word, 256) marks a word that is recorded. -/
def State.sramDetect (s : State) (off : Nat) : State :=
  if s.sramTold.contains (off, 256) then s
  else
    ({ s with sramTold := (off, 256) :: s.sramTold, sec := { s.sec with memErr := true } } : State).tally .ecc
      (.region 0) 1 0 off

/-- A word of shared SRAM read for a running stall: each read of an uncorrectable word is counted, and the stall's
first read of it opens a fault (R466). -/
def State.sramReadBy (s : State) (off stall : Nat) : State :=
  if s.sramBad.contains off then
    let s := (s.sramDetect off).countFld F.MEM_SECC_uncorr
    if s.sramTold.contains (off, stall) then s
    else ({ s with sramTold := (off, stall) :: s.sramTold } : State).openStallFault 1 off stall
  else s

/-! ## The end of a readiness (R237, R245, R254 to R256) -/

/-- A stall enters WAITING with every slot empty (R237). -/
def State.waitEmpty (s : State) (n : Nat) : State :=
  let s := s.setStall n { s.stallOf n with slots := [] }
  let s := (s.each (List.range 8) fun s k => s.setReg (A.ST_SLOT n k) 0).setFld (F.ST_STATE_fresh n) 0
  (s.setStallState n St.waiting).wakeIfCovered n

/-- The LAW_PARAM writes that wait for a stall are applied, between two runs (R213). -/
def State.lawApply (s : State) (n : Nat) : State :=
  let mine := s.hwk.lawWait.filter fun w => w.1 == n
  if mine.isEmpty then s
  else
    let s : State := { s with hwk := { s.hwk with lawWait := s.hwk.lawWait.filter fun w => w.1 != n } }
    s.each mine fun s w => (s.sramWrite (0x7E0000 + n * 0x100 + w.2.1) w.2.2.1).finishDone? w.2.2.2

/-- The state a stall takes when its readiness ends (R237, R245). -/
def State.readinessEnds (s : State) (n : Nat) (rearm : Bool) : State :=
  let s := (s.endSnap n).lawApply n
  let x := s.stallOf n
  let s := (s.setStall n { x with execs := [], deadline := none, saved := none, dual := false }).setFld (F.ST_STATE_core n) 15
  if !s.flag (F.ST_CFG_enable n) then s.setStallState n St.off
  else if x.wasOff then s.waitEmpty n
  else if rearm then (s.setStallState n St.waiting).wakeIfCovered n
  else s.setStallState n St.idle

/-- A held output of stall n is applied as the vote ends, `at` ns (R239, R254, R287, R288). -/
def State.applyHeld (s : State) (n ended : Nat) : Held → State
  | .store a ws => s.coreSramWrite a (ws.map fun w => toBytes 4 w.toNat).flatten
  | .post st slot d => s.send st slot d Src.post (some ended) false n
  | .dli m dir st slot d key => if s.dlFull m then s.dlRefuse m st slot else s.dlInsertEntry m dir st slot d key none
  | .dlc m st slot => s.dlCancelEntries m st slot

def Held.isStore : Held → Bool
  | .store .. => true
  | _ => false

/-- The stores of an output list, then its POSTs, in order (R254). -/
def State.applyList (s : State) (n ended : Nat) (hs : List Held) : State :=
  (s.each (hs.filter Held.isStore) fun s h => s.applyHeld n ended h).each (hs.filter fun h => !h.isStore) fun s h =>
    s.applyHeld n ended h

/-- Two output lists agree (R254). -/
def Exec.agrees (a b : Exec) : Bool := !a.differs && !b.differs && a.held == b.held

/-- The cores of a vote, one per byte (R436). -/
def coreBytes (es : List Exec) : Nat := ofBytes (es.map fun e => BitVec.ofNat 8 e.core)

/-- A core is quarantined: cause 0 self-test, 1 vote (R255, R257, R258). -/
def State.quarantine (s : State) (c cause : Nat) : State :=
  let s : State := { s with sec := { s.sec with coreErr := true } }
  let s := (s.setFlag (F.HC_HEALTH_quarantined c) true).setFld (F.HC_HEALTH_cause c) cause
  let s := (s.countFld (F.HC_HEALTH_qcount c)).countFld F.HWK_STAT_quarantines
  s.containedFault 0 5 c

/-- The run of a stall's library law, on the operands of its readiness, or of the feedforward task it holds (R116,
R215). -/
def State.runLaw (s : State) (n : Nat) (stamp : Option Nat) : State :=
  (s.lawRun n (s.stallOf n).snapData (s.stallOf n).snapFresh stamp).ffEnded n

/-- An agreeing vote: the lists' outputs are applied, an open vote fault of the stall is resolved, and the stall
re-arms by the lowest-numbered execution whose list is applied (R23, R254). -/
def State.voteAgrees (s : State) (n ended : Nat) (e : Exec) : State :=
  let s := ((s.runLaw n (some ended)).applyList n ended e.held).countFld (F.ST_RUNS_runs n)
  let s := s.resolveFaults fun f => f.region == 0 && f.cause == 3 && f.object == n
  s.readinessEnds n e.rearm

/-- A failed vote: nothing applied, IDLE with vfail, an open fault that names the stall (R256). -/
def State.voteFails (s : State) (n : Nat) (es : List Exec) : State :=
  let s := (s.raise (F.ST_STATE_vfail n)).tally .voteFail (.stall n) (coreBytes es)
  let s := (s.countFld (F.ST_RUNS_runs n)).readinessEnds n false
  s.openStallFault 3 n 0

/-- The third execution is placed at the head of the stall's level (R255); until it is dispatched the stall is in the
ready queue (R236). -/
def State.thirdExec (s : State) (n : Nat) : State :=
  let s := ((s.setStallState n St.ready).countFld (F.ST_CNT2_votes n)).setStall n { s.stallOf n with third := true }
  let e : QExec := { stall := n, exec := 2, ready := (s.stallOf n).ready, head := true }
  (s.enqueue e).preemptFor e

/-- The comparison takes 8 core clocks (R254). -/
def voteSpan : Moment := 10 * nsUnit

/-- Once the executions asked for have ended, the stall is VOTING and their comparison begins (R236, R254). -/
def State.vote (s : State) (n : Nat) : State :=
  let x := s.stallOf n
  let ended (k : Nat) : Bool := x.execs.any fun e => e.exec == k && e.done
  if ended 0 && ended 1 && (!x.third || ended 2) then
    let s := s.setStallState n St.voting
    { s with hwk := { s.hwk with votes := s.hwk.votes ++ [(n, s.clk.time + voteSpan)] } }
  else s

/-- A comparison ends, at `ended` ns (R254 to R256). -/
def State.voteEnds (s : State) (n ended : Nat) : State :=
  let x := s.stallOf n
  let exec (k : Nat) : Option Exec := x.execs.find? fun e => e.exec == k
  match exec 0, exec 1, exec 2 with
  | some a, some b, none =>
    if a.agrees b then s.voteAgrees n ended a
    else if s.coresLeft n < 3 then s.voteFails n [a, b]
    else s.thirdExec n
  | some a, some b, some c =>
    let odd (e : Exec) (s : State) : State :=
      (s.quarantine e.core 1).tally .quarantine (.stall n) (coreBytes [a, b, c])
    if c.agrees a then (odd b s).voteAgrees n ended a
    else if c.agrees b then (odd a s).voteAgrees n ended b
    else s.voteFails n [a, b, c]
  | _, _, _ => s

/-- An open fault of a stall that no core could run is resolved once enough cores can (R23, cause 2). -/
def State.resolveRunnable (s : State) : State :=
  s.resolveFaults fun f => f.region == 0 && f.cause == 2 && s.runnable f.object

/-- The comparisons that end by a moment, in the order in which they began; what the hawker does next finds them ended
(R254, log 79). -/
def State.votesBy (s : State) (t : Moment) : State :=
  let ended := s.hwk.votes.filter fun v => v.2 ≤ t
  let s : State := { s with hwk := { s.hwk with votes := s.hwk.votes.filter fun v => t < v.2 } }
  s.each ended fun s v => (s.advanceTo v.2).voteEnds v.1 (v.2 / nsUnit)

/-- The comparisons that have ended by now: what a register access, a core or an engine finds, it finds after them
(R254, log 79). -/
def State.settleBy (s : State) (t : Moment) : State := if s.hwk.votes.any fun v => v.2 ≤ t then s.votesBy t else s

def State.votesNow (s : State) : State := s.settleBy s.clk.time

/-- The core goes on at its idle address with no stall; every loop level is free (R245, R277). -/
def State.coreIdle (s : State) (c : Nat) : State :=
  let s := s.accountBusy c
  s.setCore c { s.coreOf c with
    stall := 0, exec := 0, status := .running, pc := s.fld (F.HC_IDLE_addr c), levels := 0, lrep := [], pend := [],
    branch := none, accBy := [], iterEnd := true, runLen := 0, preempt := false }

/-- The execution on a core has ended, by DONE or by a core fault in a dual execution (R254, R293). -/
def State.execEnds (s : State) (c : Nat) (rearm differs : Bool) : State :=
  let y := s.coreOf c
  let n := y.stall
  let s := s.coreIdle c
  let s := if y.exec = 0 then s.setFld (F.ST_STATE_core n) 15 else s
  if (s.stallOf n).dual then
    let mark (e : Exec) : Exec :=
      if e.exec == y.exec then { e with done := true, rearm := rearm, differs := e.differs || differs } else e
    let x := s.stallOf n
    (s.setStall n { x with execs := x.execs.map mark }).vote n
  else ((s.runLaw n none).countFld (F.ST_RUNS_runs n)).readinessEnds n rearm

/-! ## Self-test and retest (R257 to R259) -/

/-- The vendor self-test begins on a withdrawn core that has left its stall (R257). -/
def State.beginSelftest (s : State) (c : Nat) : State :=
  let s := s.accountBusy c
  let x := s.coreOf c
  s.setCore c { x with status := .selftest, testCtx := some x.context, preempt := false, stallFrom := s.now }

/-- A core left OFF by a fault under R293. -/
def State.coreOff (s : State) (c : Nat) : Bool := (s.coreOf c).status == .off

/-- The core to test at the next 10 ms instant: a retest that is due, else the next in turn that is neither
quarantined nor OFF (R257, R259). -/
def State.nextTested (s : State) : Option (Nat × Bool) :=
  match s.hwk.retests with
  | c :: _ => some (c, true)
  | [] =>
    (((List.range 12).map fun i => (s.hwk.nextTest + i) % 12).find? fun c =>
      !s.quarantined c && !s.coreOff c).map fun c => (c, false)

/-- CORE_SELFTEST: at the next 10 ms instant the next core is withdrawn (R257, R259). -/
def State.coreSelftest (s : State) : State :=
  let s := s.advanceTo (nextMultiple 10000000 (Nat.max (s.now - 1) (s.hwk.lastTest.getD 0)) * nsUnit)
  let s : State := { s with hwk := { s.hwk with lastTest := some s.now } }
  match s.nextTested with
  | none => s
  | some (c, re) =>
    let s : State := { s with hwk := if re then { s.hwk with retests := s.hwk.retests.drop 1 }
                                     else { s.hwk with nextTest := (c + 1) % 12 } }
    let x := s.coreOf c
    let s := s.setCore c { x with withdraw := true }
    if x.ctx.isSome then s
    else if x.stall = 0 then s.beginSelftest c
    else if (s.stallOf x.stall).dual then s
    else s.setCore c { s.coreOf c with preempt := true }

/-- SELFTEST_END: 200 us later a pass returns the core to the pool, a fail quarantines it (R257 to R259). -/
def State.selftestEnd (s : State) (c : Nat) (pass : Bool) : State :=
  let x := s.coreOf c
  if x.status != .selftest then s
  else
    let s := s.advanceTo ((x.stallFrom + 200000) * nsUnit)
    let s := s.wrapFld (F.HC_HEALTH_tests c)
    let s := (s.setCore c { (s.coreOf c).load (x.testCtx.getD []) with testCtx := none, withdraw := false }).coreIdle c
    if pass then
      let s := (s.setFlag (F.HC_HEALTH_pass c) true).setFlag (F.HC_HEALTH_quarantined c) false
      s.resolveFaults fun f => f.region == 0 &&
        ((f.cause == 4 && f.object == c) || (f.cause == 2 && s.bitFld (F.ST_CORES_cores f.object) c))
    else
      let s := ((s.setFlag (F.HC_HEALTH_pass c) false).countFld (F.HC_HEALTH_fails c)).tally .selftestFail (.core c)
      if s.quarantined c then s else s.quarantine c 0

/-- RETEST: a host write of 1 to CORE[c].CTL.retest (R259). -/
def State.retest (s : State) (c : Nat) (v : Nat := 1) : State :=
  s.hostGate (A.HC_CTL c) v fun s =>
    if s.fld (F.HC_HEALTH_qcount c) ≥ 3 then s.discard .host (A.HC_CTL c) .state v
    else if (s.quarantined c || s.coreOff c) && !s.hwk.retests.contains c then
      { s with hwk := { s.hwk with retests := s.hwk.retests ++ [c] } }
    else s

/-! ## Enable, arm and deadlines (R237, R250) -/

/-- ST[n].CFG.enable has changed. A stall that is READY as it changes to 1 has been disabled while it ran and then
preempted: its readiness goes on (R237). -/
def State.enableChanged (s : State) (n : Nat) (on : Bool) : State :=
  let st := s.stallState n
  if st = St.running || st = St.voting then
    let s := if on then s else s.setStall n { s.stallOf n with wasOff := true }
    s.resolveStopped
  else if on then if st = St.ready then s else s.waitEmpty n
  else
    let s : State := { s with hwk := { s.hwk with queue := s.hwk.queue.filter fun e => e.stall != n } }
    let s := (s.setStall n { s.stallOf n with saved := none, deadline := none, execs := [], dual := false }).lawApply n
    (s.setStallState n St.off).resolveStopped

/-- ARM: a host write of 1 to ST[n].CTL.arm moves an IDLE stall to WAITING (R237). -/
def State.arm (s : State) (n : Nat) (v : Nat := 1) : State :=
  s.hostGate (A.ST_CTL n) v fun s =>
    if s.stallState n = St.idle then (s.setStallState n St.waiting).wakeIfCovered n else s

/-- DEADLINE_MISS: the deadline of a stall that is READY, RUNNING or VOTING passes; a vote that is delivered by it
meets it (R249, R250). -/
def State.deadlineMiss (s : State) (n : Nat) : State :=
  let s := s.votesBy (Nat.max s.clk.time (((s.stallOf n).deadline.getD 0) * nsUnit))
  let x := s.stallOf n
  let st := s.stallState n
  match x.deadline with
  | none => s
  | some d =>
    if x.missCounted || !(st = St.ready || st = St.running || st = St.voting) then s
    else
      let s := (s.advanceTo (d * nsUnit)).setStall n { x with missCounted := true }
      let s := (s.countFld (F.ST_CNT1_misses n)).countFld F.HWK_STAT_misses
      let s := (s.raise (F.ST_STATE_missed n)).tally .deadlineMiss (.stall n) st
      s.send (s.fld F.HWK_MISSDEST_stall) (s.fld F.HWK_MISSDEST_slot) (BitVec.ofNat 32 n) Src.hawker (some d)

/-! ## Attentions (R246, R278 to R283) -/

/-- The boundary before the core's next instruction is an attention point (R278). -/
def LCore.atPoint (x : LCore) : Bool :=
  !(x.branch.any fun b => b.slots != 0) && (x.levels == 0 || x.iterEnd) &&
    !((List.range x.levels).any fun i => Tab.get (fun _ => false) x.lrep i)

/-- A context is saved in 96 core clocks: 120 ns (R246, R280). -/
def saveClocks : Nat := 96
def saveNs : Nat := 120

/-- A preempted stall is READY again with its original ready instant; the save counts as busy, and the core then waits
in TAKE (R246, R260). -/
def State.preempted (s : State) (c : Nat) : State :=
  let x := s.coreOf c
  let n := x.stall
  let s := s.setStall n { s.stallOf n with saved := some x.context }
  let s := (s.setStallState n St.ready).setFld (F.ST_STATE_core n) 15
  let s := s.accountBusy c
  let s := s.setCore c { s.coreOf c with stall := 0, exec := 0, status := .take, preempt := false, pend := [],
                                         takeSince := s.now }
  let e : QExec := { stall := n, exec := x.exec, ready := (s.stallOf n).ready, restore := true }
  let s := (s.enqueue e).preemptFor e
  let y := s.coreOf c
  let s := s.setCore c { y with busyAcc := y.busyAcc + saveClocks, takeSince := s.now + saveNs }
  if x.withdraw then s.beginSelftest c else s

/-- A halt attention is taken: the core halts with its context held (R280). -/
def State.halted (s : State) (c : Nat) : State :=
  let s := s.accountBusy c
  let x := s.coreOf c
  s.setCore c { x with ctx := some x.context, haltReq := false, step := false, haltedInTake := x.status == .take }

/-- The pipeline holds from now on. -/
def State.coreHold (s : State) (c : Nat) (w : Waiting) : State :=
  let s := s.coreStatus c (.stalled w)
  s.setCore c { s.coreOf c with holdFrom := s.now }

/-- The pipeline goes on; the clocks of the stall are counted, at least `least` of them (R284, R295). -/
def State.coreGoes (s : State) (c : Nat) (least : Nat) : State :=
  let n := Nat.max least (s.clocksIn (s.now - (s.coreOf c).holdFrom))
  (s.coreStatus c .running).wrapFld (F.LC_STALLED_count c) n

/-- A core takes the attention that stands at an attention point; a halt attention first (R278, R280). -/
def State.takeAttention (s : State) (c : Nat) : State :=
  let x := s.coreOf c
  if !x.atPoint then s
  else if x.haltReq then s.halted c
  else if x.preempt && x.stall ≠ 0 then s.preempted c
  else s

/-- An attention stands that the core takes before it issues anything more (R278, R280). -/
def LCore.takesAttention (x : LCore) : Bool := x.atPoint && (x.haltReq || (x.preempt && x.stall != 0))

/-- ATTENTION: the core takes a pending attention if it stands at an attention point, also before a SYNC or DONE that
may not issue yet, or at once in TAKE (R278, R280, R283, R284). -/
def State.attention (s : State) (c : Nat) : State :=
  let x := s.coreOf c
  if x.ctx.isSome then s
  else
    match x.status with
    | .take => if x.haltReq then s.halted c else s
    | .running => s.takeAttention c
    | .stalled .sync => if x.takesAttention then (s.coreGoes c 0).takeAttention c else s
    | .stalled (.done _) => if x.takesAttention then (s.coreStatus c .running).takeAttention c else s
    | _ => s

end Sys2Proof.Machine
end

