-- ==== Sys2Proof/Machine/Mode.lean ====
section
/-!
DEFINITION. Cell modes, the cell-wide mode change, GROUP_SET, stops that run out, DEGRADED and its causes, and the debug
halt of the motion region (R22, R24, R67 to R87, R92, R151 to R154, R233, R294, R298, R324, R330).
-/

namespace Sys2Proof.Machine

/-! ## Modes -/

/-- Restriction rank of a mode: 1 the least restrictive, 6 the most; RESET and BOOT lie outside the order (R67). -/
def modeRank (m : Nat) : Nat :=
  match m with
  | 2 => 5 | 3 => 4 | 4 => 3 | 5 => 2 | 6 => 1 | _ => 6

/-- The mode of a rank. -/
def rankMode (r : Nat) : Nat :=
  match r with
  | 1 => 6 | 2 => 5 | 3 => 4 | 4 => 3 | 5 => 2 | _ => 7

/-- The more restrictive of two modes (R67). -/
def stricter (a b : Nat) : Nat := if modeRank a ≥ modeRank b then a else b

/-- An accepted MODE_SET that has not begun (R411). -/
def Outst.changeWaits (o : Outst) : Bool :=
  !o.begun && o.final.isNone && (match o.cmd with
    | .modeSet .. => true
    | _ => false)

/-- Targets of the changes that are accepted and have not ended: the pending one, and those that FENCE still keeps from
beginning (R81, R84, R411). -/
def State.openTargets (s : State) : List Nat :=
  s.mode.change.toList.map Change.target ++ (s.ldg.outst.filter Outst.changeWaits).filterMap fun o =>
    match o.cmd with
    | .modeSet t _ _ => some t.toNat
    | _ => none

/-- The modes whose limits hold now: the cell mode, and with it a pending target, of those that take part in a
combination (R69, R81). The combination holds until the whole change has ended, the peers' confirmations included
(log 76). -/
def State.limitModes (s : State) : List Nat :=
  if modeDrives s.cellMode then s.cellMode :: s.openTargets.filter modeDrives else []

/-- RT.STATUS.state is SYNC or MASTER (R41). -/
def State.timeGood (s : State) : Bool := s.fld F.RT_STATUS_state == 2 || s.fld F.RT_STATUS_state == 4

/-- A safety configuration image has been accepted. -/
def State.imageOk (s : State) : Bool := s.flag F.SAF_STATUS_image_ok

/-- The group counts as at standstill for R70: the last separation cycle's test, or no image in force. -/
def State.groupStill (s : State) (g : Nat) : Bool := !s.imageOk || s.flag (F.SG_STAT_still g)

/-- The condition of R70 for DEGRADED to CONFIGURE that fails: 1 a fault bit, 2 a group not at standstill; 0 none. -/
def State.leaveDegraded (s : State) : Nat :=
  if bitsOf (s.reg A.SYS_FAULT).toNat 8 4 ≠ 0 then 1
  else if (List.range 8).all fun g => s.groupStill g then 0 else 2

/-! ## Stops on entry to a mode (R72, R73) -/

/-- A group that is HOLD or ACTIVE is stopped (R72). `now` asserts STO at once (R73). -/
def State.modeStop (s : State) (reason : Nat) (now : Bool) (g : Nat) : State :=
  let inhibited := (s.groupSlices g).any fun n => s.bitFld F.SYS_FAULT_bank_inh (n / 8)
  if now || inhibited then s.groupOut g reason Cause.request else s.controlledStop g reason

/-- Every group is stopped (R72). -/
def State.modeStops (s : State) (reason : Nat) (now : Bool) : State :=
  s.each (List.range 8) fun s g => s.modeStop reason now g

/-- The pending change is cancelled (R85): the command is ABORTED with SUPERSEDED. -/
def State.cancelChange (s : State) (why : Reason) : State :=
  match s.mode.change with
  | none => s
  | some c =>
    let s : State := { s with mode := { s.mode with change := none } }
    ((s.setFld F.MODE_CELL_change 0).setFld F.MODE_LAST_outcome 3).finishAborted? c.cmd why

/-- Changes that are accepted and wait to begin are ended with SUPERSEDED (R84, R85). -/
def State.dropWaiting (s : State) : State :=
  s.each (s.ldg.outst.filter Outst.changeWaits) fun s o => s.finishAborted (o.ledger, o.seq) .superseded

/-- The cell moves to DEGRADED at once (R70, R72, R73, R85). In BOOT and RESET it does not move. Out of CONFIGURE it moves
in any state of ridge time: R41's condition is taken to bind the changes a host asks for (DEDUCED, log 76). -/
def State.enterDegraded (s : State) (stoNow : Bool) : State :=
  let m := s.cellMode
  if m < 2 then s
  else
    let s := (s.cancelChange .superseded).dropWaiting
    let s := if m = 7 then s else s.enterMode 7
    s.modeStops GReason.degraded stoNow

/-- The chip fault manager has moved the cell (R22, R24, R37). -/
def State.escalate (s : State) (stoNow : Bool) : State :=
  let s := s.enterDegraded stoNow
  if s.cellMode = 7 then s.setFaultBit 12 true else s

/-- The first edge of a domain's clock after the clock of a moment. -/
def Domain.after (d : Domain) (t : Moment) : Moment := (t / d.unit + 1) * d.unit

/-- ESCALATED: the oldest open fault that has stood for SYS.ESCALATE.time. The chip fault manager acts in the clock after
the one in which the time expires: a resolution reported in that clock still counts (R22). -/
def State.escalated (s : State) : State :=
  match s.faults.find? fun f => !f.escalated with
  | none => s
  | some f =>
    let s := s.advanceTo (Domain.core.after ((f.since + s.fld ⟨A.SYS_ESCALATE, 0, 16⟩ * 1000) * nsUnit))
    let s : State := { s with faults := s.faults.map fun x => if x = f then { x with escalated := true } else x }
    (s.tally .escalated .chip f.region f.cause).escalate false

/-- The safety region drops every STO channel and applies every brake: every group is OUT (R24). -/
def State.dropAll (s : State) : State :=
  s.each (List.range 8) fun s g => (s.groupOut g GReason.degraded Cause.request).stoAssert g Cause.request

/-- TCLK_LOST: the timing clock is gone (R24, R151, R478). -/
def State.tclkLost (s : State) : State :=
  if s.tclkGone then s
  else
    let s := ((({ s with tclkGone := true } : State).setFaultBit 11 true).setFlag F.PIN_CLK_ref_ok false).freezeSlices
    let s := (s.setFlag F.PIN_CLK_core_lock false).setFlag F.PIN_CLK_timing_lock false
    (s.tally .tclkLost .chip).dropAll.escalate true

/-- SAFETY_FAULT: the safety region reports a fault of its own; its first cause stays latched (R24, R298). -/
def State.safetyFault (s : State) (cause : Nat) : State :=
  if s.flag F.SAF_STATUS_fault then s
  else
    let s := ((s.setFlag F.SAF_STATUS_fault true).setFld F.SAF_STATUS_fault_cause cause).setFaultBit 9 true
    let s := (s.tally .safetyFault (.region 1) cause).dropAll
    (s.tally .escalated .chip 1 cause).escalate true

/-! ## The cell-wide change (R80 to R85) -/

/-- The transitions of R70 that a host may request. -/
def hostPath (m target : Nat) : Bool :=
  match m with
  | 2 => target == 3 || target == 7
  | 3 => target == 2 || modeDrives target || target == 7
  | 4 | 5 | 6 => target == 3 || (modeDrives target && target != m) || target == 7
  | 7 => target == 2
  | _ => false

/-- Check 5 of R403 for MODE_SET: the transition is one of R70 that a host may request. The second number is the REJECT
detail. -/
def State.modePath (s : State) (target : Nat) : Option (Reason × Nat) :=
  let m := s.cellMode
  if !hostPath m target then some (.modePath, 0)
  else if m = 7 then
    match s.leaveDegraded with
    | 0 => none
    | d => some (.modePath, d)
  else none

/-- The first failing condition of R71 and R464 for CONFIGURE to STANDBY; 0 none. -/
def State.configInvalid (s : State) : Nat :=
  if !s.timeGood then 1
  else if !s.imageOk then 2
  else if (List.range 8).any fun g => (s.groupSlices g).length > 16 then 3
  else if (List.range 64).any fun n =>
      s.fld ⟨A.MODE_BANK, 2 * (n / 8), 2⟩ == 1 && n % 8 ≥ 4 && (s.sliceGroup n).isSome then 4
  else if !s.flag F.MEM_STAT_ready then 5
  else 0

/-- The checks of R71, R80, R84 and R85 on a request for a mode other than DEGRADED; `boundary` says that the epoch is
a batten boundary where R80 asks for one. -/
def State.changeCheck (s : State) (target epoch : Nat) (boundary : Bool) : Option (Reason × Nat) :=
  let m := s.cellMode
  let bad := if m = 2 && target = 3 then s.configInvalid else 0
  if bad ≠ 0 then some (.configInvalid, bad)
  else if epoch % s.sepCycle ≠ 0 || !boundary then some (.epochAlign, 0)
  else if epoch < s.now + s.fld F.MODE_CFG_lead * 1000 || epoch > s.now + 60000000000 then some (.epochRange, 0)
  else
    let open' := s.openTargets
    let busy := !open'.isEmpty && !(modeRank target > modeRank m && open'.all fun t => modeRank target > modeRank t)
    if busy then some (.modeBusy, 0)
    else if s.flag F.RT_STATUS_capture_fail && modeRank target < modeRank m then some (.timeCapture, 0)
    else none

/-- An accepted change waits for its epoch; one that it replaces is ABORTED with SUPERSEDED (R81, R84, R92). -/
def State.acceptChange (s : State) (target id epoch : Nat) (cmd : Option (Nat × Nat)) : State :=
  let s := s.cancelChange .superseded
  let c : Change := { id := id, target := target, epoch := epoch, old := s.cellMode, cmd := cmd }
  let s : State := { s with mode := { s.mode with change := some c } }
  let s := ((s.setFld F.MODE_CELL_target target).setFld F.MODE_CELL_change 1).setFld F.MODE_CELL_change_id id
  (s.setPair A.MODE_EPOCH epoch).each (List.range 8) fun s g => s.setFlag (F.GRP_STATUS_confirmed g) false

/-- MODE_SET with target DEGRADED takes effect at once (R70, R85, R402). -/
def State.hostDegraded (s : State) (id : Nat) (cmd : Option (Nat × Nat)) : State :=
  let s := s.enterDegraded false
  let s := ((s.setFld F.MODE_CELL_target 7).setFld F.MODE_CELL_change_id id).setPair A.MODE_EPOCH 0
  (s.setFld F.MODE_LAST_outcome 1).finishDone? cmd

/-- An accepted MODE_SET begins. One that has waited, and whose transition R70 no longer allows from the mode the cell is in
now, ends with SUPERSEDED (R70, R85, R408, R411). -/
def State.modeSetBegin (s : State) (target id epoch : Nat) (cmd : Option (Nat × Nat)) : State :=
  if (s.modePath target).isSome then s.finishAborted? cmd .superseded
  else if target = 7 then s.hostDegraded id cmd
  else s.acceptChange target id epoch cmd

/-- Participants that have not confirmed, bit g (R83). -/
def State.unconfirmed (s : State) (c : Change) : Nat :=
  foldUpTo 8 (fun acc g => if c.participants.testBit g && !s.flag (F.GRP_STATUS_confirmed g) then acc + 2 ^ g else acc) 0

/-- The nodes whose mode-status records the link schedule names, ascending (R87, log 29). -/
def State.domainPeers (s : State) : List Nat :=
  let names (ch n : Nat) : Bool :=
    s.flag (F.SCHED_KIND_rx ch n) && (List.range (s.fld (F.SCHED_KIND_mcount ch n))).any fun i =>
      Config.pointRole (s.fld (F.MAP_POINT_point (s.fld (F.SCHED_MAP_mfirst ch n) + i))) == 1
  let found := [0, 1].flatMap fun ch =>
    ((List.range (s.fld (F.CH_SCHED_N_count ch))).filter (names ch)).map fun n => s.fld (F.SCHED_LEN_sender ch n)
  found.eraseDups.mergeSort

/-- The peers of the domain that have not confirmed: bit i for the i-th in ascending order of their nodes (R83). -/
def State.peersUnconfirmed (s : State) (c : Change) : Nat :=
  foldUpTo s.domainPeers.length (fun acc i =>
    if s.mode.peers.any fun p => p.1 == s.domainPeers.getD i 0 && p.2.confirms c then acc else acc + 2 ^ i) 0

/-- A change fails: the more restrictive of the old and the new mode is taken (R83). Its record lists the peers beside the
change identifier, from bit 16 of d2 on, and from the 49th peer on in d1 beside the groups (log 76). -/
def State.failChange (s : State) : State :=
  match s.mode.change with
  | none => s
  | some c =>
    let u := s.unconfirmed c
    let s : State := { s with mode := { s.mode with change := none } }
    let m := stricter (stricter c.old c.target) s.cellMode
    let s := if m = s.cellMode then s else s.enterMode m
    let s := ((s.setFld F.MODE_CELL_change 0).setFld F.MODE_LAST_outcome 2).countFld F.MODE_LAST_fail_cnt
    let s := if modeDrives m then s
      else s.modeStops (if m = 7 then GReason.degraded else GReason.mode) false
    let p := s.peersUnconfirmed c
    (s.tally .changeFailed .chip c.target (u + p / 2 ^ 48 * 2 ^ 8) (c.id + p % 2 ^ 48 * 2 ^ 16)).finishAborted? c.cmd
      .modeFailed u

/-- At its epoch the change's own conditions must still hold, and its transition be one that R70 allows (R41, R70). -/
def State.epochHolds (s : State) (target : Nat) : Bool :=
  (hostPath s.cellMode target || s.cellMode == target) && (s.cellMode != 2 || s.timeGood) && (s.cellMode != 7 || s.leaveDegraded == 0)

/-- EPOCH: the pending change becomes confirming (R72, R81, R82). -/
def State.epoch (s : State) : State :=
  match s.mode.change with
  | none => s
  | some c =>
    if c.confirming then s
    else
      let s := s.advanceTo (c.epoch * nsUnit)
      if !s.epochHolds c.target then s.failChange
      else
        let none' := s.cellMode = 2 || s.cellMode = 7 || c.target = 2 || c.target = 3
        let ps := if none' then 0
          else foldUpTo 8 (fun acc g => if s.groupState g = 0 then acc else acc + 2 ^ g) 0
        let s : State := { s with mode := { s.mode with change := some { c with confirming := true, participants := ps } } }
        let s := s.setFld F.MODE_CELL_change 2
        let s := if c.target = 2 || c.target = 3 then s.modeStops GReason.mode false else s
        s.checkChange

/-- GROUP_CONFIRM: a participating group has applied the new mode's limits (R81, R82). -/
def State.groupConfirm (s : State) (g : Nat) : State :=
  match s.mode.change with
  | none => s
  | some c =>
    if c.confirming && c.participants.testBit g then (s.setFlag (F.GRP_STATUS_confirmed g) true).checkChange else s

/-- CHANGE_FAILED: the deadline of R82 passes with the condition unmet (R83). -/
def State.changeFailed (s : State) : State :=
  match s.mode.change with
  | none => s
  | some c =>
    if c.confirming then (s.advanceTo (s.changeDeadline c * nsUnit)).failChange else s

/-! ## Peers (R86, R87) -/

/-- The mode a peer counts as: of its record, or STANDBY when it publishes CONFIGURE or DEGRADED. A record that still shows
as pending, and confirms, the change this device has just completed counts as its target (DEDUCED, log 17). -/
def State.peerMode (s : State) (p : Peer) : Nat :=
  if p.pendingChange && p.confirmed && p.id == s.fld F.MODE_CELL_change_id && p.target == s.fld F.MODE_CELL_target &&
      s.fld F.MODE_LAST_outcome == 1 && s.mode.change.isNone then
    if modeDrives p.target then p.target else 3
  else if modeDrives p.mode then p.mode else 3

/-- A device never runs less restricted than a peer: the move is immediate (R87). -/
def State.pullTo (s : State) (m node : Nat) : State :=
  if s.cellMode ≥ 2 && modeRank m > modeRank s.cellMode then
    let s := (s.tally .peerPull .chip node).enterMode m
    if m = 3 then s.modeStops GReason.mode false else s
  else s

def setPeer (node : Nat) (p : Peer) (ps : List (Nat × Peer)) : List (Nat × Peer) :=
  (node, p) :: ps.filter fun e => e.1 != node

/-- A peer named in the link schedule whose record has never arrived is kept from the first cycle on, so that it counts
its cycles as one that has fallen silent (R87). -/
def State.expectPeers (s : State) : State :=
  if s.fld F.MODE_XCFG_peers = 0 then s
  else
    let new := s.domainPeers.filter fun n => !(s.mode.peers.any fun p => p.1 == n)
    { s with mode := { s.mode with peers := s.mode.peers ++ new.map fun n =>
        (n, { mode := 0, target := 0, pendingChange := false, confirmed := false, id := 0, epoch := 0 }) } }

/-- A peer's mode-status record arrives (R82, R86, R87). -/
def State.peerRecord (s : State) (node : Nat) (p : Peer) : State :=
  let s : State := { s with mode := { s.mode with peers := setPeer node p s.mode.peers } }
  let s := s.checkChange
  s.pullTo (s.peerMode p) node

/-- PEER_TIMEOUT: a peer's record has not arrived for XCFG.timeout link cycles; it counts as STANDBY (R87). -/
def State.peerTimeout (s : State) (node : Nat) : State :=
  if s.mode.peers.any fun e => e.1 == node && e.2.age ≥ s.fld F.MODE_XCFG_timeout then s.pullTo 3 node else s

/-! ## GROUP_SET (R76 to R78, R230, R233, R330) -/

/-- The inputs that name a group with a function: 1 ESTOP0, 2 ESTOP1, 3 ENABLE (R329, R336). -/
def State.inputsOf (s : State) (g fn : Nat) : List Nat :=
  (List.range 16).filter fun k =>
    match Tab.find? s.saf.image.inputs k with
    | some i => i.fn == fn && i.groups.testBit g
    | none => false

/-- An input is OK (R328). -/
def State.inputOk (s : State) (k : Nat) : Bool := s.bitFld F.SAF_SIN_ok k

/-- The enabling input of a group is given: every ENABLE input that names it is OK (R329). A group that no ENABLE input
names counts as enabled (log 76). -/
def State.enabledIn (s : State) (g : Nat) : Bool := (s.inputsOf g 3).all fun k => s.inputOk k

/-- A condition of R24, R297 or R330 forbids the release of a group: no image has been accepted, a fault of the safety
region, an ESTOP input, a failed test,
or a joint count that differs from the image. -/
def State.safetyHold (s : State) (g : Nat) : Bool :=
  !s.imageOk || s.flag F.SAF_STATUS_fault || ((s.inputsOf g 1 ++ s.inputsOf g 2).any fun k => !s.inputOk k) ||
    s.bitFld F.SAF_STO_fault g || ((s.groupSlices g).any fun n => (s.pair A.SAF_BRKF).testBit n) ||
    s.jointCount g != match Tab.find? s.saf.image.groups g with
      | some r => r.joints
      | none => 0

/-- The loop image of a group's area is being replaced, from its ACCEPT to its DONE (R454). -/
def State.areaLoading (s : State) (g : Nat) : Bool :=
  match s.sec.job with
  | some j => j.image.kind == 1 && j.image.area == g
  | none => false

/-- A fault has acted on the group in the present clock (R78). -/
def State.faultedNow (s : State) (g : Nat) : Bool :=
  match (s.grpOf g).faultAt with
  | some t => sameClock .core t s.clk.time
  | none => false

/-- The checks of R77, R78, R330 and R454, after the field ranges of R402. -/
def State.groupSetCheck (s : State) (g st : Nat) : Option (Reason × Nat) :=
  if g > 7 || st > 2 then some (.paramInvalid, 0)
  else if s.faultedNow g then some (.groupState, 0)
  else if st ≠ 0 && s.groupState g = 0 && s.areaLoading g then some (.groupState, 0)
  else
    let cur := s.groupState g
    let ns := s.groupSlices g
    let pending := !s.openTargets.isEmpty
    if st ≤ cur then none
    else if cur = 0 && st = 1 then
      if !modeDrives s.cellMode || (ns.any fun n => s.flag (F.OC_TRIP_latched n)) ||
          (ns.any fun n => s.bitFld F.SYS_FAULT_bank_inh (n / 8)) || (ns.any fun n => s.sliceIdle n) || pending then
        some (.groupState, 0)
      else if s.safetyHold g then some (.safetyHold, 0)
      else none
    else if cur = 1 && st = 2 then
      if (s.limitModes.contains 4 && !s.enabledIn g) || pending || (s.grpOf g).stop.isSome then some (.groupState, 0)
      else none
    else some (.groupState, 0)

/-- An accepted GROUP_SET begins (R76, R402). One that has waited, and that the group's or the cell's state has come to
forbid, ends with SUPERSEDED (R72, R77, R408). -/
def State.groupSetBegin (s : State) (g st : Nat) (cmd : Option (Nat × Nat)) : State :=
  let cur := s.groupState g
  if (s.groupSetCheck g st).isSome then s.finishAborted? cmd .superseded
  else if st = cur then
    if cur = 0 then (s.abortStart g .superseded).finishDone? cmd else s.finishDone? cmd
  else
    let x := s.grpOf g
    let s := (s.setGrp g { x with cmd := none }).finishAborted? x.cmd .superseded
    if cur = 0 then s.groupStart g cmd
    else if st = 2 then s.groupActivate g cmd
    else
      let s := s.setGrp g { s.grpOf g with cmd := cmd, want := st }
      if st = 1 then s.protectiveStop g Cause.request 1 0 GReason.host else s.controlledStop g GReason.host

/-- The laws have not reported running: LAW_START (R233). -/
def State.lawStartFails (s : State) (g : Nat) : State := s.abortStart g .lawStart

/-- LOOPS_RUNNING: the group's loops report running, or one of its laws is found in FAULT (R76, R233). -/
def State.loopsRunning (s : State) (g : Nat) : State :=
  if (s.grpOf g).start.isNone then s
  else if s.lawFaulted g then s.lawStartFails g
  else if s.lawsRunning g then s.loopsUp g
  else s

/-- LAW_START_TIMEOUT: 100 ms after START (R233). -/
def State.lawStartTimeout (s : State) (g : Nat) : State :=
  match (s.grpOf g).start with
  | none => s
  | some t => (s.advanceTo ((t + 100000000) * nsUnit)).lawStartFails g

/-- STOP_TIMEOUT: STOP.time runs out. A controlled stop ends in OUT with its own reason. A protective stop gives STO with
cause STOP_TIMEOUT and reason SAFETY, unless the last separation cycle found the group at standstill: then it ends as
one that has reached it, and one that leads to HOLD waits for its ramp (R73, R105, R324). -/
def State.stopTimeout (s : State) (g : Nat) : State :=
  match (s.grpOf g).stop with
  | none => s
  | some t =>
    let s := s.advanceTo (t.deadline * nsUnit)
    if !s.flag (F.SG_STAT_pstop g) then s.groupOut g t.reason Cause.request
    else if !s.flag (F.SG_STAT_still g) then s.groupOut g GReason.safety Cause.stopTimeout
    else if t.target = 0 then s.stopEnds g
    else s

/-! ## Debug halt of the motion region (R29, R151 to R154, R294, R295) -/

/-- Core debug is open: before provisioning, or unlocked with the core scope (R294, R460). -/
def State.debugOpen (s : State) : Bool :=
  s.fld F.SEC_DBG_state == 1 || (s.fld F.SEC_DBG_state == 2 && (s.fld F.SEC_DBG_scope).testBit 0)

/-- A debug write is applied only while debug is open (R294, R493). -/
def State.debugGate (s : State) (off value : Nat) (f : State → State) : State :=
  s.hostGate off value fun s => if s.debugOpen then f s else s.discard .host off .debug value

/-- MOTION_HALT: a write of 1 to LC.RHALT.halt (R151, R153). -/
def State.motionHalt (s : State) : State :=
  s.debugGate A.LCR_RHALT 1 fun s =>
    if s.motionHalted then s
    else
      let s := ((({ s with motionHalted := true } : State).setFlag F.LCR_RHALT_halted true)).freezeSlices
      s.each (List.range 8) fun s g =>
        if s.groupState g = 0 then s.abortStart g .superseded else s.groupOut g GReason.safety Cause.request

/-- MOTION_RESUME: a write of 1 to LC.RHALT.resume (R154). -/
def State.motionResume (s : State) : State :=
  s.debugGate A.LCR_RHALT 2 fun s =>
    if !s.motionHalted then s
    else
      let s := ({ s with motionHalted := false } : State).setFlag F.LCR_RHALT_halted false
      if s.tclkGone then s else s.each (List.range 64) fun s n => s.restartSlice n true

end Sys2Proof.Machine
end

