-- ==== Sys2Proof/Machine/Time.lean ====
section
/-!
DEFINITION. Civil time and the 1PPS input (R46 to R49).
-/

namespace Sys2Proof.Machine

/-- Civil time at ridge time `t`, by the formula of R46. -/
def State.civil (s : State) (t : Nat) : Int :=
  (t : Int) + s.ipair A.RT_CIVIL_OFS +
    Int.tdiv (((t : Int) - s.pair A.RT_CIVIL_REF) * s.ifld F.RT_CIVIL_RATE_rate) (2 ^ 32)

/-- The signed error of an edge stamped `t`: civil time modulo one second, from -500,000,000 (R48). -/
def State.ppsError (s : State) (t : Nat) : Int :=
  let e := s.civil t % 1000000000
  if e ≥ 500000000 then e - 1000000000 else e

/-- The tracking update of an accepted edge (R48). The rate step is a free value where the edge falls on CIVIL_REF
itself, for which the formula divides by 0 (log 2). -/
def State.ppsTrack (s : State) (t : Nat) (err : Int) : State :=
  let d : Int := (t : Int) - s.pair A.RT_CIVIL_REF
  let rate := s.ifld F.RT_CIVIL_RATE_rate
  let ofs := s.ipair A.RT_CIVIL_OFS
  let old := (s.clk.time, s.pair A.RT_CIVIL_OFS, s.pair A.RT_CIVIL_REF, s.reg A.RT_CIVIL_RATE)
  let new := ofs + Int.tdiv (d * rate) (2 ^ 32) - err
  let again := s.clk.ppsTracked
  let s : State := { s with clk := { s.clk with ppsTracked := true, tracking := some old } }
  let s := s.setPair A.RT_CIVIL_OFS (unsignedOf 64 new)
  let s :=
    if again then
      let step : Int := if d = 0 then (s.freeVal.toInt) else Int.tdiv (Int.tdiv (err * 2 ^ 32) d) 4
      let s := if d = 0 then s.usedFree else s
      s.setFld F.RT_CIVIL_RATE_rate (unsignedOf 32 (clampInt (-858993) 858993 (rate - step)))
    else s
  s.setPair A.RT_CIVIL_REF t

/-- An accepted PPS edge (R47, R48, R49). -/
def State.ppsAccept (s : State) : State :=
  let t := s.now
  let err := s.ppsError t
  let s : State := { s with clk := { s.clk with pps := some t } }
  let s := (s.setPair A.RT_PPS_STAMP t).setFld F.RT_PPS_ERR_err (unsignedOf 32 err)
  let s := (s.setFlag F.RT_STATUS_pps_ok (err.natAbs ≤ 1000)).setFlag F.RT_STATUS_pps_lost false
  let s := s.countFld F.RT_PPS_CNT_accepted
  let written := match s.clk.civilAt with
    | some w => sameClock .timing w s.clk.time
    | none => false
  if s.flag F.RT_CTRL_pps_track && err.natAbs ≤ 100000 && !written then s.ppsTrack t err
  else { s with clk := { s.clk with ppsTracked := false } }

/-- PPS_EDGE: a filtered edge of the 1PPS input (R47, R48). -/
def State.ppsEdge (s : State) (rising : Bool) : State :=
  if !s.flag F.RT_CTRL_pps_en || rising == s.flag F.RT_CTRL_pps_pol then s
  else
    match s.clk.pps with
    | none => s.ppsAccept
    | some p =>
      let t := s.now
      if p + 1000000000 ≤ t + 500000 && t ≤ p + 1000000000 + 500000 then s.ppsAccept
      else
        ({ s with clk := { s.clk with ppsTracked := false } } : State).countFld F.RT_PPS_CNT_discarded

/-- PPS_LOST: no edge accepted for 2.5 s (R47). Where none has been accepted at all the spec does not say from when the
2.5 s count: the event's own moment is taken (log 74). -/
def State.ppsLost (s : State) : State :=
  if !s.flag F.RT_CTRL_pps_en || s.flag F.RT_STATUS_pps_lost then s
  else
    let s := match s.clk.pps with
      | some p => s.advanceTo ((p + 2500000000) * nsUnit)
      | none => s
    let s : State := { s with clk := { s.clk with pps := none, ppsTracked := false } }
    (s.setFlag F.RT_STATUS_pps_lost true).setFlag F.RT_STATUS_pps_ok false

/-- A host write of the civil map: a tracking update of the same clock is undone first, and its edge counts as not
tracked (R48, R49). -/
def State.civilWritten (s : State) (off : Nat) (f : State → State) : State :=
  let s := match s.clk.tracking with
    | some (t, ofs, ref, rate) =>
      if sameClock .timing t s.clk.time then
        let s := ((s.setPair A.RT_CIVIL_OFS ofs).setPair A.RT_CIVIL_REF ref).setReg A.RT_CIVIL_RATE rate
        { s with clk := { s.clk with ppsTracked := false, tracking := none } }
      else s
    | none => s
  let s : State := f { s with clk := { s.clk with civilAt := some s.clk.time } }
  s.tally .civilSet .host off

/-- CIVIL_SET: a host write of CIVIL_OFS, CIVIL_REF or CIVIL_RATE (R49, R65); a rate outside its range is not applied
(R10). -/
def State.civilSet (s : State) (reg : CivilReg) (value : BitVec 64) : State :=
  match reg with
  | .ofs => s.hostGate A.RT_CIVIL_OFS value.toNat fun s =>
      s.civilWritten A.RT_CIVIL_OFS fun s => s.setPair A.RT_CIVIL_OFS value.toNat
  | .ref => s.hostGate A.RT_CIVIL_REF value.toNat fun s =>
      s.civilWritten A.RT_CIVIL_REF fun s => s.setPair A.RT_CIVIL_REF value.toNat
  | .rate => s.hostGate A.RT_CIVIL_RATE value.toNat fun s =>
      if (signedOf 32 value.toNat).natAbs > 858993 then s.discard .host A.RT_CIVIL_RATE .range value.toNat
      else s.civilWritten A.RT_CIVIL_RATE fun s => s.setReg A.RT_CIVIL_RATE (value.setWidth 32)

end Sys2Proof.Machine
end

