-- ==== Sys2Proof/Machine/Feedback.lean ====
section
/-!
DEFINITION. Feedback ports: counting, index events, presets, serial frames, latches and their tokens, speed estimation,
direction changes, and encoder emulation (R181 to R208).
-/

namespace Sys2Proof.Machine

/-! ## Speed (R201 to R204) -/

/-- Port modes (R181). -/
def State.fbMode (s : State) (n : Nat) : Nat := s.fld (F.FB_CFG_mode n)

/-- The port counts edges: QUAD, HALL or STEPDIR. -/
def State.fbIncremental (s : State) (n : Nat) : Bool := s.fbMode n == 1 || s.fbMode n == 2 || s.fbMode n == 5

/-- A serial port: SSI or BISS. -/
def State.fbSerial (s : State) (n : Nat) : Bool := s.fbMode n == 3 || s.fbMode n == 4

/-- The speed of a run as counts over a time in clock units, by the formula of R201: `run` holds the stamps of its
edges, newest first. -/
def runSpeed (run : List Moment) (win now : Moment) : Nat × Nat :=
  match run with
  | last :: before :: older =>
    let inWin := (before :: older).takeWhile fun t => last ≤ t + win
    let ref := (inWin.getLast?).getD before
    let n := if inWin.isEmpty then 1 else inWin.length
    let span := last - ref
    if (now - last) * n > span then
      if n * (now - last) ≤ span then (n, span) else (1, now - last)
    else (n, span)
  | _ => (0, 1)

/-- The estimator's speed before scaling: counts, signed, over a time in clock units (R201 to R204). -/
def State.speedRatio (s : State) (n : Nat) : Int × Nat :=
  let x := s.fbkOf n
  let v := s.fld (F.FB_FSTAT_valid n)
  if s.fbSerial n then
    if v = 2 then (x.dC, x.dT) else (0, 1)
  else if s.fbIncremental n && (v = 2 || v = 4) then
    let r := runSpeed x.run (s.fld (F.FB_SPD_win n) * 1000 * nsUnit) s.clk.time
    if s.flag (F.FB_FSTAT_dir n) then (-(r.1 : Int), r.2) else (r.1, r.2)
  else (0, 1)

/-- SPEED: counts/s times 2^(8 - spd_shift), truncated toward zero and saturated (R204). -/
def State.speedWord (s : State) (n : Nat) : Nat :=
  let r := s.speedRatio n
  let shift := s.fld (F.FB_CFG_spd_shift n)
  let num := r.1 * 1000000000 * 2 ^ 40
  let v := if r.2 = 0 then 0 else Int.tdiv num (r.2 * 2 ^ shift)
  unsignedOf 32 (clampInt (-(2 ^ 31 - 1)) (2 ^ 31 - 1) v)

/-- The estimator is evaluated (R201); OFF holds the speed (R181). -/
def State.evalSpeed (s : State) (n : Nat) : State :=
  if s.fbIncremental n || s.fbSerial n && !s.flag (F.FB_FSTAT_hold n) then
    s.setFld (F.FB_SPEED_speed n) (s.speedWord n)
  else s

/-! ## Direction changes (R205) -/

/-- A direction change: counted; the first since dirchg was cleared raises the attention token (R205). -/
def State.directionChange (s : State) (n : Nat) : State :=
  let was := s.flag (F.FB_STATUS_dirchg n)
  let s := (s.countFld (F.FB_CNT_rev_cnt n)).raise (F.FB_STATUS_dirchg n)
  if was then s
  else s.send (s.fld (F.FB_ATTN_stall n)) (s.fld (F.FB_ATTN_slot n)) (s.reg (A.FB_FSTAT n)) Src.feedback
    (some (s.pair (A.FB_STAMP n))) false 0 none (4 * n + 3)

/-- The estimator's state after a counted edge (R202). -/
def nextValid (v : Nat) (same : Bool) : Nat :=
  match v with
  | 0 => 1
  | 1 | 2 | 4 => if same then 2 else 3
  | _ => if same then 4 else 3

/-- A counted edge: EDGE_STAMP, the run and the estimator's state (R197, R201, R202). -/
def State.countedEdge (s : State) (n : Nat) (down : Bool) (step : Int) : State :=
  let x := s.fbkOf n
  let v := s.fld (F.FB_FSTAT_valid n)
  let v' := nextValid v (x.armed && s.flag (F.FB_FSTAT_dir n) == down)
  let t := s.clk.time
  let keep := x.run.filter fun e => t ≤ e + 65535 * 1000 * nsUnit
  let old := if keep.length < 2 then x.run.take 2 else keep
  let s := s.setFbk n { x with run := if v' = 1 || v' = 3 then [t] else t :: old, lastEdge := some t, armed := true,
                               lastCount := step }
  let s := ((s.setFld (F.FB_FSTAT_valid n) v').setFlag (F.FB_FSTAT_dir n) down).setPair (A.FB_EDGE_STAMP n) s.now
  if v' = 3 then (s.setFlag (F.FB_FSTAT_rev n) true).directionChange n
  else if v = 4 && v' = 2 then s.setFlag (F.FB_FSTAT_rev n) false
  else s

/-! ## Counting (R184 to R190) -/

/-- The index resets POS at this event: EVERY, or the armed ONCE (R189). -/
def State.indexResets (s : State) (n : Nat) : Bool :=
  match s.fld (F.FB_CFG_index n) with
  | 1 => true
  | 2 => (s.fbkOf n).onceArmed
  | _ => false

/-- One counted edge of an incremental port, an index event or not. An index event discards a preset of its clock, and
IDXPOS takes what POS would have become without it (R184, R188 to R190). -/
def State.countEdge (s : State) (n : Nat) (down index : Bool) : State :=
  let step : Int := if down then -1 else 1
  let counted (pos : Nat) : Nat := unsignedOf 32 ((pos : Int) + step)
  let pos := s.fld (F.FB_POS_pos n)
  let s := s.countedEdge n down step
  if index && s.indexResets n then
    let x := s.fbkOf n
    let preset := x.presetAt.any fun t => sameClock .timing t s.clk.time
    let value : Int := s.fld (F.FB_IDXVAL_value n) - (if down then 1 else 0)
    let s := s.setFbk n { x with onceArmed := false, indexAt := some s.clk.time }
    let s := if s.fld (F.FB_CFG_index n) = 2 then s.setFlag (F.FB_FSTAT_homed n) true else s
    let s := (s.setFld (F.FB_IDXPOS_pos n) (counted (if preset then x.posBefore else pos))).setPair (A.FB_IDXSTAMP n)
      ((x.zEdge.getD s.clk.time) / nsUnit)
    let s := (s.raise (F.FB_STATUS_index n)).setFld (F.FB_POS_pos n) (unsignedOf 32 value)
    if preset then s.discard .host (A.FB_CTL n) .collision x.presetWord else s
  else s.setFld (F.FB_POS_pos n) (counted pos)

/-- The place of the state (B, A) in the sequence 00, 01, 11, 10 (R185), for the number B × 2 + A. -/
def quadIndex (ba : Nat) : Nat := match ba with | 0 => 0 | 1 => 1 | 3 => 2 | _ => 3

/-- The place of a Hall state in the sequence 1, 3, 2, 6, 4, 5 (R186); none for 0 and 7. -/
def hallIndex (h : Nat) : Option Nat :=
  match h with
  | 1 => some 0 | 3 => some 1 | 2 => some 2 | 6 => some 3 | 4 => some 4 | 5 => some 5 | _ => none

/-- Z stands at its active level (R188). -/
def State.zActive (s : State) (n lines : Nat) : Bool := lines.testBit 2 != s.flag (F.FB_CFG_zpol n)

/-- FEEDBACK_EDGE in QUAD mode: upwards the first edge into zqual since Z became active is the index event (R185, R188). -/
def State.quadEdge (s : State) (n old new : Nat) : State :=
  let a := old % 4
  let b := new % 4
  if a = b then s
  else if (a ^^^ b) = 3 then s.feedbackError n 1 1
  else
    let up := quadIndex b == (quadIndex a + 1) % 4
    let down := up == s.flag (F.FB_CFG_rev n)
    let qual := s.fld (F.FB_CFG_zqual n)
    let z := s.zActive n new
    let enters := z && !down && quadIndex b == qual
    let first := enters && !(s.fbkOf n).zDone
    let s := if enters then s.setFbk n { s.fbkOf n with zDone := true } else s
    s.countEdge n down (first || z && down && quadIndex a == qual)

/-- FEEDBACK_EDGE in HALL mode (R186). -/
def State.hallEdge (s : State) (n old new : Nat) : State :=
  let s := s.setFld (F.FB_FSTAT_hall n) new
  match hallIndex old, hallIndex new with
  | _, none => s.feedbackError n 2 2
  | none, some _ => s
  | some i, some j =>
    if j = (i + 1) % 6 || i = (j + 1) % 6 then
      s.countEdge n ((j == (i + 1) % 6) == s.flag (F.FB_CFG_rev n)) false
    else s.feedbackError n 4 4

/-- FEEDBACK_EDGE in STEPDIR mode: the direction line counts as it stood in the count before the step edge (R187,
R188). -/
def State.stepDirEdge (s : State) (n old new : Nat) : State :=
  let x := s.fbkOf n
  let dirLine := match x.dirAt with
    | some (t, b) => if sameClock .timing t s.clk.time then b else old.testBit 1
    | none => old.testBit 1
  let s := if old.testBit 1 != new.testBit 1 then s.setFbk n { x with dirAt := some (s.clk.time, dirLine) } else s
  if old.testBit 0 != new.testBit 0 && new.testBit 0 != s.flag (F.FB_CFG_step_edge n) then
    s.countEdge n (dirLine == s.flag (F.FB_CFG_rev n)) (s.zActive n new)
  else s

/-- What the glitch filters pass: each line takes the synchronised level once it has held it for FILT.fx counts, `held`
giving the counts of each line, 8 bits a line (R182). -/
def State.filtered (s : State) (n old lines held : Nat) : Nat :=
  ((List.range 3).map fun i =>
    let on := if bitsOf held (8 * i) 8 ≥ bitsOf (s.reg (A.FB_FILT n)).toNat (8 * i) 8 then lines.testBit i else old.testBit i
    if on then 2 ^ i else 0).sum

/-- The POS token of a latch in this count takes POS as it stands after the count's edges, on its way as well as in its
slot (R198, R492). -/
def State.relatch (s : State) (n : Nat) : State :=
  let x := s.fbkOf n
  match x.latchedAt with
  | none => s
  | some t =>
    if !sameClock .timing t s.clk.time || !s.flag (F.FB_DEST_pen n) then s
    else
      let stall := s.fld (F.FB_DEST_stall n)
      let slot := s.fld (F.FB_DEST_pslot n)
      let pos := s.reg (A.FB_POS n)
      let fresh (k : Tok) : Tok :=
        if k.source == Src.feedback && k.port == 4 * n && k.stamp == some (t / nsUnit) then { k with data := pos } else k
      let s : State := { s with hwk := { s.hwk with tokens := s.hwk.tokens.map fresh, held := s.hwk.held.map fresh } }
      let i := (s.stallOf stall).slot slot
      if stall ≠ 0 && i.source = Src.feedback && i.port = 4 * n && i.stamp = t / nsUnit then
        s.setReg (A.ST_SLOT stall slot) pos
      else s

/-- FEEDBACK_EDGE: the input lines of a port change, as far as its filters pass them (R182, R185 to R188, R198). -/
def State.feedbackEdge (s : State) (n lines held : Nat) : State :=
  let x := s.fbkOf n
  let old := x.lines
  let lines := s.filtered n old lines held
  if old = lines then s
  else
    let z := s.zActive n lines && !s.zActive n old
    let s := s.setFbk n { x with
      lines := lines, zEdge := if z then some s.clk.time else x.zEdge, zDone := x.zDone && !z }
    let s := match s.fbMode n with
      | 1 => s.quadEdge n old lines
      | 2 => s.hallEdge n old lines
      | 5 => s.stepDirEdge n old lines
      | _ => s
    s.relatch n

/-- STANDSTILL_TIMEOUT: no edge, or in the serial modes no change of c, for SPD.still (R202, R203). -/
def State.standstillTimeout (s : State) (n : Nat) : State :=
  let x := s.fbkOf n
  let since : Option Moment := if s.fbSerial n then some x.moved else x.lastEdge
  match since with
  | none => s
  | some t =>
    if s.fld (F.FB_FSTAT_valid n) = 0 || !(s.fbSerial n || s.fbIncremental n) then s
    else
      let s := s.advanceTo (t + s.fld (F.FB_SPD_still n) * 1000 * nsUnit)
      let s := (s.setFld (F.FB_FSTAT_valid n) 0).setFlag (F.FB_FSTAT_rev n) false
      s.setFbk n { x with run := [] }

/-- INDEX_ARM: a host write of 1 to FBK CTL.arm (R189). -/
def State.indexArm (s : State) (n : Nat) (v : Nat := 1) : State :=
  s.hostGate (A.FB_CTL n) v fun s =>
    (s.setFbk n { s.fbkOf n with onceArmed := true }).setFlag (F.FB_FSTAT_homed n) false

/-- PRESET: a host write of 1 to FBK CTL.preset (R190). -/
def State.preset (s : State) (n : Nat) (v : Nat := 2) : State :=
  s.hostGate (A.FB_CTL n) v fun s =>
    let x := s.fbkOf n
    let here (t : Option Moment) : Bool := t.any fun t => sameClock .timing t s.clk.time
    if here x.indexAt then s.discard .host (A.FB_CTL n) .collision v
    else
      let more : Int := if here x.lastEdge then x.lastCount else 0
      let s := s.setFbk n { x with presetAt := some s.clk.time, presetWord := v, posBefore := s.fld (F.FB_POS_pos n) }
      s.setFld (F.FB_POS_pos n) (unsignedOf 32 ((s.fld (F.FB_PRESET_value n) : Int) + more))

/-- A write of CFG.mode, also one that repeats it: POS stays, the speed state is STANDSTILL, consec clears (R190). -/
def State.portModeWritten (s : State) (n : Nat) : State :=
  let s := s.setFbk n { s.fbkOf n with run := [], armed := false }
  ((s.setFld (F.FB_FSTAT_valid n) 0).setFlag (F.FB_FSTAT_rev n) false).setFld (F.FB_ERR_consec n) 0

/-- A change of CFG.mode: the next good frame is the first; a HALL port that finds state 0 or 7 raises its error (R186,
R189, R195). -/
def State.portModeChanged (s : State) (n : Nat) : State :=
  let x := s.fbkOf n
  let s := s.setFbk n { x with frame := none, clock := none, lastC := none, frames := 0, afresh := true, lastSign := 0,
                               goodStamp := none, onceArmed := false, zDone := false }
  let hall := s.fbMode n = 2
  let s := (s.setFlag (F.FB_FSTAT_homed n) false).setFld (F.FB_FSTAT_hall n) (if hall then x.lines else 0)
  let s := if s.fbSerial n then s else s.setPair (A.FB_MTPOS n) 0
  if hall && (hallIndex x.lines).isNone then s.feedbackError n 2 2 else s

/-! ## Latches and serial frames (R191 to R198) -/

/-- The tokens of a latch (R198), stamped with its trigger instant. -/
def State.latchTokens (s : State) (n : Nat) (t : Moment) : State :=
  let s := if s.isStandby && (Tab.get (fun _ => none) s.twin.own n).isNone && s.twin.snapAt ≤ t / nsUnit then
      { s with twin := { s.twin with own := Tab.set (fun _ => none) s.twin.own n (some (s.reg (A.FB_SPEED n))) } }
    else s
  let stall := s.fld (F.FB_DEST_stall n)
  let put (s : State) (k : Nat) (en slot : Fld) (w : Word) : State :=
    if s.flag en then s.send stall (s.fld slot) w Src.feedback (some (t / nsUnit)) false 0 none (4 * n + k) else s
  let s := put s 0 (F.FB_DEST_pen n) (F.FB_DEST_pslot n) (s.reg (A.FB_POS n))
  let s := put s 1 (F.FB_DEST_sen n) (F.FB_DEST_sslot n) (s.reg (A.FB_SPEED n))
  put s 2 (F.FB_DEST_fen n) (F.FB_DEST_fslot n) (s.reg (A.FB_FSTAT n))

/-- A serial clock period (R191). -/
def State.serPeriod (s : State) (n : Nat) : Moment := 2 * s.fld (F.FB_SERT_div n) * countUnit

/-- Bits of an SSI frame (R191). -/
def State.ssiBits (s : State) (n : Nat) : Nat :=
  s.fld (F.FB_SER_lead n) + s.fld (F.FB_SER_mt n) + s.fld (F.FB_SER_st n) +
    if s.fld (F.FB_SER_parity n) = 0 then 0 else 1

/-- A bad frame with its error bits (R195, R200). -/
def State.badFrame (s : State) (n bits : Nat) : State :=
  let s := s.countFld (F.FB_ERR_consec n)
  let limit := s.fld (F.FB_ERRCFG_limit n)
  let s := s.setFlag (F.FB_FSTAT_hold n) true
  let run := s.fld (F.FB_ERR_consec n) ≥ limit
  let s := if run then s.setFbk n { s.fbkOf n with afresh := true } else s
  s.feedbackError n bits (if run then bits else 0)

/-- Gray to binary (R194). -/
def fromGray : Nat → Nat → Nat
  | 0, _ => 0
  | k + 1, v =>
    let above := fromGray k (v / 2)
    above * 2 + (above % 2 + v % 2) % 2

/-- A good frame with its multi-turn and single-turn values (R194, R195, R203, R205). -/
def State.goodFrame (s : State) (n : Nat) (t0 : Moment) (m : Int) (st sv : Nat) : State :=
  let x := s.fbkOf n
  let c : Int := m * 2 ^ st + sv
  let change : Int := if x.afresh then 0 else c - x.lastC.getD c
  let oldPos := s.fld (F.FB_POS_pos n)
  let pos := unsignedOf 32 c
  let gap : Int := if x.afresh then (pos : Int) - oldPos else 0
  let moved := x.afresh || change != 0
  let sign : Int := if change > 0 then 1 else if change < 0 then -1 else x.lastSign
  let turned := change ≠ 0 && x.lastSign ≠ 0 && sign ≠ x.lastSign
  let valid := if x.afresh then 1 else if change ≠ 0 then 2 else if s.fld (F.FB_FSTAT_valid n) = 0 then 0 else 2
  let s := s.setFbk n { x with
    lastC := some c, frames := 0, afresh := false, lastSign := sign, goodStamp := some t0,
    moved := if moved then t0 else x.moved, dC := change, dT := t0 - x.goodStamp.getD t0,
    uncounted := x.uncounted + gap }
  let s := ((s.setFlag (F.FB_FSTAT_hold n) false).setFlag (F.FB_FSTAT_stale n) false).setFld (F.FB_ERR_consec n) 0
  let s := (s.setFld (F.FB_POS_pos n) pos).setPair (A.FB_MTPOS n)
    (unsignedOf 64 (m * 2 ^ 32 + sv * 2 ^ (32 - st)))
  let s := s.setFld (F.FB_FSTAT_valid n) valid
  let s := if change = 0 then s else s.setFlag (F.FB_FSTAT_dir n) (decide (change < 0))
  let s := s.evalSpeed n
  if turned then s.directionChange n else s

/-- The BiSS-C CRC: polynomial x^6 + x + 1, start value 0, over bits sent first to last (R193). -/
def bissCrc (bits : List Bool) : Nat :=
  bits.foldl (fun c b =>
    let top := c.testBit 5
    let c := c * 2 % 64
    if top != b then c ^^^ 3 else c) 0

/-- The number whose bits, most significant first, are given. -/
def ofBits (bs : List Bool) : Nat := bs.foldl (fun a b => 2 * a + if b then 1 else 0) 0

/-- Bit k of a frame, k counting from 0 in the order sent. -/
def frameBit (nbits bits k : Nat) : Bool := k < nbits && bits.testBit (nbits - 1 - k)

/-- The counted values of a frame whose data begins at bit `pos` (R194). -/
def State.frameValues (s : State) (n nbits bits pos : Nat) : Int × Nat :=
  let mt := s.fld (F.FB_SER_mt n)
  let st := s.fld (F.FB_SER_st n)
  let take (p w : Nat) : Nat := ofBits ((List.range w).map fun k => frameBit nbits bits (p + k))
  let gray := s.flag (F.FB_SER_gray n)
  let mv := take pos mt
  let sv := take (pos + mt) st
  let mv := if gray then fromGray mt mv else mv
  let sv := if gray then fromGray st sv else sv
  (if mt = 0 then 0 else signedOf mt mv, sv)

/-- What an SSI frame shows: its error bits (R191), and its values. -/
def State.ssiFrame (s : State) (n nbits bits : Nat) : Nat × (Int × Nat) :=
  let lead := s.fld (F.FB_SER_lead n)
  let w := s.fld (F.FB_SER_mt n) + s.fld (F.FB_SER_st n)
  let data := (List.range w).map fun k => frameBit nbits bits (lead + k)
  let ones := (data.filter id).length
  let p := if frameBit nbits bits (lead + w) then 1 else 0
  let bad := match s.fld (F.FB_SER_parity n) with
    | 1 => (ones + p) % 2 != 0
    | 2 => (ones + p) % 2 != 1
    | _ => false
  (if bad then 16 else 0, s.frameValues n nbits bits lead)

/-- SLO fell within 16 periods of t0: ACK begins at the second MA rising edge and d (R192). -/
def State.ackInTime (s : State) (n : Nat) (ack : Bool) (d : Nat) : Bool :=
  ack && 3 * s.serPeriod n / 2 + d * countUnit ≤ 16 * s.serPeriod n

/-- The Start bit came within SER.ackmax periods after ACK began (R192). -/
def State.startInTime (s : State) (n start : Nat) : Bool := start ≤ s.fld (F.FB_SER_ackmax n)

/-- What a BiSS-C frame shows: its error bits (R192, R193), whether nW warns, and its values. Bit 0 is the Start bit,
bit 1 CDS. -/
def State.bissFrame (s : State) (n nbits bits : Nat) (ok : Bool) : Nat × Bool × (Int × Nat) :=
  if !ok then (8, false, (0, 0))
  else
    let w := s.fld (F.FB_SER_mt n) + s.fld (F.FB_SER_st n)
    let body := (List.range (w + 2)).map fun k => frameBit nbits bits (2 + k)
    let crc := ofBits ((List.range 6).map fun k => frameBit nbits bits (2 + w + 2 + k))
    let v := s.frameValues n nbits bits 2
    if 63 - crc ≠ bissCrc body then (16, false, v)
    else
      let warn := !frameBit nbits bits (2 + w + 1)
      (if frameBit nbits bits (2 + w) then 0 else 32, warn, v)

/-- The instant at which a frame that began at t0 ends, and the earliest start of the next (R191, R192, R195). A BiSS-C
frame without ACK or Start bit ends as that time runs out. -/
def State.frameEnds (s : State) (n : Nat) (t0 : Moment) (ack : Bool) (d start : Nat) : Moment × Moment :=
  let tp := s.serPeriod n
  let tm := s.fld (F.FB_SERT_tm n) * 1000 * nsUnit
  if s.fbMode n = 3 then
    let nb := s.ssiBits n
    (t0 + nb * tp + s.fld (F.FB_SERT_comp n) * countUnit, t0 + nb * tp + tp / 2 + tm)
  else if s.ackInTime n ack d then
    let w := s.fld (F.FB_SER_mt n) + s.fld (F.FB_SER_st n)
    let e := t0 + 3 * tp / 2 + d * countUnit +
      if s.startInTime n start then (start + 1 + w + 8) * tp + tp / 2 else s.fld (F.FB_SER_ackmax n) * tp
    (e, e + tm)
  else (Nat.max s.clk.time (t0 + 16 * tp), Nat.max s.clk.time (t0 + 16 * tp) + tm)

/-- The device drives F0 of its serial ports: unpaired or ACTIVE. A takeover changes that at the port's first latch trigger
after it, on both devices (R379). -/
def State.drivesClock (s : State) (n : Nat) : Bool :=
  let began := (s.fbkOf n).clock.map (·.1)
  match s.fld F.TWN_STAT_role with
  | 0 => true
  | 3 => (s.twin.driveFrom.all fun t => began.any (t < ·)) && s.twin.riseAt.all fun t => began.all (· ≤ t)
  | _ => false

/-- FRAME_END: a serial frame ends (R191 to R195, R197). A listening port follows the clock that the active drives: its
frame ends with the last sample at an edge that it sees, which is now, and it measures no delay of its own (R379,
log 54). -/
def State.frameEnd (s : State) (n nbits bits : Nat) (ack : Bool) (d start : Nat) : State :=
  let x := s.fbkOf n
  match x.frame with
  | none => s
  | some t0 =>
    let drives := s.drivesClock n
    let e : Moment × Moment := if drives then s.frameEnds n t0 ack d start
      else (s.clk.time, s.clk.time + s.fld (F.FB_SERT_tm n) * 1000 * nsUnit)
    let biss := s.fbMode n = 4
    let ack := s.ackInTime n ack d
    let s := (s.advanceTo e.1).setFbk n { x with
      frame := none, frameFree := e.2, clock := if biss then some (t0, some e.1) else x.clock }
    let r : Nat × Bool × (Int × Nat) :=
      if biss then s.bissFrame n nbits bits (ack && s.startInTime n start)
      else
        let f := s.ssiFrame n nbits bits
        (f.1, false, f.2)
    let s := if biss && ack && drives then s.setFld (F.FB_BDELAY_d n) d else s
    let s := if r.2.1 then s.feedbackError n 128 0 else s
    let st := s.fld (F.FB_SER_st n)
    let c : Int := r.2.2.1 * 2 ^ st + r.2.2.2
    let max := s.fld (F.FB_MAXSTEP_step n)
    let jump := r.1 = 0 && !x.afresh && max ≠ 0 && (c - x.lastC.getD c).natAbs > max * x.frames
    let errs := if jump then 64 else r.1
    let s := if errs = 0 then s.goodFrame n t0 r.2.2.1 st r.2.2.2 else s.badFrame n errs
    s.latchTokens n t0

/-- LATCH: the trigger instant of a port (R195 to R198). -/
def State.latch (s : State) (n : Nat) : State :=
  let x := s.fbkOf n
  match x.due with
  | [] => s
  | t :: rest =>
    let s := (s.advanceRaw t).setFbk n { x with due := rest }
    let t := s.clk.time
    let s := s.setPair (A.FB_STAMP n) (t / nsUnit)
    if !s.fbSerial n then ((s.setFbk n { s.fbkOf n with latchedAt := some t }).evalSpeed n).latchTokens n t
    else if x.frame.isSome || t < x.frameFree then
      let s := (s.countFld (F.FB_CNT2_drop_cnt n)).raise (F.FB_STATUS_dropped n)
      (s.setFlag (F.FB_FSTAT_stale n) true).latchTokens n t
    else
      let s := s.setFbk n { s.fbkOf n with frames := x.frames + 1 }
      if !x.lines.testBit 1 then (s.badFrame n 8).latchTokens n t
      else
        let tp := s.serPeriod n
        let high := if s.fbMode n = 3 then some (t + s.ssiBits n * tp + tp / 2) else none
        s.setFbk n { s.fbkOf n with frame := some t, clock := some (t, high) }

/-- The level of F0 of a serial port: it falls at t0 and at each further period, rises half a period later, and stays high
once the frame's clocks have passed (R181, R191, R192); none where the port listens (R379), and before the first entry into
CONFIGURE (R480). -/
def State.serialClock (s : State) (n : Nat) : Option Bool :=
  if !s.balls || !s.fbSerial n || !s.drivesClock n then none
  else
    match (s.fbkOf n).clock with
    | none => some true
    | some (t0, high) =>
      let tp := s.serPeriod n
      some ((high.any fun e => e ≤ s.clk.time) || tp / 2 ≤ (s.clk.time - t0) % tp)

/-! ## Encoder emulation (R206 to R208) -/

def State.emuOf (s : State) (b : Nat) : Emu := Tab.get (fun _ => {}) s.emu b

def State.setEmu (s : State) (b : Nat) (x : Emu) : State := { s with emu := Tab.set (fun _ => {}) s.emu b x }

/-- POS of the source slice, extended without wrap (R206). -/
def State.emuFollow (s : State) (b : Nat) : Emu :=
  let x := s.emuOf b
  let pos := s.fld (F.FB_POS_pos (s.fld (F.EMU_CFG_slice b)))
  { x with x := x.x + signedOf 32 (pos + 2 ^ 32 - x.lastPos), lastPos := pos }

/-- The target in output counts (R206); a coordinate source keeps the target of the last tick. -/
def State.emuTarget (s : State) (b : Nat) : Int :=
  if s.flag (F.EMU_CFG_src b) then (s.emuOf b).target
  else (s.emuFollow b).x * s.ipair (A.EMU_SCALE b) / 2 ^ 32

/-- The target that a coordinate source has at a tick: floor(x × SCALE) (R206). -/
def State.emuCoordTarget (s : State) (b : Nat) : Int :=
  let v : Coord := Tab.get (fun _ => {}) s.coord (s.fld (F.EMU_CFG_coord b))
  v.value * s.ipair (A.EMU_SCALE b) / (coordUnit * 2 ^ 64)

/-- Target minus emitted, as it stands (R207). -/
def State.emuLag (s : State) (b : Nat) : Int := s.emuTarget b - s.ipair (A.EMU_EMITTED b)

/-- BACKLOG: target minus emitted, saturated for reading (R207). -/
def State.emuBacklog (s : State) (b : Nat) : Nat := unsignedOf 32 (clampInt (-(2 ^ 31 - 1)) (2 ^ 31 - 1) (s.emuLag b))

/-- BACKLOG and STAT.lag are brought up to date (R207). -/
def State.emuShow (s : State) (b : Nat) : State :=
  (s.setFld (F.EMU_BACKLOG_backlog b) (s.emuBacklog b)).setFlag (F.EMU_STAT_lag b) (decide (s.emuLag b ≠ 0))

/-- At a coordinate tick: the source is followed, and a coordinate source takes its new target; the changes it needs
are spread from the tick on. Where more are still to come than the one that is due now, all go at the maximum rate until
the port catches up (R206, R207). -/
def State.emuTick (s : State) (b : Nat) : State :=
  let s := s.setEmu b (s.emuFollow b)
  let s :=
    if s.flag (F.EMU_CFG_src b) then
      let x := s.emuOf b
      let t := s.emuCoordTarget b
      let e := s.ipair (A.EMU_EMITTED b)
      let left := (x.target - e).natAbs
      let n := (t - x.target).natAbs
      let sep := s.fld (F.EMU_MINSEP_sep b)
      let now := s.clk.time
      if left > 1 || left = 1 && x.next.any (now < ·) then
        s.setEmu b { x with target := t, gap := sep, next := x.last.map (· + sep * countUnit) }
      else
        let gap := if n = 0 then sep else Nat.max sep (400 / n)
        s.setEmu b { x with
          target := t, gap := gap, next := some (if left = 0 then now + gap * countUnit else now) }
    else s
  s.emuShow b

/-- EMU_CHANGE: one quadrature state change toward the target (R207). -/
def State.emuChange (s : State) (b : Nat) : State :=
  if !s.flag (F.EMU_CFG_enable b) then s
  else
    let s := s.setEmu b (s.emuFollow b)
    let e := s.ipair (A.EMU_EMITTED b)
    let t := s.emuTarget b
    if t = e then s
    else
      let x := s.emuOf b
      let soonest : Moment := match x.last with
        | some l => l + s.fld (F.EMU_MINSEP_sep b) * countUnit
        | none => 0
      let s := s.advanceTo (if s.flag (F.EMU_CFG_src b) then Nat.max soonest (x.next.getD 0) else soonest)
      let s := s.setPair (A.EMU_EMITTED b) (unsignedOf 64 (if t > e then e + 1 else e - 1))
      (s.setEmu b { s.emuOf b with last := some s.clk.time, next := some (s.clk.time + x.gap * countUnit) }).emuShow b

/-- EMU_ENABLE: a host write of EMU CFG.enable. Setting it takes the target as the emitted count (R208). -/
def State.emuEnable (s : State) (b : Nat) (on : Bool) : State :=
  s.hostGate (A.EMU_CFG b) (if on then 1 else 0) fun s =>
    let was := s.flag (F.EMU_CFG_enable b)
    let s := s.setFlag (F.EMU_CFG_enable b) on
    if on && !was then
      let pos := s.fld (F.FB_POS_pos (s.fld (F.EMU_CFG_slice b)))
      let s := s.setEmu b { s.emuOf b with x := signedOf 32 pos, lastPos := pos, last := none }
      let s := s.setEmu b { s.emuOf b with target := s.emuCoordTarget b }
      (s.setPair (A.EMU_EMITTED b) (unsignedOf 64 (s.emuTarget b))).emuShow b
    else s

/-- The levels of EA, EB and EZ of a bank (R207, R208): none while they are high-impedance, before the first entry into
CONFIGURE (R480). -/
def State.emuBalls (s : State) (b : Nat) : Option (Bool × Bool × Bool) :=
  let pol := s.flag (F.EMU_CFG_pol b)
  if !s.balls then none
  else if !s.flag (F.EMU_CFG_enable b) then some (pol, pol, pol)
  else
    let e := s.pair (A.EMU_EMITTED b)
    let per := s.fld (F.EMU_ZPER_per b)
    let z := per ≠ 0 && unsignedOf 64 (s.ipair (A.EMU_EMITTED b) % per) == s.fld (F.EMU_ZPOS_pos b)
    let a := e % 4 == 1 || e % 4 == 2
    let q := e % 4 == 2 || e % 4 == 3
    some (a != pol, q != pol, z != pol)

/-- The level of a slice's compare output on F2 when it drives that ball (R183, R480). -/
def State.cmpBall (s : State) (n : Nat) : Option Bool :=
  if s.balls && s.flag (F.FB_CFG_f2_out n) && !(s.fbMode n == 2) && !(s.fbMode n == 0) then
    some (s.flag (F.FB_FSTAT_cmp n) != s.flag (F.FB_CFG_cmp_pol n))
  else none

end Sys2Proof.Machine
end

