-- ==== Sys2Proof/Machine/Coord.lean ====
section
/-!
DEFINITION. Driving coordinates at a tick, the PHASE ball, HOST steps, and the evaluation of the delay lists
(R50 to R64).
-/

namespace Sys2Proof.Machine

/-- Sources of a coordinate (R51). -/
def State.coordSource (s : State) (n : Nat) : Nat := s.fld (F.K_CFG_source n)

/-- STATUS.state of a coordinate: 0 OFF, 1 RUN, 2 LOST, 3 SATURATED (R66). -/
def State.coordState (s : State) (n : Nat) : Nat := s.fld (F.K_STATUS_state n)

/-- The least and the greatest value (R56). -/
def coordMax : Int := (2 ^ 63 - 1) * coordUnit
def coordMin : Int := -(2 ^ 63 : Int) * coordUnit

/-! ## The effective factor (R52, R53) -/

/-- m: the lowest factor published for a group of the mask; 1,024 where none is published (R52, R331). -/
def State.maskFactor (s : State) (mask : Nat) : Nat :=
  if s.saf.factored then
    foldUpTo 8 (fun m g => if mask.testBit g then Nat.min m (s.fld (F.SG_FACTOR_f g)) else m) 1024
  else 1024

/-- The target of f with an override (R51, R52). -/
def State.factorTarget (s : State) (n override : Nat) : Nat :=
  let src := s.coordSource n
  if src = 1 || src = 5 then
    Nat.min 1024 override * s.maskFactor (s.fld (F.K_CFG_groups n)) / 1024
  else 1024

/-- f at this tick: a decrease in full, an increase limited by RISE.rate (R53). -/
def Coord.rise (x : Coord) (f target rate : Nat) : Coord × Nat :=
  if target ≤ f then ({ x with riseBase := target, riseTick := 0, riseTarget := target }, target)
  else if target > x.riseTarget || f = x.riseTarget then
    ({ x with riseBase := f, riseTick := 0, riseTarget := target }, f)
  else
    let n := x.riseTick + 1
    ({ x with riseTick := n, riseTarget := target }, Nat.min target (x.riseBase + n * rate / 1000))

/-- The factor in force at this tick, from the overrides, the published factors and the setup that were there before the
tick's count (R52 to R54, R402). -/
def State.factorTick (s : State) (n : Nat) : State :=
  let b := s.asOf
  let x := s.coordOf n
  let s := s.setCoord n { x with override := x.override.filter fun o => !s.cameBefore o.2.2 }
  let s := s.each (x.override.filter fun o => s.cameBefore o.2.2) fun s o =>
    (s.setFld (F.K_OVERRIDE_factor n) (Nat.min 1024 o.1)).finishDone? o.2.1
  let target := b.factorTarget n (s.fld (F.K_OVERRIDE_factor n))
  let r := (s.coordOf n).rise (s.fld (F.K_FACTOR_f n)) target (b.fld (F.K_RISE_rate n))
  let src := b.coordSource n
  if src = 1 || src = 5 then (s.setCoord n r.1).setFld (F.K_FACTOR_f n) r.2
  else
    (s.setCoord n { s.coordOf n with riseBase := 1024, riseTick := 0, riseTarget := 1024 }).setFld (F.K_FACTOR_f n) 1024

/-! ## PHASE (R58) -/

/-- The phase at a moment, in 2^-32 cycles: the edges counted, and the part of the present cycle at the last measured
period, below one cycle. -/
def Phase.phi (p : Phase) (now : Nat) : Nat :=
  match p.lastEdge with
  | none => 0
  | some e => p.edges * 2 ^ 32 + if p.period = 0 then 0 else Nat.min (2 ^ 32 - 1) ((now - e) * 2 ^ 32 / p.period)

/-- The period lies in 40 Hz to 70 Hz (R58). -/
def phaseInRange (ns : Nat) : Bool := 40 * ns ≤ 1000000000 && 1000000000 ≤ 70 * ns

/-- Three periods, of four consecutive edges, lie within 1 % of one another. -/
def phaseAgrees (ps : List Nat) : Bool :=
  ps.length ≥ 3 && ps.all phaseInRange && ps.all fun a => ps.all fun b => 100 * a ≤ 101 * b

/-- The PHASE coordinates enter LOST (R57, R58). -/
def State.coordLose (s : State) (n : Nat) : State :=
  if s.coordState n = 2 then s
  else (((s.setFld (F.K_STATUS_state n) 2).countFld (F.K_STATUS_lost_cnt n)).tally .coordLost (.coord n))

/-- PHASE_UNLOCK: no edge within two periods of the last measured frequency (R58). -/
def State.phaseUnlock (s : State) : State :=
  if !s.flag F.CRD_PHASE_locked then s
  else
    let s := s.advanceTo ((s.phase.lastEdge.getD 0 + 2 * s.phase.period) * nsUnit)
    let s := { (s.setFlag F.CRD_PHASE_locked false) with phase := { s.phase with periods := [] } }
    s.each (List.range 16) fun s n => if s.coordSource n = 4 then s.coordLose n else s

/-- PHASE_EDGE: a filtered edge of the PHASE ball; the selected one marks a cycle boundary (R58). -/
def State.phaseEdge (s : State) (rising : Bool) : State :=
  if rising == s.flag ⟨A.CRD_PHASE, 0, 1⟩ then s
  else
    let t := s.now
    let p := s.phase
    match p.lastEdge with
    | none => { s with phase := { p with lastEdge := some t, edges := p.edges + 1 } }
    | some e =>
      let d := t - e
      let periods := (d :: p.periods).take 3
      let s : State := { s with phase := { lastEdge := some t, periods := periods, edges := p.edges + 1,
                                           period := if phaseInRange d then d else p.period,
                                           lockedPeriod := if s.flag F.CRD_PHASE_locked && phaseInRange d then d
                                             else p.lockedPeriod } }
      let s := if phaseInRange d then s.setFld ⟨A.CRD_PHASE, 16, 16⟩ (256000000000 / d) else s
      if s.flag F.CRD_PHASE_locked then s
      else if phaseAgrees periods then
        let s := ({ s with phase := { s.phase with lockedPeriod := s.phase.period } } : State).setFlag
          F.CRD_PHASE_locked true
        s.each (List.range 16) fun s n =>
          if s.coordSource n = 4 then
            (s.setCoord n { s.coordOf n with lastPhi := some (s.phase.phi t) }).setFld (F.K_STATUS_state n) 1
          else s
      else s

/-! ## LINK (R57) -/

/-- COORD_LOST: no fresh record for CFG.timeout link cycles (R57). -/
def State.coordLost (s : State) (n : Nat) : State :=
  if s.coordSource n = 3 && (s.coordOf n).stale ≥ s.fld (F.K_CFG_timeout n) && s.coordState n != 2 then
    (s.coordLose n).signalEvent
  else s

/-- A fresh record of a LINK coordinate: value, rate, sender's stamp (R57). -/
def State.linkRecord (s : State) (n : Nat) (value rate : Int) (stamp : Nat) : State :=
  let s := s.setCoord n { s.coordOf n with link := some { value := value, rate := rate, stamp := stamp }, stale := 0 }
  if s.coordSource n = 3 && s.coordState n = 2 then s.setFld (F.K_STATUS_state n) 1 else s

/-! ## One coordinate at a tick (R50, R51, R55, R56) -/

/-- A HOST coordinate consumes its step, if one was queued before the tick's count (R51, R54, R59): the value's increment,
the rate, and the command that is done. -/
def State.hostTick (s : State) (x : Coord) (f : Nat) : Coord × Int × Int × Option (Nat × Nat) :=
  match x.steps with
  | [] => (x, 0, 0, none)
  | t :: ts =>
    if !s.cameBefore t.since then (x, 0, 0, none) else
    let done := t.progress + f
    let d := t.duration
    let part (p : Nat) : Int := t.delta * coordUnit * p / (1024 * d : Nat)
    let rate : Int := t.delta * 1000000 * f / (1024 * d : Nat)
    if done ≥ 1024 * d then ({ x with steps := ts }, t.delta * coordUnit - part t.progress, rate, t.cmd)
    else ({ x with steps := { t with progress := done } :: ts }, part done - part t.progress, rate, none)

/-- The counted position of an ENCODER slice: POS without the changes that count for nothing (R51, R195). An index reset
and a PRESET change POS and so count as count changes (DEDUCED, log 75). -/
def State.encoderPos (s : State) (n : Nat) : Int :=
  let k := s.fld (F.K_CFG_slice n)
  (s.fld (F.FB_POS_pos k) : Int) - (s.fbkOf k).uncounted

/-- The increment of one tick of 1 us at a rate of `num` / `den` Q32.32 units per second, in 2^-64 units: what lies below
them is dropped (R50, log 75). -/
def tickStep (num : Int) (den : Nat) : Int := num * coordUnit / (den * 1000000 : Nat)

/-- A coordinate's source is another than at the last tick (R55). -/
def State.sourceChanged (s : State) (n : Nat) : Bool := s.asOf.coordSource n != (s.coordOf n).lastSource

/-- A coordinate whose source, or whose ENCODER slice, is another than at the last tick: the value carries on from where
it stands, and what the former source left is dropped (R55, log 75). -/
def State.sourceSwitched (s : State) (n : Nat) : State :=
  let x := s.coordOf n
  let slice := s.asOf.fld (F.K_CFG_slice n)
  if s.sourceChanged n then
    s.setCoord n { x with lastSource := s.asOf.coordSource n, lastSlice := slice, lastPos := none, lastPhi := none,
                          link := none, stale := 0 }
  else if slice = x.lastSlice then s
  else s.setCoord n { x with lastSlice := slice, lastPos := none, lastPhi := none }

/-- What a coordinate's source gives at this tick: the coordinate, the new value before the limits of R56, and the
rate; all of it from what was there before the tick's count (R54). A rate's fraction below 2^-32 is dropped, toward minus
infinity (log 75). -/
def State.sourceTick (s : State) (n : Nat) : Coord × Int × Int × Option (Nat × Nat) :=
  let x := s.coordOf n
  let f := s.fld (F.K_FACTOR_f n)
  let b := s.asOf
  let scale := b.ipair (A.K_SCALE n)
  let x' := { x with lastPos := none, lastPhi := none }
  match b.coordSource n with
  | 1 => (x', x.value + tickStep (scale * f) 1024, scale * f / 1024, none)
  | 2 =>
    let p := b.encoderPos n
    let d : Int := match x.lastPos with
      | some q => signedOf 32 (unsignedOf 32 (p - q))
      | none => 0
    let v := b.speedRatio (b.fld (F.K_CFG_slice n))
    let rate : Int := if v.2 = 0 then 0 else scale * v.1 * (1000000000 * 2 ^ 32) / v.2
    ({ x' with lastPos := some p }, x.value + scale * d * coordUnit, rate, none)
  | 3 =>
    match x.link with
    | some r => (x', r.value * coordUnit + r.rate * ((s.now : Int) - r.stamp) * coordUnit / 1000000000, r.rate, none)
    | none => (x', x.value, 0, none)
  | 4 =>
    let locked := b.flag F.CRD_PHASE_locked
    let period := if locked then b.phase.period else b.phase.lockedPeriod
    let freq : Int := if period = 0 then 0 else scale * 1000000000 / period
    if locked then
      let phi := b.phase.phi s.now
      let d : Int := (phi : Int) - x.lastPhi.getD phi
      ({ x' with lastPhi := some phi }, x.value + scale * d, freq, none)
    else (x', x.value + if period = 0 then 0 else tickStep (scale * 1000000000) period, freq, none)
  | 5 =>
    let h := s.hostTick x' f
    (h.1, x.value + h.2.1, h.2.2.1, h.2.2.2)
  | _ => (x', x.value, 0, none)

/-- A coordinate's value, rate and state at a tick (R50, R51, R56 to R58). -/
def State.coordTick (s : State) (n : Nat) : State :=
  let s := s.factorTick n
  let old := (s.coordOf n).value
  let (x, v, rate, cmd) := s.sourceTick n
  let src := s.asOf.coordSource n
  let beyond := v > coordMax || v < coordMin
  let v' := clampInt coordMin coordMax v
  let held := s.coordState n = 3 && v' = old && src ≠ 0
  let s := s.setCoord n { x with prev := old, value := v' }
  let s := s.setPair (A.K_VALUE n) (unsignedOf 64 (v' / coordUnit))
  let s := s.setPair (A.K_RATE n) (unsignedOf 64 (if beyond || held then 0 else rate))
  let s :=
    if src = 0 then s.setFld (F.K_STATUS_state n) 0
    else if beyond then
      if s.coordState n = 3 then s
      else (s.setFld (F.K_STATUS_state n) 3).tally .coordSaturated (.coord n)
    else if held then s
    else if src = 4 && !s.asOf.flag F.CRD_PHASE_locked then s.coordLose n
    else if src = 3 && s.coordState n = 2 then s
    else s.setFld (F.K_STATUS_state n) 1
  let s := s.setFld (F.K_HOSTQ_count n) x.steps.length
  s.finishDone? cmd

/-! ## COORD_STEP and OVERRIDE_SET (R59, R402) -/

/-- The checks of COORD_STEP (R59, R402). -/
def State.coordStepCheck (s : State) (n duration : Nat) : Option (Reason × Nat) :=
  let waiting := s.waitingTake fun c => match c with
    | .coordStep n' _ _ => if n'.toNat == n then 1 else 0
    | _ => 0
  if n > 15 || duration = 0 || s.coordSource n ≠ 5 then some (.paramInvalid, 0)
  else if (s.coordOf n).steps.length + waiting ≥ 65535 then some (.queueFull, 0)
  else none

/-- A step joins the coordinate's queue (R59). -/
def State.coordStepBegin (s : State) (n delta duration : Nat) (cmd : Option (Nat × Nat)) : State :=
  let x := s.coordOf n
  let t : HostStep := { cmd := cmd, delta := signedOf 64 delta, duration := duration, since := s.clk.time }
  (s.setCoord n { x with steps := x.steps ++ [t] }).setFld (F.K_HOSTQ_count n) (x.steps.length + 1)

/-- The override waits for the next tick (R402). A factor above 1,024 counts as 1,024 (R5). -/
def State.overrideBegin (s : State) (n factor : Nat) (cmd : Option (Nat × Nat)) : State :=
  let x := s.coordOf n
  s.setCoord n { x with override := x.override ++ [(factor, cmd, s.clk.time)] }

/-! ## Delay lists at a tick (R60 to R62) -/

/-- An entry fires at this tick (R61). -/
def DlEntry.fires (e : DlEntry) (m : Nat) (v : Int) : Bool :=
  e.late ||
    if m = 0 then decide (e.key ≤ v)
    else if e.dir = 0 then decide (e.key ≤ v)
    else if e.dir = 1 then decide (v ≤ e.key)
    else e.side = 0 || v = e.key || (decide (e.side < 0) && decide (v > e.key)) || (decide (e.side > 0) && decide (v < e.key))

/-- Insertion into a list ordered by key, after entries with an equal key. -/
def dlSortInsert (up : Bool) (e : DlEntry) : List DlEntry → List DlEntry
  | [] => [e]
  | x :: xs =>
    if (if up then decide (e.key < x.key) else decide (x.key < e.key)) then e :: x :: xs else x :: dlSortInsert up e xs

/-- A list at a coordinate tick: new entries are registered, those that fire are put in order, up to 8 are due for
delivery and the others are deferred (R54, R61, R62). Of a coordinate that stands still the order is that of ascending
keys (log 75). An entry inserted in the tick's own count is evaluated at the next tick (R54, R492). -/
def State.dlTick (s : State) (m : Nat) : State :=
  let l := s.dlist m
  let v := s.dlValue m
  let x := s.coordOf (s.fld (F.DL_CFG_coord m))
  let up := m = 0 || decide (x.prev ≤ x.value)
  let waiting := l.entries.filter fun e => e.fired.isSome
  let fresh := l.entries.filter fun e => !s.cameBefore e.since
  let rest := l.entries.filter fun e => e.fired.isNone && s.cameBefore e.since
  let new := (rest.filter fun e => e.fires m v).foldl (fun acc e => dlSortInsert up e acc) []
  let still := (rest.filter fun e => !e.fires m v).map fun e => { e with registered := true, cmd := none }
  let stamp (e : DlEntry) : DlEntry := { e with fired := some (e.fired.getD s.now), registered := true, cmd := none }
  let order := waiting ++ new.map stamp
  let out := order.take 8
  let kept := order.drop 8
  let deferred := (kept.length - (waiting.length - 8))
  let s' := s.setDlist m { entries := kept ++ still ++ fresh, due := l.due ++ out.map fun e => (e, e.fired.getD s.now) }
  let s' := (s'.countFld (F.DL_LATE_late m) (new.filter (·.late)).length).countFld (F.DL_LATE_deferred m) deferred
  let s' := s'.setFld (F.DL_STAT_count m) (kept.length + still.length + fresh.length)
  s'.each (rest.filter fun e => e.cmd.isSome) fun s e => s.finishDone? e.cmd

/-- DL_ENTRY_FIRE: the next due entry's token is delivered (R61, R62, R239, R251). -/
def State.dlEntryFire (s : State) (m : Nat) : State :=
  let l := s.dlist m
  match l.due with
  | [] => s
  | (e, t) :: rest => (s.setDlist m { l with due := rest }).send e.stall e.slot e.data Src.delay (some t) e.late 0 none m

end Sys2Proof.Machine
end

