-- ==== Sys2Proof/Machine/Motion.lean ====
section
/-!
DEFINITION. Segment queues and the profile engines: appending, skipping and flushing, prefetch, progress against the
coordinate, the normalised profile and set-points (R93 to R115, R214).
-/

namespace Sys2Proof.Machine

/-! ## The profile of a JOINT_LINEAR segment (R109, R110), in 40 fraction bits -/

/-- The integer cube root, rounded down, by bisection over `k` bits. -/
def icbrtBits : Nat → Nat → Nat → Nat
  | 0, _, acc => acc
  | k + 1, n, acc =>
    let c := acc + 2 ^ k
    if c * c * c ≤ n then icbrtBits k n c else icbrtBits k n acc

/-- The integer cube root of a number below 2^192, rounded down. -/
def icbrt (n : Nat) : Nat := icbrtBits 64 n 0

/-- A normalised limit: limit × scale / |delta|; 2^-40 where that truncates to 0 (R110). PROFILE_RANGE speaks of D and the
phase times only: a limit above the 64-bit format is kept as it is (DESIGN CHOICE, log 85). -/
def normLimit (limit scale : Nat) (delta : Int) : Nat := Nat.max 1 (limit * scale * 2 ^ 40 / delta.natAbs)

/-- The least of the normalised limits of the moving joints; none when no joint moves. -/
def leastLimit (xs : List (Nat × Int)) (scale : Nat) : Option Nat :=
  xs.foldl (fun (acc : Option Nat) (x : Nat × Int) =>
    if x.2 = 0 then acc
    else
      let v := normLimit x.1 scale x.2
      match acc with
      | none => some v
      | some a => some (Nat.min a v)) none

/-- The phase times where the peak speed is not reached (R110): ta and tj. The root is taken of an exact quotient: ta
truncates to a negative number when the root is at most 3 tj - 2 in units of 2^-40. -/
def shortPhases (tj an jn : Nat) : Nat × Nat :=
  let num := tj * tj * an + 4 * 2 ^ 120
  let r := isqrt (num / an)
  if r ≥ 3 * tj then ((r - 3 * tj) / 2, tj)
  else if num ≤ (3 * tj - 2) * (3 * tj - 2) * an then (0, icbrt (2 ^ 159 / jn))
  else (0, tj)

/-- The profile of the normalised limits, by the procedure of R110. -/
def profileOf (vn an jn : Nat) : Profile :=
  let tj := an * 2 ^ 40 / jn
  let (tj, ta, an) :=
    if vn * jn < an * an then
      let t := isqrt (vn * 2 ^ 80 / jn)
      (t, 0, Nat.max 1 (jn * t / 2 ^ 40))
    else (tj, vn * 2 ^ 40 / an - tj, an)
  let tacc := 2 * tj + ta
  if vn * tacc ≤ 2 ^ 80 then
    { vn := vn, an := an, jn := jn, tj := tj, ta := ta, tacc := tacc, tv := (2 ^ 80 - vn * tacc) / vn }
  else
    let (ta, tj) := shortPhases tj an jn
    { vn := vn, an := an, jn := jn, tj := tj, ta := ta, tacc := 2 * tj + ta, tv := 0 }

/-- D of a profile: 2 tacc + tv rounded up to a multiple of 2^-32, in 40 fraction bits (R110). -/
def Profile.length (p : Profile) : Nat := (2 * p.tacc + p.tv + 255) / 256 * 256

/-- D and the phase times fit the format (R110). -/
def Profile.fits (p : Profile) : Bool :=
  p.length < 2 ^ 63 && p.tj < 2 ^ 63 && p.ta < 2 ^ 63 && p.tacc < 2 ^ 63 && p.tv < 2 ^ 63

/-- s, s' and s'' over the acceleration phase and the constant-speed phase, at `t` after the start, exactly: the
numerators over 6 × 2^160, 2^81 and 2^80 (times with 40 fraction bits, jerk jn). -/
def accelPart (p : Profile) (t : Nat) : Int × Int × Int :=
  let j : Int := p.jn
  let tj : Int := p.tj
  let ta : Int := p.ta
  let pk : Int := j * tj
  if t < p.tj then
    let t : Int := t
    (j * t * t * t, j * t * t, j * t)
  else if t < p.tj + p.ta then
    let d : Int := (t : Int) - tj
    (j * tj * tj * tj + 3 * j * tj * tj * d + 3 * pk * d * d, j * tj * tj + 2 * pk * d, pk)
  else
    let s2 := j * tj * tj * tj + 3 * j * tj * tj * ta + 3 * pk * ta * ta
    let v2 := j * tj * tj + 2 * pk * ta
    if t < p.tacc then
      let d : Int := (t : Int) - tj - ta
      (s2 + 3 * v2 * d + 3 * pk * d * d - j * d * d * d, v2 + 2 * pk * d - j * d * d, pk - j * d)
    else
      let v3 := v2 + 2 * pk * tj - j * tj * tj
      let s3 := s2 + 3 * v2 * tj + 3 * pk * tj * tj - j * tj * tj * tj
      (s3 + 3 * v3 * ((t : Int) - p.tacc), v3, 0)

/-- s(u) and its derivatives, each truncated to 40 fraction bits; the second half mirrors the first (R110). `u` has 40
fraction bits. -/
def Profile.eval (p : Profile) (u : Nat) : Int × Int × Int :=
  let total := 2 * p.tacc + p.tv
  let cut (x : Int × Int × Int) : Int × Int × Int :=
    (Int.tdiv x.1 (6 * 2 ^ 120), Int.tdiv x.2.1 (2 * 2 ^ 80), Int.tdiv x.2.2 (2 ^ 40))
  if u ≥ total then (2 ^ 40, 0, 0)
  else if u ≤ p.tacc + p.tv then cut (accelPart p u)
  else
    let r := cut (accelPart p (total - u))
    (2 ^ 40 - r.1, r.2.1, -r.2.2)

/-! ## Set-points (R108, R111, R214) -/

def Grp.setpOf (x : Grp) (j : Nat) : Setp := Tab.get (fun _ => {}) x.setp j

/-- The part of a joint's set-point that a track gives: displacement and feedforwards, for a coordinate rate (Q32.32)
and h (R108, R111). `u42` has 42 fraction bits. -/
def Track.part (t : Track) (j : Nat) (target rate : Int) (h : Nat) (u42 : Int) : Int × Int × Int :=
  if t.seg.kind = 1 && t.seg.joints.testBit j then
    let d := target - t.q0.getD j 0
    let e := t.prof.eval (u42.toNat / 4)
    let w := rate * h
    (Int.tdiv (d * e.1) (2 ^ 40), Int.tdiv (d * e.2.1 * w) (2 ^ 98), Int.tdiv (d * e.2.2 * w * w) (2 ^ 140))
  else (0, 0, 0)

/-- The coordinate rate a track moves with. -/
def State.trackRate (s : State) (t : Track) : Int := s.ipair (A.K_RATE t.seg.coord)

/-- The set-point of joint j of an ACTIVE group, with the current track's u advanced by `ahead` (R108, R112, R116). -/
def State.trackSetp (s : State) (x : Grp) (h j : Nat) (ahead : Int) : Setp :=
  let last := x.setpOf j
  match x.cur with
  | none => { last with vff := 0, aff := 0 }
  | some t =>
    let rate := s.trackRate t
    let at' (t : Track) : Int := clampInt 0 t.len (t.u + ahead)
    let a := t.part j (t.seg.targets.getD j 0) rate h (at' t)
    if t.seg.kind = 1 && t.seg.joints.testBit j then
      let b := match x.next with
        | some n => n.part j (n.seg.targets.getD j 0) rate h (at' n)
        | none => (0, 0, 0)
      { pos := t.q0.getD j 0 + a.1 + b.1, vff := sat32 (a.2.1 + b.2.1), aff := sat32 (a.2.2 + b.2.2) }
    else
      match x.next with
      | some n =>
        if n.seg.joints.testBit j then
          let b := n.part j (n.seg.targets.getD j 0) rate h (at' n)
          { pos := n.q0.getD j 0 + b.1, vff := sat32 b.2.1, aff := sat32 b.2.2 }
        else { last with vff := 0, aff := 0 }
      | none => { last with vff := 0, aff := 0 }

/-- The measured position of a joint, Q32.32 rev, as R214 forms it. -/
def State.measured (s : State) (g j n : Nat) : Int :=
  let cur := (s.groupLaws g).find? fun k => s.lawByte k 0 == 1 && s.lawByte k 1 % 64 == n
  match cur with
  | some k =>
    let rec0 := 0x7E0000 + k * 0x100
    let cpr := memNat s.sram (rec0 + 32) 4
    let gear := memNat s.sram (rec0 + 96) 4
    let den := cpr * gear
    if den = 0 then ((s.grpOf g).setpOf j).pos
    else
      let v : Int := s.ifld (F.FB_POS_pos n) * 2 ^ 48 / den
      (v + 2 ^ 39) % 2 ^ 40 - 2 ^ 39
  | none =>
    if s.fld (F.STP_CFG_mode n) ≠ 0 then
      let spr := s.fld (F.STP_SPR_spr n)
      if spr = 0 then ((s.grpOf g).setpOf j).pos else s.ifld (F.STP_POS_pos n) * 2 ^ 32 / spr
    else ((s.grpOf g).setpOf j).pos

/-- The set-points of a group written to the table at shared SRAM 0x7F_0000, the stamp last, by a grant of class 2 to its
profile engine (R26, R214). -/
def State.writeSetps (s : State) (g : Nat) : State :=
  let s := if s.jointCount g = 0 then s else s.grantTo 2 (Src.profile * 2 ^ 16 + g)
  s.each (List.range (s.jointCount g)) fun s j =>
    let p := (s.grpOf g).setpOf j
    let a := 0x7F0000 + (g * 16 + j) * 0x20
    s.sramWrite a (toBytes 8 (unsignedOf 64 p.pos) ++ toBytes 4 (unsignedOf 32 p.vff) ++
      toBytes 4 (unsignedOf 32 p.aff) ++ toBytes 8 s.now)

/-- The set-points of a group at this tick (R108, R111, R214). -/
def State.setpTick (s : State) (g : Nat) : State :=
  let x := s.grpOf g
  let st := s.engineState g
  let h := s.fld (F.MG_HFACT_h g)
  let ns := s.groupSlices g
  let new (j n : Nat) : Setp :=
    if st = 0 then { pos := s.measured g j n }
    else if st = 1 then { x.setpOf j with vff := 0, aff := 0 }
    else s.trackSetp x h j 0
  let setp := (List.range ns.length).foldl (fun t j => Tab.set (fun _ => {}) t j (new j (ns.getD j 0))) x.setp
  (s.setGrp g { x with setp := setp }).writeSetps g

/-! ## Segments become current and complete (R99, R102 to R104, R109 to R115) -/

/-- The value K that the coordinate of a segment shows. -/
def State.segCoord (s : State) (n : Nat) : Int := (s.coordOf n).shown

/-- Joint limits in rev per coordinate unit (R109). -/
def State.limits (s : State) (g j : Nat) : Nat × Nat × Nat :=
  ((s.reg (A.LIM_V_A_J g j 0)).toNat, (s.reg (A.LIM_V_A_J g j 1)).toNat, (s.reg (A.LIM_V_A_J g j 2)).toNat)

/-- The start of joint j: the target of the previous JOINT_LINEAR when every segment since then completed, else its
set-point (R111). -/
def Grp.startOf (x : Grp) (j : Nat) : Int := (Tab.get (fun _ => none) x.targets j).getD (x.setpOf j).pos

/-- The displacements of the masked joints (R111). -/
def Seg.deltas (g : Seg) (q0 : List Int) : List Int :=
  (List.range 16).map fun j => if g.joints.testBit j then g.targets.getD j 0 - q0.getD j 0 else 0

/-- The profile of a JOINT_LINEAR segment from given starts; none when no joint moves (R109, R110). -/
def State.segProfile (s : State) (g : Nat) (x : Seg) (q0 : List Int) : Option Profile :=
  let ds := x.deltas q0
  let lim (f : Nat × Nat × Nat → Nat) : List (Nat × Int) :=
    (List.range 16).map fun j => (f (s.limits g j), ds.getD j 0)
  match leastLimit (lim (·.1)) x.vscale, leastLimit (lim (·.2.1)) x.ascale, leastLimit (lim (·.2.2)) x.jscale with
  | some v, some a, some j => some (profileOf v a j)
  | _, _, _ => none

/-- Time of step n of a STEP_PROFILE in its acceleration, with 42 fraction bits (R127). -/
def stepTimeUp (x : Seg) (n : Nat) : Nat :=
  let sq := x.rStart * x.rStart + 2 * x.accel * n * 2 ^ 16
  if x.accel = 0 then 0 else (isqrt (sq * 2 ^ 84) - x.rStart * 2 ^ 42) / (16 * x.accel)

/-- na: the steps of the acceleration (R127). With r_max below r_start the formula's quotient is negative; there na is 0
(DESIGN CHOICE, log 85). -/
def stepAccel (x : Seg) : Nat :=
  let na := if x.accel = 0 then 0 else (x.rMax * x.rMax - x.rStart * x.rStart) / (2 ^ 17 * x.accel)
  if 2 * na ≥ x.steps.natAbs then x.steps.natAbs / 2 else na

/-- Time of step n of a STEP_PROFILE, with 42 fraction bits (R127). -/
def stepTime (x : Seg) (n : Nat) : Nat :=
  let total := x.steps.natAbs
  let na := stepAccel x
  let mid (k : Nat) : Nat := if x.rMax = 0 then 0 else k * 2 ^ 54 / x.rMax
  if n ≤ na then stepTimeUp x n
  else if n + na ≤ total then stepTimeUp x na + mid (n - na)
  else 2 * stepTimeUp x na + mid (total - 2 * na) - stepTimeUp x (total - n)

/-- The microsteps due by a time with 42 fraction bits: the inverse of R127's times. -/
def stepsDue (x : Seg) (u : Nat) : Nat :=
  let total := x.steps.natAbs
  let na := stepAccel x
  let ta := stepTimeUp x na
  let tEnd := stepTime x total
  let ramp (t : Nat) : Nat := (x.rStart * t * 2 ^ 39 + x.accel * t * t) / 2 ^ 93
  if u ≥ tEnd then total
  else if u < ta then Nat.min na (ramp u)
  else if u < tEnd - ta then Nat.min (total - na) (na + (u - ta) * x.rMax / 2 ^ 54)
  else total - Nat.min na (ramp (tEnd - u))

/-- K_start of a segment that becomes current now (R103). -/
def State.startValue (s : State) (g coord : Nat) : Int :=
  let x := s.grpOf g
  match x.crossing with
  | some (c, v) => if c = coord then v else s.segCoord coord
  | none =>
    match x.chain with
    | some (c, v) => if c = coord then v else s.segCoord coord
    | none => s.segCoord coord

/-- A pitch request joins its queue (R114, R319). A shadow engine asks for nothing (R376). -/
def State.pitchAsk (s : State) (g k : Nat) : State :=
  if s.isStandby then s
  else (s.setPitchQueue k (s.pitchQueue k ++ [{ group := g, node := 0, time := s.now }])).setFlag (F.SPITCH_W_requested k) true

/-- The requests of a group for a pitch are withdrawn (R114). -/
def State.pitchWithdraw (s : State) (g k : Nat) : State :=
  let q := (s.pitchQueue k).filter fun r => !(r.group == g && r.node == 0)
  (s.setPitchQueue k q).setFlag (F.SPITCH_W_requested k) (q.any fun r => r.node == 0)

/-- The safety region's holdings give the pitch to the group (R114). -/
def State.pitchHeldBy (s : State) (g k : Nat) : Bool :=
  s.flag (F.SPITCH_W_held k) && s.fld (F.SPITCH_W_group k) == g

/-- The group holds the pitch and no release of it waits for a boundary: a request that stands has been granted (R114). -/
def State.pitchGranted (s : State) (g k : Nat) : Bool := s.pitchHeldBy g k && !s.saf.releases.contains (k, g)

/-- A release by PITCH_GIVE, applied at the next boundary: until then the group holds the pitch, and a second release
is the same one (R113, R319). -/
def State.pitchGive (s : State) (g k : Nat) : State :=
  if s.isStandby then s
  else if s.pitchGranted g k then
    { s with saf := { s.saf with releases := s.saf.releases ++ [(k, g)] } }
  else if s.pitchHeldBy g k then s
  else s.tally .pitchUnheld (.group g) k

/-- A track for a segment, with D in 42 fraction bits; none when its profile does not fit (R110). A DWELL of negative
length has D = 0, as the clamp of R102 takes no negative one (DESIGN CHOICE, log 85). -/
def State.makeTrack (s : State) (g slot : Nat) (x : Seg) (carry : Int) : Option Track :=
  let gr := s.grpOf g
  let k := s.startValue g x.coord
  let t : Track := { seg := x, slot := slot, kStart := k, u := 0, since := s.now }
  match x.kind with
  | 1 =>
    let q0 := (List.range 16).map gr.startOf
    match s.segProfile g x q0 with
    | none => some { t with q0 := q0, u := carry, len := 0 }
    | some p => if p.fits then some { t with q0 := q0, prof := p, len := p.length * 4, u := carry } else none
  | 2 => some { t with len := max 0 x.length * 1024, u := if x.ridge then 0 else carry }
  | 6 => some { t with len := stepTime x x.steps.natAbs, u := carry }
  | _ => some t

/-- The progress with which the next segment starts: a carry on the same coordinate, or the way past a sync value
(R102, R103). A segment appended after the queue ran EMPTY behind a crossing follows it all the same: its u starts at the
way past the sync value at its own first tick (DEDUCED, log 85). -/
def State.startProgress (s : State) (g : Nat) (x : Seg) (carry : Option (Nat × Int)) : Int :=
  let gr := s.grpOf g
  match gr.crossing with
  | some (c, v) => if c = x.coord then (s.segCoord c - v) * s.fld (F.MG_HFACT_h g) else 0
  | none =>
    match carry with
    | some (c, e) => if c = x.coord && (x.kind = 1 || (x.kind = 2 && !x.ridge)) then e else 0
    | none => 0

/-- A track that has reached D stays complete, with its progress past D (R102, R104). -/
def Track.settled (t : Track) : Track :=
  let u := max 0 t.u
  if t.len ≤ u then { t with u := t.len, passed := true, excess := u - t.len } else { t with u := u }

/-- What becomes of the first queued segment at this tick: the outcome says whether it has completed at once (R109,
R113 to R115). -/
inductive Started where
  | stays | completes | stops
  deriving DecidableEq, Repr

/-- A DRAM read finds an uncorrectable error: counted, recorded and reported as an open service fault (R465). -/
def State.dramError (s : State) (addr : Nat) : State :=
  let s : State := { s with sec := { s.sec with memErr := true } }
  let s := (s.countFld F.MEM_DECC_uncorr).setPair A.MEM_DECC_ADDR addr
  (s.tally .ecc (.region 2) 1 1 addr).openFault 2 3 addr 0

/-- The requester has acted on an uncorrectable DRAM error (R465). -/
def State.dramActed (s : State) (addr : Nat) : State :=
  s.resolveFaults fun f => f.region == 2 && f.cause == 3 && f.object == addr

/-- The first queued segment becomes current (R99, R103, R109 to R115). -/
def State.startSegment (s : State) (g : Nat) (x : Seg) (bad : Bool) (carry : Option (Nat × Int)) : State × Started :=
  let gr := s.grpOf g
  let slot := s.fld (F.MG_CURSOR_slot g)
  if bad then
    let s := if gr.fetched.isEmpty then s.dramError (s.slotAddr g slot) else s
    ((s.interrupt g 1).dramActed (s.slotAddr g slot), .stops)
  else
    match s.makeTrack g slot x (s.startProgress g x carry) with
    | none => ((s.setFld (F.MG_TAG_tag g) x.tag).interrupt g 6, .stops)
    | some t =>
      let t := if x.kind = 1 || x.kind = 2 || x.kind = 6 then t.settled else { t with u := 0 }
      let through := { t with passed := true }
      let s := s.setGrp g { gr with fetched := gr.fetched.drop 1, cur := some t, crossing := none }
      let s := s.setFld (F.MG_TAG_tag g) x.tag
      let k := s.segCoord x.coord
      match x.kind with
      | 3 =>
        let passed := if x.down then decide (k ≤ x.value) else decide (x.value ≤ k)
        if passed then
          if x.interrupt then (s.interrupt g 5, .stops)
          else
            ((s.setGrp g { s.grpOf g with cur := some through }).tally .syncPassed (.group g) 0 0
              (unsignedOf 64 (if x.down then x.value - k else k - x.value)), .completes)
        else (s, .stays)
      | 4 =>
        if s.pitchGranted g x.pitch then
          (s.setGrp g { s.grpOf g with cur := some through }, .completes)
        else ((s.pitchAsk g x.pitch).setGrp g { s.grpOf g with cur := some { t with asked := true } }, .stays)
      | 5 => (s.pitchGive g x.pitch, .completes)
      | _ => (s, if t.passed then .completes else .stays)

/-- A stepper slice beside its registers. -/
def State.stepperOf (s : State) (n : Nat) : Stepper := Tab.get (fun _ => {}) s.step n

def State.setStepper (s : State) (n : Nat) (x : Stepper) : State :=
  { s with step := Tab.set (fun _ => {}) s.step n x }

/-- A STEP_PROFILE completes: the steps not yet emitted follow at the shortest interval (R127, R128). -/
def State.stepProfileEnds (s : State) (g : Nat) (q : Seg) : State :=
  match (s.groupSlices g)[q.joint]? with
  | none => s
  | some n =>
    let x := s.stepperOf n
    let left : Int := if x.prof.isSome then (q.steps.natAbs : Int) - x.done else 0
    s.setStepper n { x with prof := none, owed := 0,
                            target := s.ifld (F.STP_POS_pos n) + x.owed + (if q.steps < 0 then -left else left) }

/-- The current segment completes: NOTIFY, cursor, targets and the chain of start values (R95, R103, R111). -/
def State.completeSegment (s : State) (g : Nat) (crossed : Bool) : State :=
  let x := s.grpOf g
  match x.cur with
  | none => s
  | some t =>
    let s := if t.seg.kind = 6 then s.stepProfileEnds g t.seg else s
    let s := if t.seg.notify then s.tally .segNotify (.group g) t.seg.tag else s
    let s := s.setFld (F.MG_CURSOR_slot g) ((t.slot + 1) % s.ringSlots g)
    let s := s.setFld (F.MG_QCOUNT_count g) (s.queued g - 1)
    let hit (j : Nat) : Bool := t.seg.kind = 1 && t.seg.joints.testBit j
    let targets := if t.seg.kind = 1 then
        (List.range 16).foldl (fun acc j =>
          if hit j then Tab.set (fun _ => none) acc j (some (t.seg.targets.getD j 0)) else acc) x.targets
      else x.targets
    let setp := (List.range 16).foldl (fun acc j =>
        if hit j then Tab.set (fun _ => {}) acc j { pos := t.seg.targets.getD j 0 } else acc) x.setp
    let chain : Option (Nat × Int) :=
      if t.seg.kind = 3 || (t.seg.kind = 2 && t.seg.ridge) then none else some (t.seg.coord, t.kStart + t.len / 1024)
    let s := s.setGrp g { x with
      cur := x.next, next := none, targets := targets, setp := setp, chain := chain,
      crossing := if crossed then some (t.seg.coord, t.seg.value) else none }
    match x.next with
    | some n => s.setFld (F.MG_TAG_tag g) n.seg.tag
    | none => s

/-- Blend: segment n + 1 becomes current before n completes, or the blend is refused (R112). `past` is the progress past
D of a segment that reaches D at this tick. -/
def State.blend (s : State) (g : Nat) (past : Int := 0) : State :=
  let x := s.grpOf g
  match x.cur, x.next with
  | some t, none =>
    let from' : Int := t.len - 4 * t.prof.tacc
    if !(t.seg.kind = 1 && t.seg.blend) || t.u < from' || t.asked then s
    else
      let mark := { t with asked := true }
      let refuse := ((s.setGrp g { x with cur := some mark }).countFld (F.MG_STAT_blend_refused g))
      match s.queueHead g with
      | none => refuse
      | some (n, bad) =>
        let q0 := (List.range 16).map fun j =>
          if t.seg.joints.testBit j then t.seg.targets.getD j 0 else x.startOf j
        if bad || n.kind ≠ 1 || n.coord ≠ t.seg.coord then refuse
        else
          let p := (s.segProfile g n q0).getD {}
          let da := t.seg.deltas t.q0
          let db := n.deltas q0
          let within (lim pa pb sc j : Nat) : Bool :=
            (da.getD j 0).natAbs * pa + (db.getD j 0).natAbs * pb ≤ lim * sc * 2 ^ 40
          let ok := p.fits && p.length ≥ t.prof.tacc && (List.range 16).all fun j =>
            let l := s.limits g j
            within l.1 t.prof.vn p.vn (Nat.min t.seg.vscale n.vscale) j &&
              within l.2.1 t.prof.an p.an (Nat.min t.seg.ascale n.ascale) j &&
              within l.2.2 t.prof.jn p.jn (Nat.min t.seg.jscale n.jscale) j
          if !ok then refuse
          else
            let nt : Track := { seg := n, slot := (t.slot + 1) % s.ringSlots g, kStart := t.kStart + from' / 1024,
                                u := min t.u t.len - from' + past, len := p.length * 4, prof := p, q0 := q0, since := s.now }
            s.setGrp g { x with cur := some mark, next := some nt, fetched := x.fetched.drop 1 }
  | _, _ => s

/-- Progress of this segment can exceed its length, and the excess can carry (R102). -/
def Seg.carries (x : Seg) : Bool := (x.kind == 1 || x.kind == 2 || x.kind == 6) && !x.ridge

/-- Further segments become current and complete while the tick's limit of four completions lasts; one beyond it that has
reached D stays complete and follows at the next tick (R104). -/
def State.startMore : Nat → State → Nat → Option (Nat × Int) → State
  | 0, s, g, carry =>
    match (s.grpOf g).cur, s.queueHead g with
    | none, some (x, bad) => (s.startSegment g x bad carry).1
    | some t, _ => s.setGrp g { s.grpOf g with cur := some (if t.len ≤ t.u then t.settled else t) }
    | _, _ => s
  | fuel + 1, s, g, carry =>
    match (s.grpOf g).cur, s.queueHead g with
    | none, some (x, bad) =>
      match s.startSegment g x bad carry with
      | (s, .completes) =>
        let past : Int := match (s.grpOf g).cur with
          | some t => t.excess
          | none => 0
        State.startMore fuel ((s.blend g past).completeSegment g false) g
          (if x.carries then some (x.coord, past) else none)
      | (s, _) => s
    | some t, _ =>
      if t.u < t.len then s
      else
        State.startMore fuel ((s.blend g (t.u - t.len)).completeSegment g false) g (some (t.seg.coord, t.u - t.len))
    | none, none => s

/-- One tick of a current segment that was current before: its progress, and whether it completes, with the excess
(R102, R113 to R115). -/
def State.advanceSegment (s : State) (g : Nat) (t : Track) : State × Bool × Bool × Option (Nat × Int) :=
  let x := s.grpOf g
  let h := s.fld (F.MG_HFACT_h g)
  let c := s.coordOf t.seg.coord
  let dK : Int := if t.seg.kind = 2 && t.seg.ridge then 1000 * 2 ^ 32 else c.shown - c.prev / coordUnit
  let raw := t.u + dK * h
  match t.seg.kind with
  | 3 =>
    let hit := if t.seg.down then decide (c.shown ≤ t.seg.value) else decide (t.seg.value ≤ c.shown)
    if t.passed then (s, true, false, none) else (s, hit, true, none)
  | 4 => (s, t.passed || (s.pitchGranted g t.seg.pitch && s.saf.last ≠ some s.now), false, none)
  | 5 => (s, true, false, none)
  | _ =>
    let raw := if t.passed then t.len + max 0 (t.excess + dK * h) else raw
    let next := x.next.map fun n => { n with u := max 0 (n.u + dK * h) }
    let s := s.setGrp g { x with cur := some { t with u := clampInt 0 t.len raw }, next := next }
    (s, raw ≥ t.len, false, if t.seg.kind = 2 && t.seg.ridge then none else some (t.seg.coord, raw - t.len))

/-- h at this tick (R105). -/
def State.progressFactor (s : State) (g : Nat) : State :=
  let x := s.grpOf g
  let n := x.rampTick
  let stop := s.fld (F.MG_RAMP_stop g)
  let resume := s.fld (F.MG_RAMP_resume g)
  let h :=
    if s.engineState g ≠ 2 then 0
    else if x.ramp = 1 then (x.rampFrom * stop - 1024 * n) / stop
    else if x.stop.isSome then 0
    else if x.ramp = 2 then Nat.min 1024 (1024 * n / resume)
    else 1024
  let x := { x with rampTick := n + 1, ramp := if x.ramp = 2 && h = 1024 then 0 else x.ramp }
  let x := if x.ramp = 1 && h < 1024 then s.markLost g x else x
  (s.setGrp g x).setFld (F.MG_HFACT_h g) h

/-- A stop's ramp has reached 0: the queue comes to rest (R105, R106). -/
def State.rampEnds (s : State) (g : Nat) : State :=
  let x := s.grpOf g
  if x.ramp = 1 && s.fld (F.MG_HFACT_h g) = 0 then s.queueRest g else s

/-- A current segment whose coordinate is LOST or SATURATED stops its group (R107). -/
def State.coordFault (s : State) (g : Nat) : State :=
  let x := s.grpOf g
  let q := s.queueState g
  match x.cur with
  | none => s
  | some t =>
    let st := s.coordState t.seg.coord
    if !(q = Queue.run || q = Queue.wait || q = Queue.stopping) || (t.seg.kind = 2 && t.seg.ridge) ||
        !(st = 2 || st = 3) || x.endReason = 3 then s
    else (s.setGrp g { x with endReason := 3 }).protectiveStop g Cause.request 1

/-- What a profile engine does at a coordinate tick (R102 to R115). -/
def State.engineRun (s : State) (g : Nat) : State :=
  let s := s.progressFactor g
  let q := s.queueState g
  let live := s.engineState g = 2 && (q = Queue.run || q = Queue.wait || q = Queue.stopping)
  let s :=
    if !live then s
    else
      let (s, more) : State × Option (Nat × Option (Nat × Int)) :=
        match (s.grpOf g).cur with
        | none => (s, some (4, none))
        | some t =>
          match s.advanceSegment g t with
          | (s, true, crossed, carry) =>
            let past : Int := match carry with
              | some c => c.2
              | none => 0
            ((s.blend g past).completeSegment g crossed, some (3, carry))
          | (s, false, _, _) => (s, none)
      let s := match more with
        | some (left, carry) => State.startMore left s g carry
        | none => s
      let s := s.blend g
      let s := s.setPair (A.MG_U g) (match (s.grpOf g).cur with
        | some t => unsignedOf 64 (t.u / 1024)
        | none => 0)
      let q := s.queueState g
      if q = Queue.run || q = Queue.wait then s.queueGo g
      else if q = Queue.stopping && s.queued g = 0 then s.setQueue g Queue.empty
      else s
  let s := s.coordFault g
  let s := s.setpTick g
  s.rampEnds g

/-- A coordinate tick of one profile engine; stopped in DEGRADED (R74, R102). -/
def State.engineTick (s : State) (g : Nat) : State := if s.motionStopped then s else s.engineRun g

/-- PITCH_TIMEOUT: with no grant by then the request is withdrawn and the queue INTERRUPTED (R114). -/
def State.pitchTimeout (s : State) (g : Nat) : State :=
  match (s.grpOf g).cur with
  | none => s
  | some t =>
    if t.seg.kind ≠ 4 || t.seg.timeout = 0 || s.queueState g = Queue.interrupted then s
    else
      let s := s.advanceTo ((t.since + t.seg.timeout * 1000) * nsUnit)
      if t.passed || s.pitchGranted g t.seg.pitch then s else (s.pitchWithdraw g t.seg.pitch).interrupt g 4

/-! ## SEG_APPEND, SEG_SKIP, SEG_FLUSH and prefetch (R94 to R99) -/

/-- The descriptors of a buffer. -/
def descriptors (bs : List Byte) : Nat → List (List Byte)
  | 0 => []
  | n + 1 => bs.take 256 :: descriptors (bs.drop 256) n

/-- Segments of accepted SEG_APPEND commands for a group that have not yet begun (R94, R411). -/
def State.waitingSegs (s : State) (g : Nat) : Nat :=
  s.waitingTake fun c => match c with
    | .segAppend g' count _ _ => if g'.toNat == g then count.toNat else 0
    | _ => 0

/-- The checks of SEG_APPEND on its data (R94, R97): the index of the first invalid descriptor, then the free slots, of
which waiting SEG_APPEND commands take theirs. -/
def State.segAppendCheck (s : State) (g : Nat) (segs : List (List Byte)) : Option (Reason × Nat) :=
  match (List.range segs.length).find? fun i => !s.segValid g (segs.getD i []) with
  | some i => some (.segInvalid, i)
  | none => if s.queued g + s.waitingSegs g + segs.length > s.ringSlots g then some (.queueFull, 0) else none

/-- DRAM written by the device: a read being repeated finds it as it stood before (R439). -/
def State.dramWrite (s : State) (a : Nat) (bs : List Byte) : State :=
  let s := s.triesRun
  { s with dram := memWrite s.dram a bs
           dramBad := s.dramBad.filter fun l => !(a ≤ l * 32 && (l + 1) * 32 ≤ a + bs.length) }

/-- The segments enter the queue (R94 to R96): the slot of the first and the segments then queued. -/
def State.segAppendBegin (s : State) (g : Nat) (segs : List (List Byte)) (cmd : Option (Nat × Nat)) : State :=
  let first := (s.fld (F.MG_CURSOR_slot g) + s.queued g) % s.ringSlots g
  let s := s.each (List.range segs.length) fun s i => s.dramWrite (s.slotAddr g (first + i)) (segs.getD i [])
  let n := s.queued g + segs.length
  let s := s.setFld (F.MG_QCOUNT_count g) n
  let s := if n > 0 && s.queueState g = Queue.empty then
      if s.groupState g ≠ 2 then s.setQueue g Queue.halted
      else if (s.grpOf g).stop.isSome then s.setQueue g (if s.fld (F.MG_HFACT_h g) = 0 then Queue.halted else Queue.stopping)
      else s.queueGo g
    else s
  s.finishDone? cmd (first + n * 2 ^ 32)

/-- What leaves the queue is forgotten: requests of a PITCH_TAKE, faults of a fetch. -/
def State.dropCurrent (s : State) (g : Nat) : State :=
  let x := s.grpOf g
  let s := match x.cur with
    | some t => if t.seg.kind = 4 then s.pitchWithdraw g t.seg.pitch else s
    | none => s
  s.setGrp g { x with
    cur := none, next := none, fetched := if x.cur.isSome then (if x.next.isSome then [] else x.fetched) else x.fetched.drop 1,
    targets := [], chain := none, crossing := none, endReason := 0 }

/-- The queue goes on after SEG_SKIP or SEG_FLUSH (R96, R99). -/
def State.queueResume (s : State) (g : Nat) : State :=
  let s := s.setFld (F.MG_QSTAT_reason g) 0
  if s.queued g = 0 then s.setQueue g Queue.empty
  else if s.groupState g ≠ 2 then s.setQueue g Queue.halted
  else if (s.grpOf g).stop.isSome then s.setQueue g (if (s.grpOf g).ramp = 1 then Queue.stopping else Queue.halted)
  else s.queueGo g

/-- SEG_SKIP: the current segment is discarded, and the queue continues with the next (R99). -/
def State.segSkipBegin (s : State) (g : Nat) (cmd : Option (Nat × Nat)) : State :=
  if s.queued g = 0 then s.finishDone? cmd
  else
    let s := s.dropCurrent g
    let s := s.setFld (F.MG_CURSOR_slot g) ((s.fld (F.MG_CURSOR_slot g) + 1) % s.ringSlots g)
    let s := s.setFld (F.MG_QCOUNT_count g) (s.queued g - 1)
    (s.queueResume g).finishDone? cmd

/-- SEG_FLUSH: every queued segment is discarded (R99). -/
def State.segFlushBegin (s : State) (g : Nat) (cmd : Option (Nat × Nat)) : State :=
  let s := if s.queued g = 0 then s else s.dropCurrent g
  let s := s.setFld (F.MG_CURSOR_slot g) ((s.fld (F.MG_CURSOR_slot g) + s.queued g) % s.ringSlots g)
  let s := (s.setGrp g { s.grpOf g with fetched := [] }).setFld (F.MG_QCOUNT_count g) 0
  (s.queueResume g).finishDone? cmd

/-- SEGMENT_FETCH: a prefetch of the next segment not yet held ends; at least four are held ahead (R99). -/
def State.segmentFetch (s : State) (g : Nat) (bad : Bool) : State :=
  let x := s.grpOf g
  let taken := (if x.cur.isSome then 1 else 0) + (if x.next.isSome then 1 else 0) + x.fetched.length
  if s.queued g ≤ taken || x.fetched.length ≥ 4 || s.motionStopped then s
  else
    let slot := s.fld (F.MG_CURSOR_slot g) + taken
    let f := s.segAt g slot
    let s := s.setGrp g { x with fetched := x.fetched ++ [(f.1, f.2 || bad)] }
    if f.2 || bad then s.dramError (s.slotAddr g slot) else s

/-! ## The feedforward task and the payload (R116 to R119) -/

/-- The operands of the task: the set-points 250 us ahead at the present rate and h (R116). -/
def State.ffOperands (s : State) (g : Nat) : List Setp :=
  let x := s.grpOf g
  let h := s.fld (F.MG_HFACT_h g)
  (List.range (s.jointCount g)).map fun j =>
    if s.groupState g = 2 then
      let ahead : Int := match x.cur with
        | some t => s.trackRate t * h * 250 / 1000000
        | none => 0
      s.trackSetp x h j ahead
    else { pos := (x.setpOf j).pos }

/-- FF_POST: at the next multiple of 250 us the operands are posted to the task's stall (R116, R118). In which slots,
and in what form, the spec leaves open: one PROFILE token with a free slot and data stands for them (log 2). -/
def State.ffPost (s : State) (g : Nat) : State :=
  let stall := s.fld (F.MG_FF_stall g)
  if s.isStandby || !s.flag (F.MG_FF_enable g) || stall = 0 || (s.groupState g = 0 && (s.grpOf g).start.isNone) then s
  else
    let s := (s.advanceTo (nextMultiple 250000 (s.now - 1) * nsUnit)).ffApply g
    if s.fld (F.MODEL_COUNT_count g) ≠ s.fld (F.GRP_STATUS_joints g) then s.ffZero g 2
    else
      let x := s.grpOf g
      let s := if x.ffMiss = 0 then s.setFld (F.MG_FFSTAT_state g) 1 else s
      let s := s.setGrp g { x with ffStart := some s.now, ffDone := false, ffOps := s.ffOperands g }
      let v := s.freeVal
      s.usedFree.send stall (v.toNat / 2 ^ 32 % 8) (v.setWidth 32) Src.profile none false 0 none g

/-- FF_MISS: the task has not ended by 200 us after its start (R118). -/
def State.ffMiss (s : State) (g : Nat) : State :=
  match (s.grpOf g).ffStart with
  | none => s
  | some t =>
    (s.advanceTo ((t + 200000) * nsUnit)).ffClose g

/-- A PAYLOAD_SET waits for the next multiple of 250 us (R119). -/
def State.payloadBegin (s : State) (g link mass com inertia : Nat) (cmd : Option (Nat × Nat)) : State :=
  s.setGrp g { s.grpOf g with payload := (s.grpOf g).payload ++ [(cmd, link, mass, com, inertia)] }

/-- The waiting payloads of a group take effect (R119). -/
def State.payloadApply (s : State) (g : Nat) : State :=
  let ps := (s.grpOf g).payload
  let s := s.setGrp g { s.grpOf g with payload := [] }
  s.each ps fun s p =>
    let (cmd, link, mass, com, inertia) := p
    let s := (s.setFld (F.MODEL_COUNT_pl_link g) link).setReg (A.MODEL_PL_MASS g) (BitVec.ofNat 32 mass)
    let s := s.each (List.range 3) fun s i =>
      s.setReg (A.MODEL_PL_COM g i) (BitVec.ofNat 32 (com / 2 ^ (32 * i)))
    let s := s.each (List.range 6) fun s i =>
      s.setReg (A.MODEL_PL_INERTIA g i) (BitVec.ofNat 32 (inertia / 2 ^ (32 * i)))
    s.finishDone? cmd

end Sys2Proof.Machine
end

