-- ==== Sys2Proof/Machine/Compare.lean ====
section
/-!
DEFINITION. The link cycle and its batten boundaries (R32, R352), and the compare unit: registration, firing, late
firings, output actions and pulses (R120 to R125).
-/

namespace Sys2Proof.Machine

/-! ## The link cycle (R32) -/

/-- L, the link cycle length, ns. -/
def State.linkCycle (s : State) : Nat := 31250 * 2 ^ s.fld F.LNK_CYCLE_n

/-- The link's time: ridge time, with the offset tracked before grid start (R364). -/
def State.linkNow (s : State) : Nat := ((s.now : Int) + s.clk.tracked).toNat

/-- The start of the present link cycle, in link time (R32). -/
def State.cycleStart (s : State) : Nat := s.linkNow / s.linkCycle * s.linkCycle

/-- Entries in use of a channel's schedule (R352). -/
def State.schedCount (s : State) (ch : Nat) : Nat := s.fld (F.CH_SCHED_N_count ch)

/-- A channel is enabled with a checked schedule (R353, R367). -/
def State.chanOn (s : State) (ch : Nat) : Bool :=
  (if ch = 0 then s.flag F.LNK_CFG_ena_a else s.flag F.LNK_CFG_ena_b && !s.flag F.LNK_CFG_branch) &&
    s.flag (F.CH_STAT_sched_ok ch)

/-- The link schedule runs on channel A: it is enabled and checked, and the node has a cycle phase (DEDUCED, log 18). -/
def State.scheduleRuns (s : State) : Bool := s.chanOn 0 && s.fld F.LNK_STATE_state ≥ 2

/-- A time in ns is a batten boundary of channel A: cycle start + start of an entry (R80, R122, R352). -/
def State.battenBoundary (s : State) (t : Nat) : Bool :=
  (List.range (s.schedCount 0)).any fun n =>
    2 * (t % s.linkCycle) == (5 * s.fld (F.SCHED_START_start 0 n)) % (2 * s.linkCycle)

/-- R80's second condition: a batten boundary while the schedule runs. -/
def State.epochBoundary (s : State) (t : Nat) : Bool := !s.scheduleRuns || s.battenBoundary t

/-- The first batten boundary of channel A after now, in ns rounded up (R122). -/
def State.nextBoundary (s : State) : Nat :=
  let l := s.linkCycle
  let c := s.now / l * l
  (List.range (s.schedCount 0)).foldl (fun m n =>
    let b := c + (5 * s.fld (F.SCHED_START_start 0 n) + 1) / 2
    let b := if b > s.now then b else b + l
    Nat.min m b) (c + 2 * l)

/-! ## Entries (R120) -/

/-- The fields of an entry's 32 bytes. -/
def parseCmp (raw : Nat) : CmpEntry :=
  { key := signedOf 64 raw, interval := signedOf 64 (raw / 2 ^ 64), rep := bitsOf raw 128 16, tag := bitsOf raw 144 16,
    coord := bitsOf raw 160 4, down := raw.testBit 164, fireLate := raw.testBit 165, act := bitsOf raw 168 3,
    slice := bitsOf raw 176 6, out := bitsOf raw 184 2, width := bitsOf raw 192 16, stall := bitsOf raw 208 8,
    slot := bitsOf raw 216 3, data := BitVec.ofNat 32 (raw / 2 ^ 224), raw := raw % 2 ^ 256 }

/-- Reserved bits are 0 and the conditional ranges hold (R120). -/
def cmpValid (raw : Nat) : Bool :=
  let e := parseCmp raw
  bitsOf raw 166 2 == 0 && bitsOf raw 171 5 == 0 && bitsOf raw 182 2 == 0 && bitsOf raw 186 6 == 0 &&
    bitsOf raw 219 5 == 0 && (e.rep == 0 || decide (e.interval > 0)) && (e.out != 3 || e.width > 0)

/-- The bytes the read-only view shows: the key and the repeat that stand now (R130). -/
def CmpEntry.view (e : CmpEntry) : Nat :=
  e.raw / 2 ^ 144 * 2 ^ 144 + e.rep * 2 ^ 128 + bitsOf e.raw 64 64 * 2 ^ 64 + unsignedOf 64 e.key

/-- Entries held: armed and waiting ones, and those whose last firing is deferred (R130). -/
def State.cmpHeld (s : State) : List CmpEntry :=
  s.cmp.entries ++ (s.cmp.deferred.filter fun d => d.1.rep == 0).map (·.1)

def State.cmpCount (s : State) : State := s.setFld F.CMP_STAT_count s.cmpHeld.length

/-- An armed entry takes its place by coordinate, key and order of registration (R123). -/
def cmpInsert (e : CmpEntry) : List CmpEntry → List CmpEntry
  | [] => [e]
  | x :: xs =>
    if !x.armed || e.coord < x.coord ||
        (e.coord == x.coord && (decide (e.key < x.key) || (e.key == x.key && e.order < x.order))) then e :: x :: xs
    else x :: cmpInsert e xs

/-- The checks of COMPARE_ADD (R120, R125). Accepted additions that have not begun take their places. -/
def State.compareAddCheck (s : State) (raw : Nat) : Option (Reason × Nat) :=
  let waiting := s.waitingTake fun c => match c with
    | .compareAdd _ => 1
    | _ => 0
  if !cmpValid raw then some (.paramInvalid, 0)
  else if s.cmpHeld.length + waiting ≥ 1024 then some (.cmpFull, 0)
  else none

/-- A refused addition is counted (R125). -/
def State.compareRefused (s : State) : State := s.countFld F.CMP_CNT2_full_cnt

/-- The entry arrives; it is registered at the next tick (R122). -/
def State.compareAddBegin (s : State) (raw : Nat) (cmd : Option (Nat × Nat)) : State :=
  let s : State := { s with cmp := { s.cmp with entries := s.cmp.entries ++ [{ parseCmp raw with cmd := cmd, since := s.clk.time }] } }
  s.cmpCount

/-- COMPARE_REMOVE: every entry with the tag leaves; none is recorded (R125). -/
def State.compareRemoveBegin (s : State) (tag : Nat) (cmd : Option (Nat × Nat)) : State :=
  let c := s.cmp
  let gone := s.cmpHeld.filter (·.tag == tag)
  let s := if gone.isEmpty then s.tally .cmpUnknown .host tag else s
  let s : State := { s with cmp := { c with
    entries := c.entries.filter (·.tag != tag), deferred := c.deferred.filter (·.1.tag != tag) } }
  let s := s.each (gone.filter fun e => e.cmd.isSome) fun s e => s.finishDone? e.cmd
  s.cmpCount.finishDone? cmd

/-! ## Firing (R121 to R124) -/

/-- The crossing instant of a key between the tick 1 us ago and now, to one count, rounded down (R124); for a key that the
last tick's movement does not pass, the nearer of the two ticks. -/
def crossingMoment (tick : Moment) (prev value key : Int) : Moment :=
  let n := if value = prev then 400 else clampInt 0 400 (Int.fdiv ((key - prev) * 400) (value - prev))
  tick - 400 * countUnit + n.toNat * countUnit

/-- An output action joins those on their way, in firing order (R124). -/
def State.cmpAct (s : State) (e : CmpEntry) (due : Moment) : State :=
  { s with cmp := { s.cmp with actions := s.cmp.actions ++
    [{ slice := e.slice, out := e.out, width := e.width, due := Nat.max s.clk.time due }] } }

/-- One firing: output action, token and tally record (R120, R121, R124). In SYNCING and STANDBY the unit produces no
output action and no token (R376). -/
def State.cmpFire (s : State) (e : CmpEntry) (cross : Moment) (late : Bool) : State :=
  let s := if e.act.testBit 0 && !s.isStandby then s.cmpAct e (cross + 400 * countUnit) else s
  let s := if e.act.testBit 1 && !s.isStandby then s.send e.stall e.slot e.data Src.compare (some s.now) late else s
  if e.act.testBit 2 && !late then s.tally .cmpFired (.coord e.coord) e.tag 0 (unsignedOf 64 e.key) else s

/-- The value and the previous value of a coordinate, Q32.32 (R121). -/
def State.coordPair (s : State) (n : Nat) : Int × Int :=
  let x := s.coordOf n
  (x.prev / coordUnit, x.shown)

/-- An armed entry's key was crossed at this tick (R121). -/
def CmpEntry.crossed (e : CmpEntry) (prev value : Int) : Bool :=
  if e.down then decide (prev > e.key) && decide (e.key ≥ value) else decide (prev < e.key) && decide (e.key ≤ value)

/-- The entry at its next key (R121). -/
def CmpEntry.advance (e : CmpEntry) : CmpEntry :=
  { e with key := if e.down then e.key - e.interval else e.key + e.interval, rep := e.rep - 1 }

/-- The firings that one tick's movement gives an entry, and what stays of it (R121). -/
def CmpEntry.firings (prev value : Int) : Nat → CmpEntry → List CmpEntry × Option CmpEntry
  | 0, e => ([], some e)
  | fuel + 1, e =>
    if !e.crossed prev value then ([], some e)
    else if e.rep = 0 then ([e], none)
    else
      let r := CmpEntry.firings prev value fuel e.advance
      (e :: r.1, r.2)

/-- Insertion of a firing in key order in the direction of motion, after equal keys (R123). -/
def fireInsert (x : CmpEntry × Moment) : List (CmpEntry × Moment) → List (CmpEntry × Moment)
  | [] => [x]
  | y :: ys => if x.2 < y.2 then x :: y :: ys else y :: fireInsert x ys

/-- One coordinate's firings in key order along its motion, equal keys in order of registration (R123). -/
def alongInsert (up : Bool) (x : CmpEntry) : List CmpEntry → List CmpEntry
  | [] => [x]
  | y :: ys =>
    if (if up then decide (x.key < y.key) else decide (y.key < x.key)) || (x.key == y.key && x.order < y.order) then
      x :: y :: ys
    else y :: alongInsert up x ys

/-- Entries of one coordinate in key order in the direction of its motion, with their crossing instants (R123, R124). -/
def State.alongMotion (s : State) (n : Nat) (es : List CmpEntry) : List (CmpEntry × Moment) :=
  let p := s.coordPair n
  (es.foldl (fun acc e => alongInsert (p.1 ≤ p.2) e acc) []).map fun e =>
    (e, crossingMoment s.clk.time p.1 p.2 e.key)

/-- The firings of all coordinates in firing order (R123); between coordinates, that of the crossing instants (log 40). -/
def State.firingOrder (s : State) (es : List CmpEntry) : List (CmpEntry × Moment) :=
  ((List.range 16).flatMap fun n => s.alongMotion n (es.filter (·.coord == n))).foldl (fun acc x => fireInsert x acc) []

/-- What stays of entries that fire late: those with repeat above 0, armed at the next key (R121, R122). -/
def lateStays (es : List CmpEntry) : List CmpEntry :=
  (es.filter (·.rep > 0)).map fun e => { e.advance with lateSince := none }

/-- Armed entries in storage order (R123, R130). -/
def cmpSort (es : List CmpEntry) : List CmpEntry := es.foldl (fun acc e => cmpInsert e acc) []

/-- Distance of the coordinate past the key (R122). -/
def State.cmpDistance (s : State) (e : CmpEntry) : Nat := unsignedOf 64 ((s.coordPair e.coord).2 - e.key).natAbs

/-- A new entry's key lies behind the motion (R122). -/
def State.cmpBehind (s : State) (e : CmpEntry) : Bool :=
  let rate := s.ipair (A.K_RATE e.coord)
  let v := (s.coordPair e.coord).2
  if e.down then decide (rate < 0) && decide (e.key ≥ v) else decide (rate > 0) && decide (e.key ≤ v)

/-- Registration of one new entry (R122). -/
def State.cmpRegister (s : State) (e : CmpEntry) : State :=
  let armed := { e with armed := true, cmd := none, order := s.cmp.registered }
  let s : State := { s with cmp := { s.cmp with registered := s.cmp.registered + 1 } }
  if !s.cmpBehind e then
    let s : State := { s with cmp := { s.cmp with entries := cmpInsert armed s.cmp.entries } }
    s.finishDone? e.cmd
  else if e.fireLate then
    let s : State := { s with cmp := { s.cmp with entries := cmpInsert { armed with lateSince := some s.now } s.cmp.entries } }
    s.finishDone? e.cmd 2
  else
    let s := (s.raise F.CMP_STAT_passed).setFld F.CMP_LAST_PASSED_tag e.tag
    let s := (s.countFld F.CMP_CNT1_passed_cnt).signalEvent
    (s.tally .cmpDropped (.coord e.coord) e.tag 0 (s.cmpDistance e)).finishDone? e.cmd 1

/-- One entry fires, with its crossing instant; one that fires late at this tick, its record giving the distance and the
time since registration (R121, R122, R124). -/
def State.cmpFires (s : State) (e : CmpEntry) (cross : Moment) : State :=
  match e.lateSince with
  | none => s.cmpFire e cross false
  | some t =>
    let s := (s.cmpFire e s.clk.time true).countFld F.CMP_CNT1_late_cnt
    s.tally .cmpLate (.coord e.coord) e.tag (s.now - t) (s.cmpDistance e)

/-- Entries fire in order, at most 16; further ones fire at the following ticks in the same order, and each is counted as
it is first deferred. `old` of them were deferred before (R123). -/
def State.fireSome (s : State) (order : List (CmpEntry × Moment)) (old : Nat) : State :=
  let kept := order.drop 16
  let s : State := { s with cmp := { s.cmp with deferred := kept } }
  let s := s.each (order.take 16) fun s x => s.cmpFires x.1 x.2
  s.countFld F.CMP_CNT2_deferred (kept.length - (old - 16))

/-- The compare unit at a coordinate tick: firings in order, at most 16, then registrations of what arrived before the
tick's count (R121 to R124). -/
def State.compareRun (s : State) : State :=
  let c := s.cmp
  let new := c.entries.filter fun e => !e.armed && s.cameBefore e.since
  let fresh := c.entries.filter fun e => !e.armed && !s.cameBefore e.since
  let armed := c.entries.filter (·.armed)
  let late (e : CmpEntry) : Bool := match e.lateSince with
    | some t => !s.scheduleRuns && decide (t < s.now)
    | none => false
  let ready := armed.filter late
  let rs := (armed.filter (·.lateSince.isNone)).map fun e =>
    let p := s.coordPair e.coord
    CmpEntry.firings p.1 p.2 65536 e
  let waits := armed.filter fun e => e.lateSince.isSome && !late e
  let fired := s.firingOrder (rs.flatMap (·.1) ++ ready)
  let s : State := { s with cmp := { c with entries := cmpSort (rs.filterMap (·.2) ++ waits ++ lateStays ready) ++ fresh } }
  let s := s.fireSome (c.deferred ++ fired) c.deferred.length
  (s.each new fun s e => s.cmpRegister e).cmpCount

/-- The compare unit's part of a coordinate tick; stopped in DEGRADED (R74, R121). -/
def State.compareTick (s : State) : State := if s.motionStopped then s else s.compareRun

/-- CMP_LATE: entries registered FIRE_LATE fire at the next batten boundary of channel A, at most 16; the others fire at
the ticks that follow (R122, R123). -/
def State.cmpLateEvent (s : State) : State :=
  if !s.scheduleRuns || s.motionStopped then s
  else
    let s := s.advanceTo (s.nextBoundary * nsUnit)
    let c := s.cmp
    let late := c.entries.filter fun e => e.lateSince.isSome
    let rest := c.entries.filter fun e => e.lateSince.isNone
    let s : State := { s with cmp := { c with
      entries := cmpSort (rest.filter (·.armed) ++ lateStays late) ++ rest.filter fun e => !e.armed } }
    let s := s.fireSome (s.firingOrder late) 0
    ({ s with cmp := { s.cmp with deferred := c.deferred ++ s.cmp.deferred } } : State).cmpCount

/-! ## Outputs (R124, R183) -/

/-- The action that takes effect next: the earliest, in firing order. -/
def earliestAction : List CmpAction → Option CmpAction
  | [] => none
  | a :: as =>
    match earliestAction as with
    | none => some a
    | some b => if b.due < a.due then some b else some a

def State.pulseOf (s : State) (n : Nat) : Option Moment := Tab.get (fun _ => none) s.cmp.pulses n

def State.setPulse (s : State) (n : Nat) (p : Option Moment) : State :=
  { s with cmp := { s.cmp with pulses := Tab.set (fun _ => none) s.cmp.pulses n p } }

/-- COMPARE_OUTPUT_ACTION: the next output action takes effect; none while the unit is stopped (R74, R124). -/
def State.compareOutput (s : State) : State :=
  if s.motionStopped then s
  else
  match earliestAction s.cmp.actions with
  | none => s
  | some a =>
    let s : State := { s with cmp := { s.cmp with actions := s.cmp.actions.erase a } }
    let s := s.advanceTo a.due
    let level := if a.out = 0 || a.out = 3 then true else if a.out = 1 then false
      else !s.flag (F.FB_FSTAT_cmp a.slice)
    (s.setFlag (F.FB_FSTAT_cmp a.slice) level).setPulse a.slice
      (if a.out = 3 then some (s.clk.time + a.width * countUnit) else none)

/-- COMPARE_PULSE_END: the pulse on a slice's compare output ends (R124). -/
def State.comparePulseEnd (s : State) (n : Nat) : State :=
  match s.pulseOf n with
  | none => s
  | some t => ((s.advanceTo t).setFlag (F.FB_FSTAT_cmp n) false).setPulse n none

end Sys2Proof.Machine
end

