-- ==== Sys2Proof/Machine/Stepper.lean ====
section
/-!
DEFINITION. Stepper slices: target counts, the step timer, direction setup, and quiet and strong drive (R126 to R129).
-/

namespace Sys2Proof.Machine

/-- The direction of the next step appears on P1 in STEPDIR mode, and the step edge waits for its setup time (R128). -/
def State.stepAt (s : State) (n : Nat) (x : Stepper) (due : Moment) (neg : Bool) : Stepper :=
  if s.fld (F.STP_CFG_mode n) = 2 && x.back != neg then
    { x with neg := neg, back := neg, dirAt := s.clk.time,
             due := some (Nat.max due (s.clk.time + s.fld (F.STP_TIMING_dirsetup n) * countUnit)) }
  else
    { x with neg := neg,
             due := some (if s.fld (F.STP_CFG_mode n) = 2 then
               Nat.max due (x.dirAt + s.fld (F.STP_TIMING_dirsetup n) * countUnit) else due) }

/-- Counts from one step of a STEP_PROFILE to the next, at the coordinate rate and h in force; none while that rate is 0
or no step is left in its direction (R127). -/
def State.profileInterval (s : State) (g : Nat) (x : Stepper) (q : Seg) : Option (Nat × Bool) :=
  let w : Int := s.ipair (A.K_RATE q.coord) * s.fld (F.MG_HFACT_h g)
  if w = 0 then none
  else if w > 0 then
    if x.done < q.steps.natAbs then
      some ((stepTime q (x.done + 1) - stepTime q x.done) * 400000000 / w.natAbs, decide (q.steps < 0))
    else none
  else if x.done > 0 then
    some ((stepTime q x.done - stepTime q (x.done - 1)) * 400000000 / w.natAbs, decide (q.steps ≥ 0))
  else none

/-- The step timer reloaded for the next step, MINIV or more after the last one: by the profile, counted from a moment, or
toward the target. Steps still owed go before those of a profile (R126 to R128). -/
def State.stepReload (s : State) (n g : Nat) (x : Stepper) (start : Moment) : Stepper :=
  let first := match x.last with
    | some t => Nat.max s.clk.time (t + (s.reg (A.STP_MINIV n)).toNat * countUnit)
    | none => s.clk.time
  match x.prof with
  | some q =>
    if x.owed ≠ 0 then s.stepAt n x first (decide (x.owed < 0))
    else
      match s.profileInterval g x q with
      | some (c, neg) => s.stepAt n x (Nat.max (start + c * countUnit) first) neg
      | none => { x with due := none }
  | none =>
    let pos := s.ifld (F.STP_POS_pos n)
    if x.target = pos then { x with due := none } else s.stepAt n x first (decide (x.target < pos))

/-- The commanded rate in full steps per second, as a fraction: of the profile's interval, or of the velocity
feedforward (R129). -/
def State.stepRate (s : State) (n g j : Nat) (x : Stepper) : Nat × Nat :=
  match x.prof with
  | some q =>
    match s.profileInterval g x q with
    | some (c, _) => (400000000, 256 * c)
    | none => (0, 1)
  | none => (((s.grpOf g).setpOf j).vff.natAbs * s.fld (F.STP_SPR_spr n), 256 * 2 ^ 16)

/-- Quiet or strong, taken at a position that is a multiple of 256 microsteps (R129). A COMMIT that waits as the slice
turns quiet is dropped (R156). -/
def State.stepDrive (s : State) (n g j : Nat) : State :=
  let x := s.stepperOf n
  let rate := s.stepRate n g j x
  let want := rate.1 ≥ s.fld (F.STP_THRESH_up n) * rate.2 || (rate.1 > s.fld (F.STP_THRESH_down n) * rate.2 && x.wantStrong)
  let s := s.setStepper n { x with wantStrong := want }
  if s.fld (F.STP_CFG_mode n) = 1 && s.ifld (F.STP_POS_pos n) % 256 = 0 then
    let s := if s.flag (F.STP_STAT_strong n) && !want then s.setFlag (F.S_STATUS_pending n) false else s
    s.setFlag (F.STP_STAT_strong n) want
  else s

/-- STAT.lag: the emitted count trails the target. Between two ticks a STEP_PROFILE's steps run ahead of the target that
the last tick gave, which is no lag (R128). -/
def State.stepLag (s : State) (n : Nat) : State :=
  let x := s.stepperOf n
  let pos := s.ifld (F.STP_POS_pos n)
  s.setFlag (F.STP_STAT_lag n) (if x.prof.isNone then decide (x.target ≠ pos)
    else if x.owed ≠ 0 then true
    else if x.neg then decide (x.target < pos) else decide (pos < x.target))

/-- Steps of a slice not yet emitted as what it ran ends; those that a STEP_PROFILE has emitted ahead of the last tick's
target are no debt (R128). -/
def Stepper.leftover (x : Stepper) (pos : Int) : Int :=
  if x.prof.isNone then x.target - pos else if x.neg then min 0 (x.target - pos) else max 0 (x.target - pos)

/-- The target of a stepper slice at a tick (R126, R127): the set-point of a JOINT_LINEAR, the steps due of a
STEP_PROFILE, and POS while the group is OUT. A STEP_PROFILE that stays current while its group is OUT goes on with the
steps already done (R105). -/
def State.stepTarget (s : State) (n g j : Nat) : Stepper :=
  let x := s.stepperOf n
  let pos := s.ifld (F.STP_POS_pos n)
  let gr := s.grpOf g
  let sp := (gr.setpOf j).pos
  let same (t : Track) : Bool := x.prof == some t.seg && x.profAt == t.since
  if s.groupState g = 0 then
    { x with target := pos, prof := if gr.cur.any same then x.prof else none, owed := 0, due := none, seen := sp }
  else
    let ended : Stepper :=
      { x with prof := none, owed := 0, seen := sp, due := if x.prof.isSome then none else x.due,
               target := pos + x.leftover pos }
    let lin : Int := sp * s.fld (F.STP_SPR_spr n) / 2 ^ 32
    match gr.cur with
    | some t =>
      if t.seg.kind = 6 && t.seg.joint = j then
        let x := if same t then x
          else { x with prof := some t.seg, done := 0, profAt := t.since, owed := x.leftover pos, due := none }
        let d : Int := (stepsDue t.seg t.u.toNat : Int) - x.done
        { x with target := pos + x.owed + (if t.seg.steps < 0 then -d else d), seen := sp }
      else if (t.seg.kind = 1 && t.seg.joints.testBit j) || sp != x.seen then { ended with target := lin }
      else ended
    | none => if sp != x.seen && s.groupState g = 2 then { ended with target := lin } else ended

/-- A coordinate tick of one stepper slice. -/
def State.stepperTick (s : State) (n : Nat) : State :=
  if s.fld (F.STP_CFG_mode n) = 0 then s
  else
    match s.sliceGroup n with
    | none => s
    | some g =>
      let j := (s.groupSlices g).idxOf n
      let x := s.stepTarget n g j
      let x := if x.due.isNone then s.stepReload n g x s.clk.time else x
      ((s.setStepper n x).stepDrive n g j).stepLag n

/-- STEP_TIMER: one microstep (R126 to R129). -/
def State.stepTimer (s : State) (n : Nat) : State :=
  let x := s.stepperOf n
  match x.due, s.sliceGroup n with
  | some t, some g =>
    if s.fld (F.STP_CFG_mode n) = 0 then s
    else
      let s := s.advanceTo t
      let pos := s.ifld (F.STP_POS_pos n)
      let s := s.setFld (F.STP_POS_pos n) (unsignedOf 32 (if x.neg then pos - 1 else pos + 1))
      let ahead : Bool := match x.prof with
        | some q => x.neg == decide (q.steps < 0)
        | none => true
      let debt : Bool := x.owed ≠ 0
      let pulse := if s.fld (F.STP_CFG_mode n) = 2 then some (s.clk.time + s.fld (F.STP_TIMING_pw n) * countUnit)
        else none
      let x := { x with last := some s.clk.time, due := none, pulseEnd := pulse,
                        owed := if debt then (if x.neg then x.owed + 1 else x.owed - 1) else 0,
                        done := if x.prof.isNone || debt then x.done else if ahead then x.done + 1 else x.done - 1 }
      let s := s.setStepper n (s.stepReload n g x (if debt then x.profAt * nsUnit else s.clk.time))
      (s.stepDrive n g ((s.groupSlices g).idxOf n)).stepLag n
  | _, _ => s

end Sys2Proof.Machine
end

