-- ==== Sys2Proof/Machine/Law.lean ====
section
/-!
DEFINITION. The checks and effect of LAW_PARAM on the law table (R213).
-/

namespace Sys2Proof.Machine

/-- The bytes that may change only while the slice's group is OUT (R213). -/
def lawFixed (kind : Nat) : List (Nat × Nat) :=
  [(0, 5)] ++ if kind = 1 then [(28, 1), (32, 4), (76, 4), (96, 4)] else []

/-- The record of a stall as it will stand once its waiting writes are applied (R213). -/
def State.lawRecord (s : State) (n : Nat) : List Byte :=
  (s.hwk.lawWait.filter fun w => w.1 == n).foldl (fun r w => overlay r w.2.1 w.2.2.1)
    (memBytes s.sram (0x7E0000 + n * 0x100) 256)

/-- The group that owns the slice of a record is OUT, or the slice has none. -/
def State.lawGroupOut (s : State) (r : List Byte) : Bool :=
  match s.sliceGroup (bytesAt r 1 1 % 64) with
  | some g => s.groupState g == 0
  | none => true

/-- The checks of LAW_PARAM on its data (R213). -/
def State.lawParamCheck (s : State) (n off : Nat) (bs : List Byte) : Option (Reason × Nat) :=
  if off + bs.length > 224 then some (.lengthRange, 0)
  else if bs.isEmpty then none
  else
    let old := s.lawRecord n
    let new := overlay old off bs
    let fixed := lawFixed (bytesAt old 0 1) ++ lawFixed (bytesAt new 0 1)
    let moved := fixed.any fun f => bytesAt old f.1 f.2 != bytesAt new f.1 f.2
    if n = 0 || !lawRecordOk new then some (.paramInvalid, 0)
    else if moved && !(s.lawGroupOut old && s.lawGroupOut new) then some (.paramState, 0)
    else none

/-- A run of the stall is under way. -/
def State.lawBusy (s : State) (n : Nat) : Bool :=
  s.stallState n == St.running || s.stallState n == St.voting || (s.stallOf n).saved.isSome ||
    !(s.stallOf n).execs.isEmpty

/-- LAW_PARAM: the write is applied between two runs of the stall (R213, R402). -/
def State.lawParamBegin (s : State) (n off : Nat) (bs : List Byte) (cmd : Option (Nat × Nat)) : State :=
  if bs.isEmpty then s.finishDone? cmd
  else
    let s : State := { s with hwk := { s.hwk with lawWait := s.hwk.lawWait ++ [(n, off, bs, cmd)] } }
    if s.lawBusy n then s else s.lawApply n

end Sys2Proof.Machine
end

