-- ==== Sys2Proof/Machine/Health.lean ====
section
/-!
DEFINITION. The health word of a paired device and what it compares with its peer (R381, R386, R392).
-/

namespace Sys2Proof.Machine

/-- CRC-32 of bytes [159:0] of the law-table records of stalls 1 to 255, in stall order (R381). The CRC is the one that
the frame check sequence uses (DEDUCED, log 32). -/
def State.lawTableCrc (s : State) : Nat :=
  frameCheck ((List.range 255).flatMap fun i => memBytes s.sram (0x7E0000 + (i + 1) * 0x100) 160)

/-- The first 4 bytes of the safety image digest (R381). -/
def State.digestHead (s : State) : Nat := (s.reg (A.SAF_IMG_DIGEST 0)).toNat

/-- TWN.HEALTH (R392). A device that is OFF takes no part: its word stays 0. -/
def State.healthWord (s : State) : Nat :=
  if s.fld F.TWN_STAT_role = 0 then 0
  else
    let bit (i : Nat) (b : Bool) : Nat := if b then 2 ^ i else 0
    let pool := ((List.range 12).filter fun c => !s.quarantined c).length
    let sense := (List.range 24).any (fun c => s.flag (F.CV_STATUS_fail c)) ||
      (List.range 8).any fun b => s.flag (F.OCB_STAT_fail b)
    let link := s.fld F.LNK_STATE_state != 4 || !(s.flag (F.PORT_STAT_up 1 0) && s.flag (F.PORT_STAT_up 1 1))
    let param := match s.twin.peerTable with
      | some t => t != (s.lawTableCrc, s.digestHead)
      | none => false
    bit 0 (bitsOf (s.reg A.SYS_FAULT).toNat 8 5 != 0) + bit 1 (s.sec.coreErr || pool < 12) +
      bit 2 (s.twin.fbkAge < 16) + bit 3 sense + bit 4 link + bit 5 param + bit 6 s.sec.memErr + pool * 2 ^ 8

/-- The level of the ACT_OUT ball: low while the safety region is in reset or unpowered (R377). -/
def State.actOut (s : State) : Bool := s.pwr.safetyUp && s.flag F.TWN_STAT_act_out

/-- A health word is healthy when its bits [6:0] are 0 (R386). -/
def healthy (w : Nat) : Bool := w % 128 == 0

end Sys2Proof.Machine
end

