-- ==== Sys2Proof/Machine/Image.lean ====
section
/-!
DEFINITION. Image signatures and keys, vendor firmware and loop images (R335, R448 to R450, R457), and how an image is
brought into force in program memory (R452, R454, R468).
-/

namespace Sys2Proof.Machine

/-! ## Keys and signatures -/

/-- First slot of a class of keys and its number of slots (R449). -/
def KeyClass.vendor : Nat × Nat := (0, 2)
def KeyClass.loop : Nat × Nat := (2, 4)
def KeyClass.safety : Nat × Nat := (6, 4)
def KeyClass.debug : Nat × Nat := (10, 2)

/-- The key a key index of a class names; none when the slot is empty or revoked, or the class has no such index
(R449). -/
def State.classKey (s : State) (cls : Nat × Nat) (idx : Nat) : Option (List Byte) :=
  let k := cls.1 + idx
  if idx < cls.2 && s.bitFld F.SEC_KEYSTAT_present k && !s.bitFld F.SEC_KEYSTAT_revoked k then
    some (if k < 2 then Config.vendorKey k else Tab.get (fun _ => []) s.sec.keys k)
  else none

/-- Bytes of a signature block (R335). -/
def sigBlock : Nat := 3328

/-- The signed message of an image: all of it but the signature and the three bytes of 0 (R335, R448). -/
def signedPart (bs : List Byte) : List Byte := bs.take (bs.length - 3312)

/-- The 256-bit digest of an image (R335, R448). -/
def imageDigest (bs : List Byte) : List Byte := Config.shake256 32 (signedPart bs)

/-- The key index of a signature block (R335). -/
def sigKeyIndex (bs : List Byte) : Nat := bytesAt bs (bs.length - sigBlock) 4

/-- The signature that ends the bytes verifies under a key of the class (R335, R449). -/
def State.signed (s : State) (cls : Nat × Nat) (bs : List Byte) : Bool :=
  match s.classKey cls (sigKeyIndex bs) with
  | some key => decide (sigBlock ≤ bs.length) &&
      Config.mlDsaVerify key (signedPart bs) ((bs.drop (bs.length - 3312)).take 3309)
  | none => false

/-- The reserved bytes of a signature block are 0 (R335). -/
def sigReservedClear (bs : List Byte) : Bool :=
  bytesAt bs (bs.length - 3324) 12 == 0 && bytesAt bs (bs.length - 3) 3 == 0

/-- The rollback counter of a class: 0 vendor, 1 loop, 2 safety (R456, R468). -/
def State.rollback (s : State) (cls : Nat) : Nat := s.fld ⟨A.SEC_ROLLBACK, 8 * cls, 8⟩

/-- The target of an image is any device or this one (R334, R448). -/
def State.targetsMe (s : State) (bs : List Byte) : Bool :=
  bytesAt bs 16 8 == 0 || bytesAt bs 16 8 == s.pair A.SEC_DEVID

/-! ## Vendor firmware and loop images (R448, R450) -/

/-- The payload bytes an area holds at most (R448). -/
def imageRoom (kind area len : Nat) : Nat := if kind = 2 then len - 3392 else if area = 8 then 16384 else 4096

/-- Magic, format, kind, area and size of an image agree, and its reserved and padding bytes are 0 (R448, R450). -/
def imageForm (bs : List Byte) : Bool :=
  let kind := bytesAt bs 6 1
  let area := bytesAt bs 7 1
  let size := bytesAt bs 24 4
  (kind == 1 && bytesAt bs 0 4 == 0x504C4645 && area ≤ 8 || kind == 2 && bytesAt bs 0 4 == 0x57464645 && area == 0) &&
    bytesAt bs 4 2 == 1 && size ≤ imageRoom kind area bs.length && 64 + (size + 7) / 8 * 8 + sigBlock == bs.length &&
    bytesAt bs 28 36 == 0 && bytesAt bs (64 + size) ((size + 7) / 8 * 8 - size) == 0 && sigReservedClear bs

/-- The checks of R450 on an image of the given length; `want` is the kind and area a command names. -/
def State.imageCheck (s : State) (bs : List Byte) (len : Nat) (want : Option (Nat × Nat)) : Reason :=
  let kind := match want with
    | some w => w.1
    | none => bytesAt bs 6 1
  let area := bytesAt bs 7 1
  let agrees := match want with
    | some w => bytesAt bs 6 1 == w.1 && area == w.2
    | none => true
  if bs.length ≠ len || bytesAt bs 8 4 ≠ len || len > 4194304 then .lengthRange
  else if !s.signed (if kind = 2 then KeyClass.vendor else KeyClass.loop) bs then .sigInvalid
  else if !s.targetsMe bs then .imageTarget
  else if bytesAt bs 12 4 < s.rollback (if kind = 2 then 0 else 1) then .imageRollback
  else if !(imageForm bs && agrees) then .imageInvalid
  else .none

/-- The image that verified bytes hold (R448). -/
def parseImage (bs : List Byte) : Image :=
  { kind := bytesAt bs 6 1, area := bytesAt bs 7 1, revision := bytesAt bs 12 4, digest := imageDigest bs,
    payload := (bs.drop 64).take (bytesAt bs 24 4) }

/-- The kind and area of an image as the SECURITY records give them (R462). -/
def Image.kindArea (i : Image) : Nat := i.kind + i.area * 2 ^ 8

/-- The digest and revision of an image in force are shown (R454, R468). -/
def State.showImage (s : State) (i : Image) : State :=
  let word (k : Nat) : Word := BitVec.ofNat 32 (bytesAt i.digest (4 * k) 4)
  if i.kind = 2 then
    (s.each (List.range 8) fun s k => s.setReg (A.SEC_FWDIG k) (word k)).setReg A.SEC_FWREV (BitVec.ofNat 32 i.revision)
  else
    (s.each (List.range 8) fun s k => s.setReg (A.SEC_LOOPDIG i.area k) (word k)).setReg (A.SEC_LOOPREV i.area)
      (BitVec.ofNat 32 i.revision)


/-- The area of an image is written into the program memory of all twelve cores (R452). -/
def State.writeArea (s : State) (i : Image) : State :=
  let bs := if i.kind = 2 then Config.vendorArea i.payload else i.payload
  { s with
    prog := Tab.set (fun _ => []) s.prog i.progArea bs
    sec := { s.sec with loaded := i.progArea :: s.sec.loaded.filter (· != i.progArea) } }

/-- IMAGE_ACCEPTED (R462). -/
def State.imageAccepted (s : State) (i : Image) : State :=
  s.tally .secImageAccepted .chip i.kindArea i.revision (bytesAt i.digest 0 8)

/-- IMAGE_REJECTED (R462): `at` is the bundle index or the sequence number. -/
def State.imageRejected (s : State) (why : Reason) (bs : List Byte) (place : Nat) : State :=
  s.tally .secImageRejected .chip why.code (bytesAt bs 6 2) place

end Sys2Proof.Machine
end

