-- ==== Sys2Proof/Machine/SafImage.lean ====
section
/-!
DEFINITION. The safety configuration image: its layout, its checks and what it holds (R314, R334 to R337).
-/

namespace Sys2Proof.Machine

/-! ## Layout (R334, R336) -/

/-- Bytes of a record of a section type. -/
def secSize : Nat → Nat
  | 1 => 128 | 2 => 80 | 3 => 32 | 4 => 48 | 5 => 40 | 6 => 40 | 7 => 32 | 8 => 8 | 9 => 8 | _ => 0

/-- The least and the greatest number of records of a section type. -/
def secCounts : Nat → Nat × Nat
  | 1 => (1, 8) | 2 => (1, 64) | 3 => (1, 256) | 4 => (0, 16) | 5 => (0, 256) | 6 => (0, 64) | 7 => (0, 15)
  | 8 => (0, 16) | 9 => (1, 16384) | _ => (0, 0)

/-- Record count and offset of a section type, from the directory. -/
def secCount (bs : List Byte) (t : Nat) : Nat := bytesAt bs (64 + 8 * (t - 1) + 2) 2
def secOffset (bs : List Byte) (t : Nat) : Nat := bytesAt bs (64 + 8 * (t - 1) + 4) 4

/-- The first byte after a section. -/
def secEnd (bs : List Byte) (t : Nat) : Nat := secOffset bs t + secCount bs t * secSize t

/-- Record k of a section. -/
def secRec (bs : List Byte) (t k : Nat) : List Byte := (bs.drop (secOffset bs t + k * secSize t)).take (secSize t)

/-- All records of a section. -/
def secRecs (bs : List Byte) (t : Nat) : List (List Byte) := (List.range (secCount bs t)).map (secRec bs t)

/-- A signed field. -/
def sbytesAt (bs : List Byte) (pos n : Nat) : Int := signedOf (8 * n) (bytesAt bs pos n)

/-- Three signed 32-bit numbers. -/
def vecAt (bs : List Byte) (pos : Nat) : Vec :=
  { x := sbytesAt bs pos 4, y := sbytesAt bs (pos + 4) 4, z := sbytesAt bs (pos + 8) 4 }

/-- Nine signed 32-bit numbers, row by row. -/
def rotAt (bs : List Byte) (pos : Nat) : Rot := { x := vecAt bs pos, y := vecAt bs (pos + 12), z := vecAt bs (pos + 24) }

/-! ## Records -/

def parseGroup (r : List Byte) : SGroup :=
  { joints := bytesAt r 1 1, tcpCap := bytesAt r 2 1, tcpEnd := bytesAt r 3 1, baseRot := rotAt r 4,
    baseOrg := vecAt r 40, tr := bytesAt r 52 2, zr := bytesAt r 54 2, vCollab := bytesAt r 56 2,
    vProduce := bytesAt r 58 2, vmax := bytesAt r 60 2, holdMax := bytesAt r 62 1, stopTime := bytesAt r 64 2,
    stops := (List.range (bytesAt r 66 1)).map fun k =>
      (bytesAt r (68 + 8 * k) 2, bytesAt r (70 + 8 * k) 2, bytesAt r (72 + 8 * k) 4) }

def parseJoint (r : List Byte) : SJoint :=
  { group := bytesAt r 2 1, joint := bytesAt r 3 1, prismatic := bytesAt r 0 1 == 1, parent := bytesAt r 1 1,
    origin := vecAt r 4, rot := rotAt r 16, cpj := sbytesAt r 52 8, zero := sbytesAt r 60 4,
    still := bytesAt r 64 4, jump := bytesAt r 68 4 }

def parseCap (r : List Byte) : SCap :=
  { group := bytesAt r 0 1, frame := bytesAt r 1 1, p := vecAt r 4, q := vecAt r 16, radius := bytesAt r 28 4 }

def parseConn (r : List Byte) : SConn :=
  { node := bytesAt r 0 2, conn := bytesAt r 2 2, seed := bytesAt r 4 4, watchdog := bytesAt r 8 2,
    slotBase := bytesAt r 10 1, slotCount := bytesAt r 11 1, extra := bytesAt r 12 4, lo := vecAt r 16,
    hi := vecAt r 28 }

def parseZone (r : List Byte) : SZone :=
  { slot := bytesAt r 0 1, intrusion := bytesAt r 1 1 == 2, input := bytesAt r 2 1,
    shape := { kind := bytesAt r 3 1, p := vecAt r 4, q := vecAt r 16, radius := bytesAt r 28 4 },
    extra := bytesAt r 32 4 }

def parsePitch (r : List Byte) : SPitch :=
  { home := bytesAt r 2 2, shape := { kind := 2, p := vecAt r 4, q := vecAt r 16, radius := bytesAt r 28 4 },
    groups := bytesAt r 32 1 }

/-- The eight points of a curve. -/
def parseCurve (r : List Byte) : List (Nat × Nat) :=
  (List.range 8).map fun k => (bytesAt r (4 * k) 2, bytesAt r (4 * k + 2) 2)

def parseInput (r : List Byte) : SInput :=
  { fn := bytesAt r 1 1, groups := bytesAt r 2 1, antivalent := bytesAt r 3 1 == 1, disc := bytesAt r 4 1,
    filter := bytesAt r 6 2 }

def parsePair (r : List Byte) : SPair :=
  { a := bytesAt r 0 1, b := bytesAt r 1 1, kind := bitsOf (bytesAt r 2 1) 0 2, curve := bitsOf (bytesAt r 2 1) 2 4,
    act := bitsOf (bytesAt r 2 1) 6 2, margin := bytesAt r 4 2 }

/-- A table from the records of a section, by the keys given. -/
def tabOf {α : Type} [DecidableEq α] (d : α) (es : List (Nat × α)) : Tab α :=
  es.foldl (fun t e => Tab.set (fun _ => d) t e.1 e.2) []

/-- A section's records by their number. -/
def numbered {α : Type} [DecidableEq α] (d : α) (parse : List Byte → α) (rs : List (List Byte)) : Tab α :=
  tabOf d ((List.range rs.length).map fun k => (k, parse (rs.getD k [])))

/-- The image that bytes hold. -/
def parseSafImage (bs : List Byte) : SafImage :=
  let rs (t : Nat) := secRecs bs t
  let keyed {α : Type} (t : Nat) (parse : List Byte → α) : List (Nat × α) := (rs t).map fun r => (bytesAt r 0 1, parse r)
  { revision := bytesAt bs 12 4, sep := bytesAt bs 24 1 == 1, eMax := bytesAt bs 26 2, tol := bytesAt bs 28 2,
    stoTest := bytesAt bs 30 2, vhDefault := bytesAt bs 32 4, pitchReq := bytesAt bs 36 4, pitchHold := bytesAt bs 40 4,
    groups := tabOf {} (keyed 1 parseGroup), joints := (rs 2).map parseJoint, caps := (rs 3).map parseCap,
    conns := numbered {} parseConn (rs 4), zones := (rs 5).map parseZone,
    pitches := tabOf {} (keyed 6 parsePitch), curves := tabOf [] ((List.range (rs 7).length).map fun k =>
      (k + 1, parseCurve ((rs 7).getD k []))),
    inputs := tabOf {} (keyed 8 parseInput), pairs := numbered {} parsePair (rs 9), digest := imageDigest bs }

/-! ## Checks (R336, R337) -/

/-- The header's fields lie in their ranges and its reserved bytes are 0 (R334, R337). -/
def safHeaderOk (bs : List Byte) : Bool :=
  bytesAt bs 0 4 == 0x49534645 && bytesAt bs 4 2 == 1 && bytesAt bs 6 2 == 0 && bytesAt bs 24 1 ≤ 1 &&
    bytesAt bs 25 1 == 0 && 64 ≤ bytesAt bs 26 2 && bytesAt bs 26 2 ≤ 12800 && 16 ≤ bytesAt bs 28 2 &&
    10 ≤ bytesAt bs 30 2 && bytesAt bs 30 2 ≤ 1000 && 0 < bytesAt bs 32 4 && bytesAt bs 36 4 < 2 ^ 17 &&
    bytesAt bs 40 4 < 2 ^ 17 && bytesAt bs 44 20 == 0 && sigReservedClear bs

/-- A directory entry: its type, its count, its alignment and its place before the signature block, after the directory
and apart from every other section (R337). -/
def dirEntryOk (bs : List Byte) (t : Nat) : Bool :=
  let c := secCount bs t
  bytesAt bs (64 + 8 * (t - 1)) 1 == t && bytesAt bs (64 + 8 * (t - 1) + 1) 1 == 0 &&
    (secCounts t).1 ≤ c && c ≤ (secCounts t).2 && secOffset bs t % 8 == 0 && 136 ≤ secOffset bs t &&
    secEnd bs t + sigBlock ≤ bs.length &&
    ((List.range t).all fun u => u = 0 || c = 0 || secCount bs u = 0 || secEnd bs u ≤ secOffset bs t ||
      secEnd bs t ≤ secOffset bs u)

/-- A box is not inside out: lo does not lie above hi on any axis (log 20). -/
def boxOk (lo hi : Vec) : Bool := decide (lo.x ≤ hi.x) && decide (lo.y ≤ hi.y) && decide (lo.z ≤ hi.z)

/-- The values rise strictly. -/
def strictlyRising : List Nat → Bool
  | a :: b :: r => a < b && strictlyRising (b :: r)
  | _ => true

/-- The values do not fall. -/
def notFalling : List Nat → Bool
  | a :: b :: r => a ≤ b && notFalling (b :: r)
  | _ => true

/-- A GROUPS record: `k` is its number, `im` the image (R336, R337). -/
def State.groupRecOk (s : State) (im : SafImage) (all : List (List Byte)) (k : Nat) : Bool :=
  let r := all.getD k []
  let g := bytesAt r 0 1
  let x := parseGroup r
  let n := bytesAt r 66 1
  let mine := im.joints.filter fun j => j.group == g
  g ≤ 7 && (k = 0 || bytesAt (all.getD (k - 1) []) 0 1 < g) && 1 ≤ x.joints && x.joints ≤ 16 && x.tcpEnd ≤ 1 &&
    (match im.caps[x.tcpCap]? with
      | some c => c.group == g
      | none => false) &&
    (if im.sep then 250 else 400) ≤ x.tr && 1 ≤ x.holdMax && bytesAt r 63 1 == 0 && 50 ≤ x.stopTime &&
    x.stopTime ≤ 10000 && 2 ≤ n && n ≤ 7 && bytesAt r 67 1 == 0 && bytesAt r (68 + 8 * n) (60 - 8 * n) == 0 &&
    (x.stops.map (·.1)).getD 0 1 == 0 && strictlyRising (x.stops.map (·.1)) &&
    mine.length == x.joints && ((List.range x.joints).all fun j => (mine.filter (·.joint == j)).length == 1) &&
    x.joints == s.fld (F.GRP_STATUS_joints g)

/-- A JOINTS record. -/
def jointRecOk (im : SafImage) (r : List Byte) : Bool :=
  let j := parseJoint r
  bytesAt r 0 1 ≤ 1 && (Tab.find? im.groups j.group).isSome &&
    j.joint < ((Tab.find? im.groups j.group).getD {}).joints && j.parent ≤ j.joint && decide (0 < j.cpj) &&
    0 < j.jump && bytesAt r 72 8 == 0

/-- A CAPSULES record. -/
def capRecOk (im : SafImage) (r : List Byte) : Bool :=
  let c := parseCap r
  match Tab.find? im.groups c.group with
  | some g => c.frame ≤ g.joints && bytesAt r 2 2 == 0
  | none => false

/-- The presence slots that a CONNECTIONS or a ZONES record takes. -/
def connSlots (r : List Byte) : List Nat := (List.range (bytesAt r 11 1)).map (bytesAt r 10 1 + ·)

/-- The slots of all sources before record `k` of a section. -/
def slotsBefore (conns zones : List (List Byte)) (isZone : Bool) (k : Nat) : List Nat :=
  if isZone then conns.flatMap connSlots ++ (zones.take k).map fun r => bytesAt r 0 1
  else (conns.take k).flatMap connSlots

/-- A CONNECTIONS record. -/
def connRecOk (conns : List (List Byte)) (k : Nat) : Bool :=
  let r := conns.getD k []
  let c := parseConn r
  1 ≤ c.node && c.node ≤ 4095 && 100 ≤ c.watchdog && 1 ≤ c.slotCount && c.slotCount ≤ 32 &&
    c.slotBase + c.slotCount ≤ 256 && boxOk c.lo c.hi && bytesAt r 40 8 == 0 &&
    ((connSlots r).all fun i => !(slotsBefore conns [] false k).contains i)

/-- A ZONES record. -/
def zoneRecOk (im : SafImage) (conns zones : List (List Byte)) (k : Nat) : Bool :=
  let r := zones.getD k []
  let z := parseZone r
  let cls := bytesAt r 1 1
  (cls == 1 || cls == 2) && z.input ≤ 15 && (cls == 1 || (Tab.find? im.inputs z.input).isSome) &&
    (z.shape.kind == 1 || z.shape.kind == 2 && boxOk z.shape.p z.shape.q) && bytesAt r 36 4 == 0 &&
    !(slotsBefore conns zones true k).contains z.slot

/-- A PITCHES record. -/
def pitchRecOk (all : List (List Byte)) (k : Nat) : Bool :=
  let r := all.getD k []
  bytesAt r 0 1 ≤ 63 && bytesAt r 1 1 == 0 && bytesAt r 2 2 ≤ 4095 && boxOk (vecAt r 4) (vecAt r 16) && bytesAt r 33 7 == 0 &&
    !((all.take k).map fun q => bytesAt q 0 1).contains (bytesAt r 0 1)

/-- A CURVES record. -/
def curveRecOk (r : List Byte) : Bool :=
  let ps := parseCurve r
  (ps.all fun p => p.2 ≤ 1024) && notFalling (ps.map (·.1)) && notFalling (ps.map (·.2))

/-- An INPUTS record. -/
def inputRecOk (all : List (List Byte)) (k : Nat) : Bool :=
  let r := all.getD k []
  bytesAt r 0 1 ≤ 15 && bytesAt r 1 1 ≤ 4 && bytesAt r 3 1 ≤ 1 && 1 ≤ bytesAt r 4 1 && bytesAt r 5 1 == 0 &&
    bytesAt r 6 2 ≤ 10000 && !((all.take k).map fun q => bytesAt q 0 1).contains (bytesAt r 0 1)

/-- A PAIRS entry `k`: capsules, slots, pitches and curves that it names exist; in S125 entries from 8,192 are EMPTY
(R314, R337). -/
def pairRecOk (im : SafImage) (slots : List Nat) (r : List Byte) (k : Nat) : Bool :=
  let p := parsePair r
  bytesAt r 3 1 == 0 && bytesAt r 6 2 == 0 &&
    p.act ≤ 2 && (p.kind == 0 ||
      (p.a < im.caps.length && (p.curve == 0 || (Tab.find? im.curves p.curve).isSome) &&
        (if p.kind = 1 then decide (p.b < im.caps.length)
         else if p.kind = 2 then slots.contains p.b
         else p.b ≤ 63 && (Tab.find? im.pitches p.b).isSome))) &&
    !(im.sep && k ≥ 8192 && p.kind != 0)

/-- Record k of section t passes its checks. -/
def State.recOk (s : State) (im : SafImage) (bs : List Byte) (slots : List Nat) (t k : Nat) : Bool :=
  let all := secRecs bs t
  match t with
  | 1 => s.groupRecOk im all k
  | 2 => jointRecOk im (all.getD k [])
  | 3 => capRecOk im (all.getD k [])
  | 4 => connRecOk all k
  | 5 => zoneRecOk im (secRecs bs 4) all k
  | 6 => pitchRecOk all k
  | 7 => curveRecOk (all.getD k [])
  | 8 => inputRecOk all k
  | _ => pairRecOk im slots (all.getD k []) k

/-- The first failing record: section 0 for the header, with the byte offset at which it stands (R337, R409). -/
def State.safBad (s : State) (bs : List Byte) : Option (Nat × Nat × Nat) :=
  let types := (List.range 9).map (· + 1)
  if !safHeaderOk bs then some (0, 0, 0)
  else
    match types.find? fun t => !dirEntryOk bs t with
    | some t => some (0, t, 64 + 8 * (t - 1))
    | none =>
      let im := parseSafImage bs
      let slots := slotsBefore (secRecs bs 4) (secRecs bs 5) true (secCount bs 5)
      let bad (t : Nat) : Option (Nat × Nat × Nat) :=
        ((List.range (secCount bs t)).find? fun k => !s.recOk im bs slots t k).map fun k =>
          (t, k, secOffset bs t + k * secSize t)
      types.findSome? bad

/-- The checks of R337 on an image of the length a command gives: the reason, the REJECT detail, the number of the check,
and section and record as IMAGE_REJECTED gives them. -/
def State.safetyCheck (s : State) (bs : List Byte) (len : Nat) : Option (Reason × Nat × Nat × Nat) :=
  if bs.length ≠ len || bytesAt bs 8 4 ≠ len || len > 262144 then some (.lengthRange, 0, 1, 0)
  else if !s.signed KeyClass.safety bs then some (.sigInvalid, 0, 2, 0)
  else if !s.targetsMe bs then some (.imageTarget, 0, 3, 0)
  else if bytesAt bs 12 4 < s.rollback 2 then some (.imageRollback, 0, 4, 0)
  else
    match s.safBad bs with
    | some (t, k, off) => some (.imageInvalid, off, 5, t + k * 2 ^ 8)
    | none => none

/-- A rejected safety image is recorded (R333, R436). -/
def State.safetyRejected (s : State) (bs : List Byte) (check where' : Nat) : State :=
  s.tally .imageRejected (.region 1) check where' (bytesAt bs 12 4)

/-- An accepted safety image waits for the next cycle boundary (R333). -/
def State.safetyAccept (s : State) (bs : List Byte) (cmd : Option (Nat × Nat)) : State :=
  let im := parseSafImage bs
  let s : State := { s with saf := { s.saf with waiting := some (im, cmd) } }
  s.tally .imageAccepted (.region 1) 0 0 im.revision

end Sys2Proof.Machine
end

