-- ==== Sys2Proof/Machine/Presence.lean ====
section
/-!
DEFINITION. Safe inputs, Ubkair safety frames and presence slots, output tests, and pitches granted by another node
(R69, R304 to R306, R319, R321, R325 to R329, R338, R351, R362).
-/

namespace Sys2Proof.Machine

/-! ## Safe inputs (R328, R329) -/

/-- An input as it stands. -/
def State.safeIn (s : State) (k : Nat) : InState := Tab.get (fun _ => {}) s.saf.inputs k

def State.setSafeIn (s : State) (k : Nat) (x : InState) : State :=
  { s with saf := { s.saf with inputs := Tab.set (fun _ => {}) s.saf.inputs k x } }

/-- The image's record of an input; an input without one has no function and equivalent mode. -/
def State.inputRec (s : State) (k : Nat) : SInput := (Tab.find? s.saf.image.inputs k).getD {}

/-- What the levels of two channels show: 0 OK, 1 DEMAND; none: neither. -/
def SInput.shows (i : SInput) (a b : Bool) : Option Nat :=
  if i.antivalent then (if a && !b then some 0 else if !a && b then some 1 else none)
  else if a && b then some 0
  else if !a && !b then some 1
  else none

/-- The input counts as DEMAND. -/
def State.inDemand (s : State) (k : Nat) : Bool := (s.safeIn k).state != 0

/-- The groups an input names. -/
def SInput.members (i : SInput) : List Nat := (List.range 8).filter fun g => i.groups.testBit g

/-- The effect of an input that enters DEMAND or FAULT from OK (R69, R329). -/
def State.inputActs (s : State) (k : Nat) : State :=
  let i := s.inputRec k
  match i.fn with
  | 1 => s.each i.members fun s g => s.groupOut g GReason.safety Cause.input
  | 2 => s.each i.members fun s g => s.protectiveStop g Cause.input 0
  | 3 => s.each i.members fun s g =>
      if s.limitModes.contains 4 && s.groupState g == 2 then s.protectiveStop g Cause.input 1 else s
  | _ => s

/-- An input takes a state: its register bits, its record and its effect (R328, R329, R339). -/
def State.inputEnters (s : State) (k : Nat) (x : InState) : State :=
  let old := (s.safeIn k).state
  let s := (s.setSafeIn k x).setBitFld F.SAF_SIN_ok k (x.state == 0)
  let s := s.setBitFld F.SAF_SIN_fault k (x.state == 2)
  if x.state = old then s
  else
    let s := s.tally .input (.safety (8 + k)) x.state
    if old = 0 then s.inputActs k else s

/-- An input judged by its levels: FAULT clears only by DEMAND and then OK (R328). -/
def State.inputJudge (s : State) (k : Nat) : State :=
  let x := s.safeIn k
  let x' : InState := match (s.inputRec k).shows x.a x.b with
    | some 0 => if x.state = 2 && !x.demandSeen then { x with odd := none }
                else { x with odd := none, state := 0, demandSeen := false }
    | some _ => if x.state = 2 then { x with odd := none, demandSeen := true } else { x with odd := none, state := 1 }
    | none => { x with odd := some (x.odd.getD s.now) }
  s.inputEnters k x'

/-- The level of a channel that the image's filter passes: the new one once it has held for the filter time (R328). -/
def SInput.passes (i : SInput) (old : Bool) (c : ChanLevel) : Bool := if c.held.toNat ≥ i.filter then c.level else old

/-- SAFE_INPUT: the levels of an input's channels, as far as its filter passes them. Their meaning comes from the image
(R328). -/
def State.safeInput (s : State) (k : Nat) (a b : ChanLevel) : State :=
  let x := s.safeIn k
  let i := s.inputRec k
  let s := s.setSafeIn k { x with a := i.passes x.a a, b := i.passes x.b b }
  if s.imageOk then s.inputJudge k else s

/-- DISCREPANCY: the channels have disagreed for longer than the discrepancy time (R328). -/
def State.discrepancy (s : State) (k : Nat) : State :=
  match (s.safeIn k).odd with
  | none => s
  | some t =>
    let s := s.advanceTo ((t + (s.inputRec k).disc * 1000000) * nsUnit)
    s.inputEnters k { s.safeIn k with state := 2, demandSeen := false }

/-! ## Connections and presence slots (R304 to R306, R362) -/

def State.connOf (s : State) (c : Nat) : ConnState := Tab.get (fun _ => {}) s.saf.conn c

def State.setConnOf (s : State) (c : Nat) (x : ConnState) : State :=
  { s with saf := { s.saf with conn := Tab.set (fun _ => {}) s.saf.conn c x } }

/-- CONN[c].STAT.state: 0 OFF, 1 RUN, 2 LOST. -/
def State.connState (s : State) (c : Nat) : Nat := s.fld (F.SCONN_STAT_state c)

/-- A connection's state changes, with its record (R339). -/
def State.setConnState (s : State) (c st : Nat) : State :=
  if s.connState c = st then s
  else (s.setFld (F.SCONN_STAT_state c) st).tally .connection (.safety (32 + c)) st

/-- One 32-byte record of a frame's payload (R304). -/
def parsePresence (r : List Byte) : Presence :=
  { shape := { kind := bytesAt r 1 1, p := vecAt r 4, q := vecAt r 16, radius := bytesAt r 28 4 }, vh := bytesAt r 2 2 }

/-- The records of a payload. -/
def presenceRecs (data : List Byte) : List (List Byte) :=
  (List.range (bytesAt data 0 1)).map fun i => (data.drop (16 + 32 * i)).take 32

/-- The content checks of R305: the count, reserved values, the slots, the boxes. -/
def presenceOk (c : SConn) (data : List Byte) : Bool :=
  let n := bytesAt data 0 1
  1 ≤ n && n ≤ 7 && data.length == 16 + 32 * n && bytesAt data 1 15 == 0 &&
    (presenceRecs data).all fun r =>
      bytesAt r 0 1 < c.slotCount && bytesAt r 1 1 ≤ 2 && (bytesAt r 1 1 != 2 || boxOk (vecAt r 4) (vecAt r 16))

/-- The checks of R362 on the payload of a frame, after the pair of node and connection. -/
def State.ubkairOk (s : State) (c : Nat) (r : SConn) (payload : List Byte) : Bool :=
  let l := payload.length
  let lost := s.connState c != 1
  let step := (bytesAt payload 2 4 + 2 ^ 32 - (s.connOf c).seq.getD 0) % 2 ^ 32
  60 ≤ l && l ≤ 252 && bytesAt payload (l - 4) 4 == safetyCrc r.seed r.node payload &&
    bytesAt payload 6 2 == r.watchdog && (lost || (s.connOf c).seq.isNone || 1 ≤ step && step ≤ 16)

/-- A good frame is applied to its slots together; the connection runs (R305, R306). -/
def State.frameApplied (s : State) (c : Nat) (payload data : List Byte) : State :=
  let x := s.connOf c
  let slots := (presenceRecs data).foldl (fun (t : Tab (Option Presence)) (r : List Byte) =>
    Tab.set (fun _ => none) t (bytesAt r 0 1) (some (parsePresence r))) (if s.connState c = 1 then x.slots else [])
  let here := x.before.filter fun b => sameClock .safety b.1 s.clk.time
  let before := here.getD (s.clk.time, s.connState c == 1, x.slots)
  let s := s.setConnOf c { good := some s.now, slots := slots, seq := some (bytesAt payload 2 4), before := some before }
  (s.countFld (F.SCONN_FRAMES_good c)).setConnState c 1

/-- SAFETY_FRAME: the payload of a Ubkair frame for connection c of the image (R304 to R306, R362). -/
def State.safetyFrame (s : State) (c : Nat) (payload : List Byte) : State :=
  if !s.imageOk then s
  else
    match Tab.find? s.saf.image.conns c with
    | none => s
    | some r =>
      let data := (payload.drop 8).take (payload.length - 12)
      if bytesAt payload 0 2 ≠ r.conn then s
      else if s.ubkairOk c r payload && presenceOk r data then s.frameApplied c payload data
      else s.countFld (F.SCONN_FRAMES_bad c)

/-- CONNECTION_LOST: no good frame for the watchdog time; the fallback box stands in every slot (R306). -/
def State.connectionLost (s : State) (c : Nat) : State :=
  match (s.connOf c).good with
  | none => s
  | some t =>
    if s.connState c ≠ 1 then s
    else
      let w := ((Tab.find? s.saf.image.conns c).getD {}).watchdog
      let s := s.advanceTo ((t + w * 1000) * nsUnit)
      let s := s.setConnOf c { s.connOf c with slots := [] }
      (s.countFld (F.SCONN_STAT_lost_cnt c)).setConnState c 2

/-- CONN[c].AGE: us since the last good frame (R339). -/
def State.connAge (s : State) (c : Nat) : Nat :=
  match (s.connOf c).good with
  | some t => satCount 16 ((s.now - t) / 1000)
  | none => 0

/-- The source of a presence slot. -/
inductive SlotClass where
  | empty | sensor | fixed | intrusion
  deriving DecidableEq, Repr

/-- What a slot holds at a boundary: its class, its shape, the person's speed in UQ16.16 mm/s, and its allowance
(R304, R306, R309). -/
structure SlotView where
  cls : SlotClass := .empty
  shape : Shape := {}
  vh : Nat := 0
  extra : Nat := 0
  deriving DecidableEq, Repr

/-- Whether a connection runs, and its slots, as a boundary at this clock finds them: without the frames applied in this
clock, which belong to the next snapshot (R307). -/
def State.connView (s : State) (c : Nat) : Bool × Tab (Option Presence) :=
  let x := s.connOf c
  match x.before.filter fun b => sameClock .safety b.1 s.clk.time with
  | some b => b.2
  | none => (s.connState c == 1, x.slots)

/-- A slot of a connection: its record while the connection runs and a frame has written it, else the fallback box. -/
def State.connSlot (s : State) (c : Nat) (r : SConn) (i : Nat) : SlotView :=
  let dflt := s.saf.image.vhDefault
  let view := s.connView c
  let held := if view.1 then Tab.get (fun _ => none) view.2 (i - r.slotBase) else none
  match held with
  | some p =>
    if p.shape.kind = 0 then {}
    else { cls := .sensor, shape := p.shape, vh := if p.vh = 0 then dflt else p.vh * 2 ^ 16, extra := r.extra }
  | none => { cls := .sensor, shape := { kind := 2, p := r.lo, q := r.hi }, vh := dflt, extra := r.extra }

/-- A slot of a zone; an intrusion zone is present only while its input is in DEMAND or FAULT. -/
def State.zoneSlot (s : State) (z : SZone) : SlotView :=
  if z.intrusion && !s.inDemand z.input then {}
  else { cls := if z.intrusion then .intrusion else .fixed, shape := z.shape, vh := s.saf.image.vhDefault, extra := z.extra }

/-- The snapshot of a slot (R307). -/
def State.slotView (s : State) (i : Nat) : SlotView :=
  match List.find? (fun (e : Nat × SConn) => e.2.slotBase ≤ i && i < e.2.slotBase + e.2.slotCount) s.saf.image.conns with
  | some e => s.connSlot e.1 e.2 i
  | none =>
    match s.saf.image.zones.find? fun z => z.slot == i with
    | some z => s.zoneSlot z
    | none => {}

/-! ## Output tests and readbacks (R326, R327) -/

/-- An output of a group's STO has failed. -/
def State.stoFails (s : State) (g : Nat) : State :=
  let s := s.setBitFld F.SAF_STO_fault g true
  (s.groupOut g GReason.safety Cause.stoTest).stoAssert g Cause.stoTest

/-- The brake output of a slice has failed: its group is put out. -/
def State.brakeFails (s : State) (n : Nat) : State :=
  let s := s.setPair A.SAF_BRKF (setBitNat (s.pair A.SAF_BRKF) n true)
  match s.sliceGroup n with
  | some g => (s.groupOut g GReason.safety Cause.brakeTest).stoAssert g Cause.brakeTest
  | none => s.setBrake n false Cause.brakeTest

/-- STO_TEST: at every sto_test interval each released output is pulsed low in turn; those whose readback did
not follow fail (R327). -/
def State.stoTest (s : State) (badA badB badBrake : Nat) : State :=
  if !s.imageOk then s
  else
    let s := match s.saf.lastTest with
      | some t => s.advanceTo ((t + s.saf.image.stoTest * 1000000) * nsUnit)
      | none => s
    let s : State := { s with saf := { s.saf with lastTest := some s.now } }
    let sto := (List.range 8).filter fun g =>
      badA.testBit g && s.bitFld F.SAF_STO_a g || badB.testBit g && s.bitFld F.SAF_STO_b g
    let brk := (List.range 64).filter fun n => badBrake.testBit n && s.brakeReleased n
    (s.each sto State.stoFails).each brk State.brakeFails

/-- READBACK_FAULT: a readback differs from the commanded level for more than 1 us, outside a test, in a region that is
out of reset (R327). -/
def State.readbackFault (s : State) (g : Nat) (brake : Option Nat) : State :=
  if !s.pwr.safetyUp then s
  else
    match brake with
    | some n => s.brakeFails n
    | none => s.stoFails g

/-! ## Pitches granted by another node (R319, R321) -/

/-- The groups of this device that hold a pitch of another node: as its home's latest record says, while that record is
fresh and the request stands. -/
def State.remoteHolder (s : State) (k : Nat) : Option Nat :=
  match Tab.get (fun _ => none) s.saf.remote k with
  | some (g, node) =>
    if node == s.fld F.LNK_CFG_node && !s.saf.gives.contains (k, g) && Tab.get (fun _ => 4) s.saf.homeAge (s.pitchHome k) < 4 &&
        (s.pitchQueue k).any fun r => r.group == g && r.node == 0 then some g
    else none
  | none => none

/-- A request of this device waits for the pitch: one that no holding has met. -/
def State.pitchWaits (s : State) (k : Nat) : Bool :=
  let held := !s.pitchLocal k && s.flag (F.SPITCH_W_held k)
  ((s.pitchQueue k).filter fun r => r.node == 0).length > if held then 1 else 0

/-- SAF.PITCH of a pitch of another node follows its home's record (R321). -/
def State.remoteShow (s : State) (k : Nat) : State :=
  let old := s.fld ⟨A.SPITCH_W k, 0, 4⟩
  let new := match s.remoteHolder k with
    | some g => 8 + g
    | none => 0
  let node := match Tab.get (fun _ => none) s.saf.remote k with
    | some (_, n) => if n == s.fld F.LNK_CFG_node then 0 else n
    | none => 0
  let s := (s.setFld ⟨A.SPITCH_W k, 0, 4⟩ new).setFld (F.SPITCH_W_node k) node
  let s := s.setFlag (F.SPITCH_W_requested k) (s.pitchWaits k)
  if old = new then s else s.tally .pitch (.safety (64 + k)) new

/-- A home's holder record arrives: 64 entries of two bytes (R321). A pitch that it no longer gives to the group is given
back (log 28). -/
def State.holderRecord (s : State) (home : Nat) (bs : List Byte) : State :=
  let s : State := { s with saf := { s.saf with homeAge := Tab.set (fun _ => 4) s.saf.homeAge home 0 } }
  s.each ((List.range 64).filter fun k => s.pitchHome k == home && !s.pitchLocal k) fun s k =>
    let v := bytesAt bs (2 * k) 2
    let h := if v.testBit 15 then some (bitsOf v 12 3, bitsOf v 0 12) else none
    let own (g : Nat) : Bool := h == some (g, s.fld F.LNK_CFG_node)
    ({ s with saf := { s.saf with remote := Tab.set (fun _ => none) s.saf.remote k h,
                                  gives := s.saf.gives.filter fun e => e.1 != k || own e.2 } } : State).remoteShow k

/-- PITCH_HOLD_LOST: the home's record has been missing for four link cycles; no group holds its pitches (R321). -/
def State.pitchHoldLost (s : State) (k : Nat) : State :=
  let home := s.pitchHome k
  if s.pitchLocal k || Tab.get (fun _ => 4) s.saf.homeAge home < 4 then s
  else s.each ((List.range 64).filter fun j => s.pitchHome j == home && !s.pitchLocal j) State.remoteShow

/-- An entry of a request record: an open request, with its ridge time; a pitch given back; or neither. The source gives
no way for a release to reach the home: here an entry that is not valid and has a time names the pitch that its group
gives back (DESIGN CHOICE, log 28). -/
inductive PitchEntry where
  | asks (pitch time : Nat)
  | gives (pitch : Nat)
  | nothing
  deriving DecidableEq, Repr

/-- The entry of a group in a request record (R321). -/
def pitchEntry (bs : List Byte) (g : Nat) : PitchEntry :=
  let e := bytesAt bs (16 * g) 1
  let t := bytesAt bs (16 * g + 8) 8
  if e.testBit 7 then .asks (e % 64) t else if t ≠ 0 then .gives (e % 64) else .nothing

/-- What a group of another node publishes reaches the pitches of this home: an open request that is new joins its queue,
one that is no longer open leaves it, and a pitch given back is free from the next boundary on (R319, R321). -/
def State.requestEntry (s : State) (node g : Nat) (e : PitchEntry) : State :=
  let locals := (List.range 64).filter fun k => s.pitchLocal k
  let holds (k : Nat) : Bool := s.fld (F.SPITCH_W_node k) == node && s.fld (F.SPITCH_W_group k) == g
  let mine (r : PitchReq) : Bool := r.group == g && r.node == node
  match e with
  | .gives k =>
    if s.pitchLocal k && holds k && !s.saf.givenBack.contains (k, node) then
      { s with saf := { s.saf with givenBack := s.saf.givenBack ++ [(k, node)] } }
    else s
  | .asks k t =>
    let s := s.each (locals.filter (· != k)) fun s j => s.setPitchQueue j ((s.pitchQueue j).filter fun r => !mine r)
    if !s.pitchLocal k || (s.pitchQueue k).any mine || holds k then s
    else s.setPitchQueue k (s.pitchQueue k ++ [{ group := g, node := node, time := t }])
  | .nothing => s.each locals fun s j => s.setPitchQueue j ((s.pitchQueue j).filter fun r => !mine r)

/-- Another node's request record arrives (R321). -/
def State.requestRecord (s : State) (node : Nat) (bs : List Byte) : State :=
  s.each (List.range 8) fun s g => s.requestEntry node g (pitchEntry bs g)

/-- The home still shows a group of this device as the holder of a pitch that the group has given back, or has no request
for any more. -/
def State.givesBack (s : State) (g k : Nat) : Bool :=
  !s.pitchLocal k && Tab.get (fun _ => none) s.saf.remote k == some (g, s.fld F.LNK_CFG_node) &&
    (s.saf.gives.contains (k, g) || !(s.pitchQueue k).any fun r => r.group == g && r.node == 0)

/-- The entry that this device publishes for a group: first the pitch that it gives back, then its open request, that is
the one that waits for another home's grant (R321, log 28). -/
def State.ownEntry (s : State) (g : Nat) : List Byte :=
  match (List.range 64).find? (s.givesBack g) with
  | some k => toBytes 8 k ++ toBytes 8 (Nat.max 1 s.now)
  | none =>
    let asks (k : Nat) : Option PitchReq :=
      if s.pitchLocal k || s.remoteHolder k == some g then none
      else (s.pitchQueue k).find? fun r => r.group == g && r.node == 0
    match (List.range 64).findSome? fun k => (asks k).map fun r => (k, r.time) with
    | some (k, t) => toBytes 8 (128 + k) ++ toBytes 8 t
    | none => toBytes 16 0

/-- The record that this device publishes at pitch_req, one entry per group (R321). -/
def State.ownRequests (s : State) : List Byte := (List.range 8).flatMap s.ownEntry

/-- The record that this device publishes at pitch_hold as the home of its pitches (R321). -/
def State.ownHoldings (s : State) : List Byte :=
  (List.range 64).flatMap fun k =>
    let g := s.fld (F.SPITCH_W_group k)
    let node := s.fld (F.SPITCH_W_node k)
    if !s.pitchLocal k then toBytes 2 0
    else if s.flag (F.SPITCH_W_held k) then toBytes 2 (2 ^ 15 + g * 2 ^ 12 + s.fld F.LNK_CFG_node)
    else if node ≠ 0 then toBytes 2 (2 ^ 15 + g * 2 ^ 12 + node)
    else toBytes 2 0

end Sys2Proof.Machine
end

