-- ==== Sys2Proof/Machine/Access.lean ====
section
/-!
DEFINITION. Register access: what a read returns (R8, R11, R14, R35), when a write of a register is applied and when it
is discarded (R9 to R12, R55, R79, R90, R159, R180, R209, R235, R493), and the writes of the PWM block, which a loop
core may make too (R138, R141, R148, R159, R265).
-/

namespace Sys2Proof.Machine

/-! ## Live values -/

/-- Word k of a core's context as its DREG window shows it, while the core is halted (R281, R295). -/
def State.dreg (s : State) (c k : Nat) : Word :=
  match (s.coreOf c).ctx with
  | some ws => if s.debugOpen then ws.getD k 0 else 0
  | none => 0

/-- HWK.CORE[c].STATUS.state (R261): a withdrawn core that still runs shows WITHDRAWING. -/
def State.coreState (s : State) (c : Nat) : Nat :=
  let x := s.coreOf c
  if x.ctx.isSome then 5
  else
    match x.status with
    | .off => 6
    | .selftest => 3
    | .take => if s.quarantined c then 4 else 0
    | _ => if x.withdraw then 2 else 1

/-- LC.CORE[c].STATUS (R295). -/
def State.lcStatus (s : State) (c : Nat) : Nat :=
  let x := s.coreOf c
  let pc := match x.ctx with
    | some ws => (ws.getD 71 0).toNat
    | none => x.pc
  let levels := match x.ctx with
    | some ws => (ws.getD 69 0).toNat
    | none => x.levels
  pc % 2 ^ 16 + (if x.ctx.isSome then 2 ^ 16 else 0) +
    (if x.status == .take && x.ctx.isNone then 2 ^ 17 else 0) + levels % 4 * 2 ^ 18

/-- PWM.S[n].COUNT: the counter and the switching period, 0 while held, and as they stood while frozen (R131, R151). -/
def State.countWord (s : State) (n : Nat) : Nat :=
  let x := s.sliceOf n
  if x.held then 0
  else
    (if x.frozen.isSome then x.frozenFor else s.sinceReload n) / countUnit % 2 ^ 16 + x.index % 16 * 2 ^ 16

/-- PWM.S[n].CTRL with the stagger in force (R145, R159). -/
def State.ctrlWord (s : State) (n : Nat) : Nat :=
  let w := (s.reg (A.S_CTRL n)).toNat
  w / 2 ^ 16 * 2 ^ 16 + s.staggerTaps n / 64 % 2 ^ 16

/-- Word w of entry i of the compare unit's view (R130). -/
def State.cmpViewWord (s : State) (i w : Nat) : Nat :=
  match s.cmpHeld[i]? with
  | some e => e.view / 2 ^ (32 * w)
  | none => 0

/-- Records of the ring that wait for tally ledger k (R444). -/
def State.tallyPending (s : State) (k : Nat) : Nat := (s.tly.ring.filter fun r => r.ledger == k).length

/-- What a register shows of the device holds until the reset is released (R14); what the always-on domain keeps is shown
all the time. -/
def liveInReset (a : Nat) : Bool := 0x360000 ≤ a && a < 0x361000 || a = A.RT_NOW || a = A.RT_NOW + 4 || a = A.RT_CIVIL ||
  a = A.RT_CIVIL + 4

/-- The word at BAR0 offset `a` as a read finds it: the stored word, or the present value of what the register shows. A
device reset that is not released leaves every register at its Reset column (R14). -/
def State.liveWord (s : State) (a : Nat) : Word :=
  match findReg a with
  | none => 0
  | some (r, is) =>
    if s.pwr.held && !liveInReset a then s.reg a else
    let i := is.getD 0 0
    let half (v : Nat) : Word := BitVec.ofNat 32 (if (a - r.addr) % 8 = 4 then v / 2 ^ 32 else v)
    let word (v : Nat) : Word := BitVec.ofNat 32 v
    if r.addr = A.RT_NOW then half s.now
    else if r.addr = A.RT_CIVIL then half (unsignedOf 64 (s.civil s.now))
    else if r.addr = A.CMPV_WORD 0 0 then word (s.cmpViewWord i (is.getD 1 0))
    else if r.addr = A.S_CTRL 0 then word (s.ctrlWord i)
    else if r.addr = A.S_STATUS 0 then
      withField (withField (s.reg a) 8 4 (s.inhBits i)) 12 3 (s.hallOf i)
    else if r.addr = A.S_COUNT 0 then word (s.countWord i)
    else if r.addr = A.SCONN_AGE 0 then word (s.connAge i)
    else if r.addr = A.LVL_DEPTH 0 then withField (s.reg a) 0 16 (s.levelDepth i)
    else if r.addr = A.HC_STATUS 0 then
      word (s.coreState i + (s.coreOf i).stall * 2 ^ 8 + (s.coreOf i).exec * 2 ^ 16)
    else if r.addr = A.LC_STATUS 0 then word (s.lcStatus i)
    else if r.addr = A.LC_DREG 0 0 then s.dreg i (is.getD 1 0)
    else if r.addr = A.EMU_BACKLOG 0 then word (s.emuBacklog i)
    else if r.addr = A.EMU_STAT 0 then word (if s.emuLag i = 0 then 0 else 1)
    else if r.addr = A.CV_STATUS 0 && i = 24 then withField (s.reg a) 0 1 (if s.cmBusy then 1 else 0)
    else if r.addr = A.LNK_CYCNUM then half (s.linkNow / s.linkCycle)
    else if r.addr = A.CMD_STAT 0 then
      withField (withField (s.reg a) 16 11 (if s.flag F.LDG_STAT_ready then s.outstanding i else 0)) 2 1
        (if s.disposalWaits i && ringHeld (s.cursor i).producer (s.fld (F.CMD_CONSUMED_count i)) != 0 then 1 else 0)
    else if r.addr = A.TLY_OCC then withField (s.reg a) 0 13 s.tly.ring.length
    else if r.addr = A.TLY_STAT then withField (s.reg a) 0 2 (tallyStage (s.fld F.TLY_CFG_hiwater) s.tly.ring.length)
    else if r.addr = A.TLY_SEQ then half s.tly.next
    else if r.addr = A.TLY_PEND 0 then word (s.tallyPending i)
    else if r.addr = A.TWN_HEALTH then word s.healthWord
    else if r.addr = A.TWN_STAT then (s.setFlag F.TWN_STAT_act_out s.actOut).reg A.TWN_STAT
    else if r.addr = A.FAB_DENT_LO then (s.dirEntry (s.fld F.FAB_DSEL_point)).1
    else if r.addr = A.FAB_DENT_HI then (s.dirEntry (s.fld F.FAB_DSEL_point)).2
    else if r.addr = A.FAB_PCTL then withField (s.reg a) 2 1 (if s.hostReads then 1 else 0)
    else s.reg a

/-! ## Reads (R7, R8, R35) -/

/-- The key of a holding copy (R8). -/
def holdKey (agent a : Nat) : Nat := agent * 2 ^ 22 + a

/-- A 32-bit read: the lower word of a pair captures the upper one, and the upper one consumes the copy (R8). -/
def State.read32 (s : State) (agent a : Nat) : State × Word :=
  match findReg a with
  | none => (s, 0)
  | some (r, _) =>
    if !r.pair then (s, s.liveWord a)
    else if (a - r.addr) % 8 = 0 then
      ({ s with holdRead := Tab.set (fun _ => none) s.holdRead (holdKey agent (a + 4)) (some (s.liveWord (a + 4))) },
        s.liveWord a)
    else
      match Tab.get (fun _ => none) s.holdRead (holdKey agent a) with
      | some w => ({ s with holdRead := Tab.set (fun _ => none) s.holdRead (holdKey agent a) none }, w)
      | none => (s, s.liveWord a)

/-- A 64-bit read: both words of a pair in one step, else two reads (R7, R8). -/
def State.read64 (s : State) (agent a : Nat) : State × BitVec 64 :=
  match findReg a with
  | some (r, _) =>
    if r.pair && (a - r.addr) % 8 == 0 then (s, s.liveWord (a + 4) ++ s.liveWord a)
    else
      let lo := s.read32 agent a
      let hi := lo.1.read32 agent (a + 4)
      (hi.1, hi.2 ++ lo.2)
  | none =>
    let hi := s.read32 agent (a + 4)
    (hi.1, hi.2 ++ (0 : Word))

/-! ## When a write applies (R9 to R12) -/

/-- An unassigned slice, or one whose group is OUT. -/
def State.sliceOpen (s : State) (n : Nat) : Bool :=
  match s.sliceGroup n with
  | none => true
  | some g => s.groupState g == 0

/-- Every group that owns a slice of the bank is OUT (R90). -/
def State.bankOut (s : State) (b : Nat) : Bool := (s.bankGroups b).all fun g => s.groupState g == 0

/-- An owner code: a group that is OUT; the cell is never OUT (R235). -/
def State.ownerOut (s : State) (owner : Nat) : Bool := owner < 8 && s.groupState owner == 0

/-- RWC fields of the register accept writes now (R11, R55, R90, R159, R180, R209, R235, R444). -/
def State.gateOpen (s : State) (g : Gate) (is : List Nat) : Bool :=
  let i := is.getD 0 0
  let conf := s.cellMode == 2
  match g with
  | .configure => conf
  | .coord => conf || (List.range 8).all fun k => !(s.fld (F.K_CFG_groups i)).testBit k || s.groupState k == 0
  | .group => conf || s.groupState i == 0
  | .slice => conf || s.sliceOpen i
  | .stepper => conf || match s.sliceGroup i with
    | none => false
    | some g => s.groupState g == 0
  | .bankRate => conf || s.bankOut i
  | .conv => conf || (i < 24 && s.bankOut (i / 3))
  | .emu => conf || !s.flag (F.EMU_CFG_enable i)
  | .stall => conf || s.ownerOut (s.fld (F.ST_CFG_owner i))
  | .boot => conf || s.cellMode == 1

/-- The rate of a bank as CTRL and OFFSET are limited by it (R159). -/
def State.carrierMax (s : State) (b : Nat) : Nat := s.carrierCountsOf b - 1

/-- The fields that a write sees: those of CM and of list 0 are read-only (R66, R180). -/
def fieldsSeen (r : RegDesc) (is : List Nat) : List FieldDesc :=
  if (r.addr = A.CV_SEQ_CFG 0 0 || r.addr = A.CV_SEQ_DEST 0 0 || r.addr = A.CV_STATUS 0 || r.addr = A.CV_CLR 0) &&
      is.getD 0 0 = 24 || r.addr = A.DL_CFG 0 && is.getD 0 0 = 0 then
    r.fields.map fun f => { f with acc := .RO }
  else r.fields

/-- The gate of one field: the stagger fields follow R148, a nibble of SLICEMAP R79, a new owner both owners (R235). -/
def State.fieldOpen (s : State) (r : RegDesc) (is : List Nat) (f : FieldDesc) (old new : Nat) : Bool :=
  let i := is.getD 0 0
  if r.addr = A.S_CTRL 0 then s.gateOpen .bankRate [i / 8]
  else if r.addr = A.MODE_BANK then s.gateOpen .bankRate [f.lsb / 2]
  else if r.addr = A.MODE_SLICEMAP 0 then
    let j := f.lsb / 4
    let out (w : Nat) : Bool := !w.testBit (4 * j + 3) || s.groupState (bitsOf w (4 * j) 3) == 0
    s.cellMode == 2 || (out old && out new)
  else if r.addr = A.ST_CFG 0 then
    s.cellMode == 2 || (s.ownerOut (bitsOf old 16 4) && (bitsOf new 16 4 == bitsOf old 16 4 || s.ownerOut (bitsOf new 16 4)))
  else s.gateOpen r.gate is

/-- An address of program memory in the vendor or the cell area, or in the area of the owner's group (R452). -/
def areaAllowed (owner a : Nat) : Bool :=
  a < 0x4000 || (0xC000 ≤ a && a < 0x10000) || (owner < 8 && a / 0x1000 == 4 + owner)

/-- A value that its field's own description or a relation between fields keeps from being applied under R10. -/
def State.crossBad (s : State) (r : RegDesc) (is : List Nat) (v : Nat) : Bool :=
  let i := is.getD 0 0
  let low (n : Nat) : Bool := v % n != 0
  if r.addr = A.RT_CIVIL_RATE then (signedOf 32 v).natAbs > 858993
  else if r.addr = A.K_CFG 0 then bitsOf v 0 3 == 3 && bitsOf v 24 4 == 0
  else if r.addr = A.MG_QBASE 0 then low 256
  else if r.addr = A.MODEL_KIND 0 0 then bitsOf v 8 8 > is.getD 1 0
  else if r.addr = A.STP_THRESH 0 then v / 2 ^ 16 ≥ v % 2 ^ 16
  else if r.addr = A.STP_IRUN 0 then v ≥ 2 ^ 31
  else if r.addr = A.STP_MINIV 0 then v < 2 * s.fld (F.STP_TIMING_pw i)
  else if r.addr = A.LIM_V_A_J 0 0 0 then v == 0
  else if r.addr = A.S_CTRL 0 then v % 2 ^ 16 > s.carrierMax (i / 8)
  else if r.addr = A.BANK_OFFSET 0 then v % 2 ^ 16 > s.carrierMax i
  else if r.addr = A.OC_TH 0 0 then bitsOf v 16 12 > bitsOf v 0 12
  else if r.addr = A.CV_SEQ_CFG 0 0 then bitsOf v 0 4 > 10 || bitsOf v 0 4 == 8 && i % 3 != 2
  else if r.addr = A.FB_CFG 0 then
    let mode := bitsOf v 0 3
    v.testBit 9 && (mode == 2 || ((mode == 1 || mode == 5) && bitsOf v 4 2 != 0))
  else if r.addr = A.EMU_ZPOS 0 then s.fld (F.EMU_ZPER_per i) != 0 && v ≥ s.fld (F.EMU_ZPER_per i)
  else if r.addr = A.ST_ENTRY 0 then low 4 || !areaAllowed (s.fld (F.ST_CFG_owner i)) v
  else if r.addr = A.HC_IDLE 0 then low 4 || !areaAllowed 8 v
  else if r.addr = A.ST_DEADLINE 0 then bitsOf v 0 2 == 1 && bitsOf v 8 24 == 0
  else if r.addr = A.ST_CFG 0 then
    v.testBit 1 && ((List.range 12).filter fun c => (s.fld (F.ST_CORES_cores i)).testBit c).length < 3
  else if r.addr = A.ST_CORES 0 then
    s.flag (F.ST_CFG_dual i) && ((List.range 12).filter fun c => v.testBit c).length < 3
  else if r.addr = A.LNK_TIMING then bitsOf v 0 10 < bitsOf v 16 10 + 48
  else if r.addr = A.TWN_TOL then v ≥ 2 ^ 31 || v == 0
  else if r.addr = A.FAB_SRAM_BASE then low 4096 || v + s.fld F.FAB_SRAM_SIZE_size > 0x7E0000
  else if r.addr = A.FAB_SRAM_SIZE then low 4096 || s.fld F.FAB_SRAM_BASE_base + v > 0x7E0000
  else if r.addr = A.FAB_DRAM_BASE || r.addr = A.FAB_HOST_BASE then low 4096
  else if r.addr = A.FAB_DENT_LO then
    low 16 || bitsOf v 0 25 + 16 + 4 * (bitsOf v 25 6 + 1) > 2 ^ 25 ||
      v.testBit 31 && (s.dirEntry (s.fld F.FAB_DSEL_point)).2.toNat == 4
  else if r.addr = A.FAB_DENT_HI then bitsOf v 0 3 == 4 && (s.dirEntry (s.fld F.FAB_DSEL_point)).1.toNat.testBit 31
  else if r.addr = A.CMD_BASE 0 || r.addr = A.CPL_BASE 0 || r.addr = A.TAL_BASE 0 then low 4096
  else if r.addr = A.LDG_ANCHOR then low 1024
  else if r.addr = A.SEC_BOOT_ADDR || r.addr = A.SEC_DBG_RESP || r.addr = A.SEC_KPROG_ADDR then low 64
  else false

/-- What becomes of a write of a whole register (32 bits, or 64 of a pair): a discard, or the new stored value. A value
below a documented minimum counts as one outside the range, as R10 has it for one above the maximum (DEDUCED, log 73). A
W1C bit that hardware has set in the same clock stays set (R13): `raised` holds those bits. -/
def State.prepare (s : State) (r : RegDesc) (is : List Nat) (stored live raised v : Nat) : Except Discard Nat :=
  let fs := fieldsSeen r is
  let get (f : FieldDesc) (w : Nat) : Nat := bitsOf w f.lsb f.width
  let open' (f : FieldDesc) : Bool := f.acc == .RW || f.acc == .RWC && s.fieldOpen r is f live v
  let wrong (f : FieldDesc) : Bool := get f v < f.lo || get f v > f.hi || f.bad.contains (get f v)
  if fs.any fun f => open' f && wrong f then .error .range
  else if fs.any fun f => f.acc == .RWS && get f v != get f live then .error .safety
  else if fs.any fun f => f.acc == .RWC && !open' f && get f v != get f live then .error .access
  else if (fs.any fun f => open' f) && s.crossBad r is v then .error .range
  else .ok (fs.foldl (fun w f =>
    if open' f then w - (get f w) * 2 ^ f.lsb + (get f v) * 2 ^ f.lsb
    else if f.acc == .W1C then w - (get f w &&& get f v &&& (2 ^ f.width - 1 - get f raised)) * 2 ^ f.lsb
    else w) stored)

/-! ## The PWM block (R138, R141, R148, R159) -/

/-- A shadow write or a COMMIT that reaches the slice: of a core's and the host's in the same count, the core's takes
effect and the host's is discarded (R141). -/
def State.shadowArrives (s : State) (w : Writer) (n off v : Nat) (f : State → State) : State :=
  let x := s.sliceOf n
  let count := s.clk.time / Domain.timing.unit
  let old := if x.wroteAt = count then x.wrote else []
  let core := match w with
    | .core _ => true
    | _ => false
  if !core && old.any (fun e => e.1 && e.2.1 == off) then s.discard w off .collision v
  else
    let s := s.setSlice n { x with wroteAt := count, wrote := old ++ [(core, off, v)] }
    let s := if core then
        s.each (old.filter fun e => !e.1 && e.2.1 == off) fun s e => s.discard .host off .collision e.2.2
      else s
    f s

/-- What an applied write of the PWM block does beyond its register: drive, rates, counters (R90, R136, R148, R159). -/
def State.pwmEffect (s : State) (r : RegDesc) (is : List Nat) (v : Nat) : State :=
  let n := is.getD 0 0
  if r.addr = A.S_CTRL 0 then s.setBank (n / 8) { s.bankOf (n / 8) with rateWait := true }
  else if r.addr = A.BANK_OFFSET 0 then s.setBank n { s.bankOf n with rateWait := true }
  else if r.addr = A.S_CFG 0 then
    let s := s.refine n
    if v.testBit 0 then s else s.undrive n
  else if r.addr = A.S_CLR 0 then if v.testBit 0 then s.setReg (A.S_CNT n) 0 else s
  else s

/-- A 32-bit write of a register of the PWM block. -/
def State.pwmWrite (s : State) (w : Writer) (off : Nat) (v : Word) : State :=
  match findReg off with
  | none => s.discard w off .unoccupied v.toNat
  | some (r, is) =>
    let n := is.getD 0 0
    match s.prepare r is (s.reg off).toNat (s.liveWord off).toNat (s.raisedNow off) v.toNat with
    | .error why => s.discard w off why v.toNat
    | .ok new =>
      if r.addr = A.S_COMMIT 0 then
        if v.toNat.testBit 0 then s.shadowArrives w n off v.toNat fun s => s.commitSlice n else s
      else if r.addr = A.S_PERIOD 0 then
        s.shadowArrives w n off v.toNat fun s => s.shadowWrite n false off (BitVec.ofNat 32 new)
      else if r.addr = A.S_DUTY 0 0 then
        s.shadowArrives w n off v.toNat fun s => s.shadowWrite n true off (BitVec.ofNat 32 new)
      else
        let changed := (s.reg off).toNat != new
        let s := s.setReg off (BitVec.ofNat 32 new)
        if changed || r.addr = A.S_CLR 0 then s.pwmEffect r is v.toNat else s

/-- A BAR0 offset of the PWM block (R34). -/
def inPwm (off : Nat) : Bool := 0x100000 ≤ off && off < 0x140000

/-- A loop core's store through the register window: applied in the PWM block, discarded elsewhere (R265). -/
def State.windowStore (s : State) (c off : Nat) (v : Word) : State :=
  if inPwm off then s.pwmWrite (.core c) off v else s.discard (.core c) off .access v.toNat

/-- A loop core's load through the register window (R8, R265). -/
def State.windowLoad (s : State) (c off : Nat) : State × Word := s.read32 (c + 1) off

end Sys2Proof.Machine
end

