-- ==== Sys2Proof/Machine/Flags.lean ====
section
/-!
DEFINITION. The status register of a loop core: its fields, the flags of CMP and CMPI, and the condition codes (R263,
R291, R292).
-/

namespace Sys2Proof.Machine

/-- Bits of sr (R263). -/
def SR.z : Nat := 0
def SR.n : Nat := 1
def SR.c : Nat := 2
def SR.v : Nat := 3
def SR.g : Nat := 4
def SR.dlf : Nat := 5
def SR.sv : Nat := 6
def SR.sat : Nat := 8
def SR.asat : Nat := 9

/-- The bits of sr that hold anything (R263). -/
def srMask : Word := 0x37F

/-- One bit of sr set or cleared. -/
def srSet (sr : Word) (i : Nat) (b : Bool) : Word := BitVec.ofNat 32 (setBitNat sr.toNat i b)

/-- A bit of sr. -/
def srBit (sr : Word) (i : Nat) : Bool := sr.toNat.testBit i

/-- Flags z, n, c and v from a - b (R263, R292). -/
def cmpFlags (sr a b : Word) : Word :=
  let d := a - b
  let sr := srSet sr SR.z (a == b)
  let sr := srSet sr SR.n (d.toInt < 0)
  let sr := srSet sr SR.c (b.toNat ≤ a.toNat)
  srSet sr SR.v (decide (a.toInt - b.toInt ≠ d.toInt))

/-- A condition code on the flags (R291). -/
def condHolds (sr : Word) : Cond → Bool
  | .AL => true
  | .EQ => srBit sr SR.z
  | .NE => !srBit sr SR.z
  | .LT => srBit sr SR.n != srBit sr SR.v
  | .GE => srBit sr SR.n == srBit sr SR.v
  | .LE => srBit sr SR.z || srBit sr SR.n != srBit sr SR.v
  | .GT => !srBit sr SR.z && srBit sr SR.n == srBit sr SR.v
  | .LO => !srBit sr SR.c
  | .HS => srBit sr SR.c
  | .MI => srBit sr SR.n
  | .PL => !srBit sr SR.n
  | .VS => srBit sr SR.v
  | .VC => !srBit sr SR.v
  | .GS => srBit sr SR.g
  | .GC => !srBit sr SR.g
  | .DF => srBit sr SR.dlf

end Sys2Proof.Machine
end

