-- ==== Sys2Proof/Machine/Operands.lean ====
section
/-!
DEFINITION. Operands and results of loop-core instructions: register numbers (R262), saturation (R271, R272), the
division step (R273), address generation (R274) and the data address map (R264).
-/

namespace Sys2Proof.Machine

/-! ## Core faults (R293) -/

/-- The causes of a core fault, in the order of their codes. -/
inductive CFault where
  | illegal | placement | hazard | run | count | nest | bus | align | operand | ecc
  deriving DecidableEq, Repr

def CFault.code : CFault → Nat
  | .illegal => 1 | .placement => 2 | .hazard => 3 | .run => 4 | .count => 5 | .nest => 6 | .bus => 7 | .align => 8
  | .operand => 9 | .ecc => 10

/-! ## Registers (R262) -/

/-- A register of a core as an operand: cid reads the core's number. -/
def LCore.read (x : LCore) (c r : Nat) : Word := if r = 52 then BitVec.ofNat 32 c else x.getR r

/-- A register written: sr keeps its reserved bits at 0 (R263). -/
def LCore.write (x : LCore) (r : Nat) (w : Word) : LCore := x.setR r (if r = 51 then w &&& srMask else w)

/-- d register. -/
def LCore.d (x : LCore) (i : Fin 16) : Word := x.getR i.val

/-- Status register. -/
def LCore.sr (x : LCore) : Word := x.getR 51

/-! ## Results (R271, R272) -/

/-- Sign extension of a 16-bit immediate (R292). -/
def sext16 (imm : BitVec 16) : Word := imm.signExtend 32

/-- Zero extension of a 16-bit immediate (R292). -/
def zext16 (imm : BitVec 16) : Word := imm.setWidth 32

/-- An exact data result on 32 bits, and whether sv is set: saturated with sr.sat, else the low 32 bits (R271). -/
def satData (sr : Word) (v : Int) : Word × Bool :=
  if srBit sr SR.sat then
    if 2 ^ 31 ≤ v then (0x7FFFFFFF, true) else if v < -(2 ^ 31) then (0x80000000, true) else (BitVec.ofInt 32 v, false)
  else (BitVec.ofInt 32 v, false)

/-- An exact accumulator result on 72 bits (R272). -/
def satAcc (sr : Word) (v : Int) : BitVec 72 × Bool :=
  if srBit sr SR.asat then
    if 2 ^ 71 ≤ v then (BitVec.ofNat 72 (2 ^ 71 - 1), true)
    else if v < -(2 ^ 71) then (BitVec.ofNat 72 (2 ^ 71), true)
    else (BitVec.ofInt 72 v, false)
  else (BitVec.ofInt 72 v, false)

/-- sr with sv set when a result saturated (R263). -/
def svAfter (sr : Word) (saturated : Bool) : Word := if saturated then srSet sr SR.sv true else sr

/-- The amount of a shift: bits [5:0] of a register (R271). -/
def shiftAmount (w : Word) : Nat := w.toNat % 64

/-- CLP: rs limited to plus and minus max(rt, 0) (R292). -/
def clampSym (rs rt : Int) : Int :=
  let l := max rt 0
  min (max rs (-l)) l

/-- How many of the bits below bit `k` down to bit 0 equal `b` before the first that does not. -/
def leadingEqual (w : Nat) (b : Bool) : Nat → Nat
  | 0 => 0
  | k + 1 => if w.testBit k == b then leadingEqual w b k + 1 else 0

/-- NORM: leading bits equal to bit 31, less one (R292). -/
def normCount (w : Word) : Nat := leadingEqual w.toNat (w.toNat.testBit 31) 32 - 1

/-- The signed product of two words. -/
def product (a b : Word) : Int := a.toInt * b.toInt

/-- One step of unsigned restoring division (R273). -/
def divStep (a : BitVec 72) (ds : Word) : BitVec 72 :=
  let t := a.toNat * 2 % 2 ^ 72
  let hi := t / 2 ^ 32
  if hi ≥ ds.toNat then BitVec.ofNat 72 ((hi - ds.toNat) * 2 ^ 32 + t % 2 ^ 32 / 2 * 2 + 1) else BitVec.ofNat 72 t

/-! ## Addresses (R264, R274) -/

/-- A memory operand: base register, addressing mode, signed byte offset. -/
structure Addr where
  p : Fin 8
  mode : Fin 4
  off : BitVec 12 := 0
  deriving DecidableEq, Repr

/-- The post-modified pN: circular when lN is not 0 (R274). -/
def LCore.postModify (x : LCore) (p : Fin 8) : Word :=
  let pn := x.getR (16 + p.val)
  let mn := x.getR (24 + p.val)
  let bn : Int := (x.getR (32 + p.val)).toNat
  let ln : Int := (x.getR (40 + p.val)).toNat
  if ln = 0 then pn + mn
  else
    let t : Int := pn.toNat + mn.toInt
    let t := if bn + ln ≤ t then t - ln else t
    let t := if t < bn then t + ln else t
    BitVec.ofInt 32 t

/-- The address of a memory operand, and the register its mode updates (R274). -/
def LCore.address (x : LCore) (a : Addr) : Nat × List (Nat × Word) :=
  let pn := x.getR (16 + a.p.val)
  match a.mode with
  | 0 => (pn.toNat, [])
  | 1 => (pn.toNat, [(16 + a.p.val, x.postModify a.p)])
  | 2 => ((pn + a.off.signExtend 32).toNat, [])
  | 3 => ((pn + x.getR (24 + a.p.val)).toNat, [])

/-- A form that R290 makes ILLEGAL: an offset in a mode that has none. -/
def Addr.bad (a : Addr) : Bool := a.mode != 2 && a.off != 0

/-- The spaces of the data address map (R264). -/
inductive Space where
  | local | shared | window
  deriving DecidableEq, Repr

/-- Where a data address of `n` bytes lies, with its offset in the space; BUS before ALIGN (R264). -/
def mapData (a n : Nat) : Except CFault (Space × Nat) :=
  let aligned (sp : Space) (off : Nat) : Except CFault (Space × Nat) :=
    if a % n = 0 then .ok (sp, off) else .error .align
  if a < 0x10000 then aligned .local a
  else if 0x10000000 ≤ a && a < 0x10800000 then aligned .shared (a - 0x10000000)
  else if 0x20000000 ≤ a && a < 0x20400000 && n == 4 then aligned .window (a - 0x20000000)
  else .error .bus

end Sys2Proof.Machine
end

