-- ==== Sys2Proof/Machine/Pipe.lean ====
section
/-!
DEFINITION. How a loop core issues an instruction: attention points and runs (R278, R279), placement (R270), the order
in which results, pending loads and flow take effect (R267 to R269), hardware loops (R275 to R277), core faults (R293)
and the stalls of the pipeline (R266, R284).
-/

namespace Sys2Proof.Machine

/-! ## Branches that land, loop ends (R269, R275 to R277) -/

def LCore.isRep (x : LCore) (i : Nat) : Bool := Tab.get (fun _ => false) x.lrep i

/-- The body of an active level holds an address. -/
def LCore.inBody (x : LCore) (i a : Nat) : Bool := tabNat x.lstart i ≤ a && a ≤ tabNat x.lend i

/-- The first active level, outermost first, whose body does not hold the address; the number of levels when all do. -/
def LCore.levelsAt (x : LCore) (a : Nat) : Nat :=
  ((List.range x.levels).find? fun i => !x.inBody i a).getD x.levels

/-- The instruction at a branch target issues: the levels whose body it leaves end (R277). -/
def LCore.land (x : LCore) : LCore :=
  match x.branch with
  | some b => if b.slots = 0 then { x with branch := none, levels := x.levelsAt x.pc } else x
  | none => x

/-- The next instruction stands in a delay slot (R270, R278). -/
def LCore.inSlot (x : LCore) : Bool :=
  match x.branch with
  | some b => b.slots != 0
  | none => false

/-- The next instruction is the one a REP repeats (R270). -/
def LCore.repeated (x : LCore) : Bool := x.levels != 0 && x.isRep (x.levels - 1)

/-- An active BLK body ends at the address, or its last but one word stands there. -/
def LCore.nearEnd (x : LCore) (words : Nat) : Bool :=
  (List.range x.levels).any fun i =>
    !x.isRep i && x.pc ≤ tabNat x.lend i && tabNat x.lend i < x.pc + 4 * words

/-- Loop ends at the end of the word at `last`, innermost level first: where the core goes on, and whether an iteration
of a BLK level ended (R275, R276, R278). -/
def LCore.loopEnd : Nat → LCore → Nat → Bool → LCore × Nat × Bool
  | 0, x, last, it => (x, last + 4, it)
  | fuel + 1, x, last, it =>
    let i := x.levels - 1
    if x.levels = 0 || tabNat x.lend i != last then (x, last + 4, it)
    else
      let it := it || !x.isRep i
      if (x.getR (48 + i)).toNat ≤ 1 then LCore.loopEnd fuel { x with levels := i } last it
      else (x.setR (48 + i) (x.getR (48 + i) - 1), tabNat x.lstart i, it)

/-- Where an instruction leads the core. -/
inductive Flow where
  | seq
  /-- a branch with its two delay slots; none when it is not taken (R269) -/
  | branch (target : Option Nat)
  /-- a loop of `len` words entered `n` times (R275, R276) -/
  | loop (rep : Bool) (n len : Nat)
  deriving DecidableEq, Repr

/-- One delay slot is used up; after the second a taken branch goes to its target (R269). -/
def LCore.useSlot (x : LCore) : LCore :=
  match x.branch with
  | none => x
  | some b =>
    if b.slots = 0 then x
    else if b.slots = 1 then
      match b.target with
      | none => { x with branch := none }
      | some t => { x with
          branch := some { b with slots := 0 }, pc := t, iterEnd := x.iterEnd && x.levelsAt t == x.levels }
    else { x with branch := some { b with slots := b.slots - 1 } }

/-- The core goes on after the word at `last`: loop ends, then delay slots. -/
def LCore.goOn (x : LCore) (last : Nat) : LCore :=
  let r := LCore.loopEnd 4 x last false
  LCore.useSlot { r.1 with pc := r.2.1, iterEnd := r.2.2 }

/-- The loop counter that a loop instruction writes as its result (R268, R275, R276). -/
def LCore.loopCount (x : LCore) : Flow → List (Nat × Word)
  | .loop _ n _ => if n = 0 then [] else [(48 + x.levels, BitVec.ofNat 32 n)]
  | _ => []

/-- A loop level entered with the body after the present word (R275, R276). -/
def LCore.enterLoop (x : LCore) (rep : Bool) (len : Nat) : LCore :=
  let i := x.levels
  { x with
    levels := i + 1
    lstart := Tab.set (fun _ => 0) x.lstart i (x.pc + 4)
    lend := Tab.set (fun _ => 0) x.lend i (x.pc + 4 * len)
    lrep := Tab.set (fun _ => false) x.lrep i rep
    pc := x.pc + 4
    iterEnd := false }

/-- The core's position after an instruction. -/
def LCore.flow (x : LCore) : Flow → LCore
  | .seq => x.goOn x.pc
  | .branch t => { (x.goOn x.pc) with branch := some { target := t, slots := 2 } }
  | .loop rep n len => if n = 0 then x.goOn (x.pc + 4 * len) else x.enterLoop rep len

/-! ## Issue -/

/-- The placement rules of R270 by instruction. -/
inductive Place where
  | plain | branch | rep | blk | take | done | bkpt | token
  deriving DecidableEq, Repr

/-- The instruction may not stand where it stands (R270). -/
def LCore.misplaced (x : LCore) : Place → Bool
  | .plain => false
  | .branch => x.inSlot || x.repeated || x.nearEnd 2
  | .rep => x.inSlot || x.repeated || x.nearEnd 1
  | .blk => x.inSlot || x.repeated
  | .take => x.stall != 0 || x.inSlot || x.levels != 0
  | .done => x.stall == 0 || x.inSlot || x.levels != 0
  | .bkpt => x.repeated
  | .token => x.stall == 0

/-- What an instruction does once no fault stops it: register and accumulator results, loaded values, flow. -/
structure Eff where
  regs : List (Nat × Word) := []
  accs : List (Nat × BitVec 72) := []
  load : List (Nat × Word) := []
  flow : Flow := .seq

/-- Results are written (R267). -/
def LCore.results (x : LCore) (regs : List (Nat × Word)) (accs : List (Nat × BitVec 72)) : LCore :=
  let x := regs.foldl (fun x e => LCore.write x e.1 e.2) x
  accs.foldl (fun x e => LCore.setA x e.1 e.2) x

/-- The pending load writes its destination, over a result of the instruction that just issued (R268); `next` is the load
that is pending from now on. -/
def LCore.boundary (x : LCore) (next : List (Nat × Word)) : LCore :=
  { (x.pend.foldl (fun x e => LCore.write x e.1 e.2) x) with pend := next }

/-- A step asked for is over with this issue: the core halts at the next attention point (R294). -/
def LCore.stepped (x : LCore) : LCore := if x.step then { x with step := false, haltReq := true } else x

/-- The core issues: it runs, is not halted, and no attention stands at this boundary. -/
def LCore.issues (x : LCore) : Bool := x.status == .running && x.ctx.isNone && !x.takesAttention

/-- TAKE: the core waits for work; a core withdrawn for its test begins it (R245, R257). -/
def State.coreTake (s : State) (c : Nat) : State :=
  let s := s.coreStatus c .take
  let s := s.setCore c { s.coreOf c with takeSince := s.now, preempt := false }
  if (s.coreOf c).withdraw then s.beginSelftest c else s

/-- A core fault stops the instruction at the core's pc before it has any effect (R293). The core goes on at its idle
address, but for a fault outside a stall, which leaves it OFF, and one of cause ECC, after which it waits, quarantined. -/
def State.coreFault (s : State) (c : Nat) (f : CFault) : State :=
  let x := ((s.coreOf c).boundary []).stepped
  let s := s.setCore c x
  let s := (s.setFld (F.LC_FAULT_cause c) f.code).setFld (F.LC_FAULT_stall c) x.stall
  let s := (s.setFld (F.LC_FAULT_PC_addr c) x.pc).countFld (F.LC_FCNT_faults c)
  let s := s.tally .coreFault (.core c) f.code x.stall (x.pc % 2 ^ 16)
  if x.stall = 0 then
    let s := (s.coreStatus c .off).openFault 0 4 c 0
    if f = .ecc then s.quarantine c 0 else s
  else
    let s := if f = .ecc then s.quarantine c 0 else s
    let s :=
      if (s.stallOf x.stall).dual then s.execEnds c false true
      else ((s.coreIdle c).readinessEnds x.stall false).containedFault 0 7 c
    if f = .ecc then s.coreTake c else s

/-- The faults that are the same for every instruction, in the order in which they are looked for: fetch, ILLEGAL,
PLACEMENT, RUN, HAZARD. -/
def LCore.commonFault (x : LCore) (illegal : Bool) (place : Place) (accRead : Option Nat) : Option CFault :=
  if x.pc ≥ 0x10000 then some .bus
  else if x.pc % 4 ≠ 0 then some .align
  else if illegal then some .illegal
  else if x.misplaced place then some .placement
  else if x.runLen ≥ 256 then some .run
  else
    match accRead with
    | some a => if x.accBy.contains a then some .hazard else none
    | none => none

/-- What one instruction is, for the issue logic. -/
structure Op where
  place : Place := .plain
  /-- a form that R289 and R290 reserve -/
  illegal : Bool := false
  /-- the accumulator an EXT reads (R268) -/
  accRead : Option Nat := none
  /-- the fault its operands raise -/
  fault : State → LCore → Option CFault := fun _ _ => none
  /-- its results -/
  eff : State → LCore → Eff
  /-- accumulators it writes (R268) -/
  accBy : List Nat := []
  /-- what it does beyond the core's registers, or the stall it enters; none: nothing -/
  also : Option (State → LCore → State) := none
  /-- an outcome in sr comes back later, and a load pending now is written over it (R267, R268) -/
  late : Bool := false

/-- The counters and marks of an issue (R279, R295). -/
def State.countIssue (s : State) (c : Nat) : State := s.wrapFld (F.LC_ISSUED_count c)

/-- The core as it stands when its next instruction issues: a run begins at an attention point (R279), and a branch
target that issues ends the levels whose body it leaves (R277). -/
def State.atIssue (s : State) (c : Nat) : LCore :=
  let x := s.coreOf c
  LCore.land { x with runLen := if x.atPoint then 0 else x.runLen }

/-- The word of program memory at an address (R1, R452). -/
def State.progWord (s : State) (a : Nat) : Word :=
  s.progByte (a + 3) ++ s.progByte (a + 2) ++ s.progByte (a + 1) ++ s.progByte a

/-- The word at an address is no instruction: a reserved opcode, register, field value or bit, or the zeros of an area
without an image (R289, R452). -/
def State.wordIllegal (s : State) (a : Nat) : Bool := (decodeCore 0 (s.progWord a)).isNone

/-- The first fault of an instruction that core `x` issues (R293). -/
def State.issueFault (s : State) (x : LCore) (op : Op) : Option CFault :=
  (if s.areaBusy x.pc then some .bus
   else x.commonFault (op.illegal || s.wordIllegal x.pc) op.place op.accRead).or (op.fault s x)

/-- The core after an instruction that no fault stops (R267 to R269, R275, R276). -/
def LCore.issued (x : LCore) (op : Op) (e : Eff) : LCore :=
  let y := x.results (e.regs ++ x.loopCount e.flow) e.accs
  let y := if op.late then y else y.boundary e.load
  (LCore.flow { y with accBy := op.accBy, runLen := x.runLen + 1 } e.flow).stepped

/-- A loop core issues an instruction. -/
def State.issue (s : State) (c : Nat) (op : Op) : State :=
  let x := s.atIssue c
  if !(s.coreOf c).issues then s
  else
    match s.issueFault x op with
    | some f => (s.setCore c x).coreFault c f
    | none =>
      let s' := (s.setCore c (x.issued op (op.eff s x))).countIssue c
      match op.also with
      | some f => f s' x
      | none => s'

/-! ## Stalls of the pipeline (R266, R284) -/

/-- A flag that comes back to a core; then the load that was pending is written (R267, R268). -/
def State.coreFlag (s : State) (c bit : Nat) (b : Bool) : State :=
  let x := s.coreOf c
  s.setCore c ((x.setR 51 (srSet x.sr bit b)).boundary [])

/-! ## Outputs (R254, R284, R288) -/

/-- The core runs an execution of a dual stall (R253, R254). -/
def State.inDual (s : State) (x : LCore) : Bool := x.stall != 0 && (s.stallOf x.stall).dual

/-- An execution holds one more output, or passes its limit and counts as differing (R254, R288). -/
def Exec.hold (e : Exec) (h : Held) : Exec :=
  let n := (e.held.filter fun g => g.isStore == h.isStore).length
  if n ≥ (if h.isStore then 32 else 8) then { e with differs := true } else { e with held := e.held ++ [h] }

/-- An output of a dual execution is held back (R254). -/
def State.holdOutput (s : State) (x : LCore) (h : Held) : State :=
  let st := s.stallOf x.stall
  s.setStall x.stall { st with execs := st.execs.map fun e => if e.exec == x.exec then e.hold h else e }

/-- A store to a device register in a dual execution is discarded (R254). -/
def State.dualRegStore (s : State) (x : LCore) (off : Nat) : State := s.tally .dualRegStore (.stall x.stall) off

/-- A store enters the store queue, or holds the pipeline until there is room (R266, R284). -/
def State.queueStore (s : State) (c : Nat) (window : Bool) (addr : Nat) (words : List Word) : State :=
  let x := s.coreOf c
  let op : StoreOp := { window := window, addr := addr, words := words, order := x.order }
  let s := s.setCore c { x with order := x.order + 1 }
  if x.stores.length < 8 then s.setCore c { s.coreOf c with stores := x.stores ++ [op] }
  else s.coreHold c (.storeRoom op)

/-- A POST or DLC enters the POST queue, or holds the pipeline until there is room (R266, R284). -/
def State.queuePost (s : State) (c : Nat) (out : Held) (sender : Nat) : State :=
  let x := s.coreOf c
  let op : PostOp := { out := out, sender := sender, order := x.order }
  let s := s.setCore c { x with order := x.order + 1 }
  if x.posts.length < 8 then s.setCore c { s.coreOf c with posts := x.posts ++ [op] }
  else s.coreHold c (.postRoom op)

/-- The words of a memory access at an offset. -/
def wordAddrs (off n : Nat) : List Nat := (List.range n).map fun i => off + 4 * i

/-- Words stored at an address of a space (R264, R265, R284). -/
def State.storeTo (s : State) (c : Nat) (x : LCore) (sp : Space) (off : Nat) (ws : List Word) : State :=
  match sp with
  | .local => s.localWrite c off (ws.map fun w => toBytes 4 w.toNat).flatten
  | .shared => if s.inDual x then s.holdOutput x (.store off ws) else s.queueStore c false off ws
  | .window => if s.inDual x then s.dualRegStore x off else s.queueStore c true off ws

/-- Words loaded from local memory (R264). -/
def State.localWord (s : State) (c off : Nat) : Word := BitVec.ofNat 32 (memNat s.localMem (localKey c off) 4)

/-- A load from local memory finds a word with an uncorrectable error (R265). -/
def State.localFails (s : State) (c off n : Nat) : Bool := (wordAddrs off n).any fun a => s.localBad.contains (localKey c a)

/-! ## Execution ends -/

/-- Stores and posts of the core have all taken effect. -/
def LCore.drained (x : LCore) : Bool := x.stores.isEmpty && x.posts.isEmpty

/-- An instruction that issues only once every earlier store, POST and DLC of the core has taken effect holds the core until
then, without issuing (R284). -/
def State.issueDrained (s : State) (c : Nat) (op : Op) (w : Waiting) : State :=
  let x := s.coreOf c
  if x.issues && !x.drained && (s.issueFault (s.atIssue c) op).isNone then s.coreHold c w
  else s.issue c op

/-- DONE completes: the pending load has been written, the preempt attention is withdrawn (R245, R283). -/
def State.coreDone (s : State) (c : Nat) (rearm : Bool) : State := s.execEnds c rearm false

/-- SYNC and DONE #r, once they issue (R245, R284). -/
def syncOp : Op := { eff := fun _ _ => {} }

def doneOp (c : Nat) (rearm : Bool) : Op :=
  { place := .done, eff := fun _ _ => {}, also := some fun s _ => s.coreDone c rearm }

/-- What a queue entry that became free releases: a full queue's waiter, or a SYNC or DONE, which issues now unless an
attention stands there; DONE's wait is no stall of R266 (R266, R280, R284). -/
def State.release (s : State) (c : Nat) : State :=
  let x := s.coreOf c
  match x.status with
  | .stalled (.storeRoom op) =>
    if x.stores.length < 8 then (s.setCore c { x with stores := x.stores ++ [op] }).coreGoes c 0 else s
  | .stalled (.postRoom op) =>
    if x.posts.length < 8 then (s.setCore c { x with posts := x.posts ++ [op] }).coreGoes c 0 else s
  | .stalled .sync => if x.drained then (s.coreGoes c 0).issue c syncOp else s
  | .stalled (.done rearm) => if x.drained then (s.coreStatus c .running).issue c (doneOp c rearm) else s
  | _ => s

end Sys2Proof.Machine
end

