-- ==== Sys2Proof/Machine/CoreAlu.lean ====
section
/-!
DEFINITION. The loop-core instructions NOP, MOV, MOVI, MOVHI, the data arithmetic, the logic, the shifts, the
comparisons, SEL and PADD (R271, R274, R291, R292).
-/

namespace Sys2Proof.Machine

/-- What every command answers: a next state. -/
abbrev Answer := Host.Outcome State Fault Refusal

/-- A core issues an instruction. -/
def coreIssue (c : Fin 12) (op : Op) (s : State) : Answer := .next (s.issue c.val op)

/-- An instruction that writes one d register with a result that neither saturates nor stalls. -/
def plainOp (rd : Fin 16) (f : LCore → Word) : Op := { eff := fun _ x => { regs := [(rd.val, f x)] } }

/-- An instruction whose exact result is written under R271. -/
def dataOp (rd : Fin 16) (f : LCore → Int) : Op :=
  { eff := fun _ x =>
      let r := satData x.sr (f x)
      { regs := [(rd.val, r.1), (51, svAfter x.sr r.2)] } }

/-- An instruction that writes flags alone. -/
def flagOp (f : LCore → Word) : Op := { eff := fun _ x => { regs := [(51, f x)] } }

/-- NOP (R292). -/
def execNop (c : Fin 12) (s : State) : Answer := coreIssue c { eff := fun _ _ => {} } s

/-- MOV rd6, rs6 (R262, R263, R292). -/
def execMov (c : Fin 12) (rd rs : Fin 64) (s : State) : Answer :=
  coreIssue c { illegal := rd.val > 51 || rs.val > 52
                eff := fun _ x => { regs := [(rd.val, x.read c.val rs.val)] } } s

/-- MOVI rd, #imm. -/
def execMovi (c : Fin 12) (rd : Fin 16) (imm : BitVec 16) (s : State) : Answer :=
  coreIssue c (plainOp rd fun _ => sext16 imm) s

/-- MOVHI rd, #imm. -/
def execMovhi (c : Fin 12) (rd : Fin 16) (imm : BitVec 16) (s : State) : Answer :=
  coreIssue c (plainOp rd fun x => imm ++ (x.d rd).extractLsb' 0 16) s

/-- ADD rd, rs, rt. -/
def execAdd (c : Fin 12) (rd rs rt : Fin 16) (s : State) : Answer :=
  coreIssue c (dataOp rd fun x => (x.d rs).toInt + (x.d rt).toInt) s

/-- SUB rd, rs, rt. -/
def execSub (c : Fin 12) (rd rs rt : Fin 16) (s : State) : Answer :=
  coreIssue c (dataOp rd fun x => (x.d rs).toInt - (x.d rt).toInt) s

/-- ADDI rd, rs, #imm. -/
def execAddi (c : Fin 12) (rd rs : Fin 16) (imm : BitVec 16) (s : State) : Answer :=
  coreIssue c (dataOp rd fun x => (x.d rs).toInt + imm.toInt) s

/-- NEG rd, rs. -/
def execNeg (c : Fin 12) (rd rs : Fin 16) (s : State) : Answer :=
  coreIssue c (dataOp rd fun x => -(x.d rs).toInt) s

/-- ABS rd, rs. -/
def execAbs (c : Fin 12) (rd rs : Fin 16) (s : State) : Answer :=
  coreIssue c (dataOp rd fun x => ((x.d rs).toInt.natAbs : Int)) s

/-- MIN rd, rs, rt. -/
def execMin (c : Fin 12) (rd rs rt : Fin 16) (s : State) : Answer :=
  coreIssue c (plainOp rd fun x => if (x.d rs).toInt ≤ (x.d rt).toInt then x.d rs else x.d rt) s

/-- MAX rd, rs, rt. -/
def execMax (c : Fin 12) (rd rs rt : Fin 16) (s : State) : Answer :=
  coreIssue c (plainOp rd fun x => if (x.d rs).toInt ≤ (x.d rt).toInt then x.d rt else x.d rs) s

/-- CLP rd, rs, rt. -/
def execClp (c : Fin 12) (rd rs rt : Fin 16) (s : State) : Answer :=
  coreIssue c (plainOp rd fun x => BitVec.ofInt 32 (clampSym (x.d rs).toInt (x.d rt).toInt)) s

/-- AND rd, rs, rt. -/
def execAnd (c : Fin 12) (rd rs rt : Fin 16) (s : State) : Answer :=
  coreIssue c (plainOp rd fun x => x.d rs &&& x.d rt) s

/-- OR rd, rs, rt. -/
def execOr (c : Fin 12) (rd rs rt : Fin 16) (s : State) : Answer :=
  coreIssue c (plainOp rd fun x => x.d rs ||| x.d rt) s

/-- XOR rd, rs, rt. -/
def execXor (c : Fin 12) (rd rs rt : Fin 16) (s : State) : Answer :=
  coreIssue c (plainOp rd fun x => x.d rs ^^^ x.d rt) s

/-- ANDI rd, rs, #imm. -/
def execAndi (c : Fin 12) (rd rs : Fin 16) (imm : BitVec 16) (s : State) : Answer :=
  coreIssue c (plainOp rd fun x => x.d rs &&& zext16 imm) s

/-- ORI rd, rs, #imm. -/
def execOri (c : Fin 12) (rd rs : Fin 16) (imm : BitVec 16) (s : State) : Answer :=
  coreIssue c (plainOp rd fun x => x.d rs ||| zext16 imm) s

/-- A left shift's exact result (R271). -/
def shiftLeft (w : Word) (n : Nat) : Int := w.toInt * 2 ^ n

/-- SHL rd, rs, rt. -/
def execShl (c : Fin 12) (rd rs rt : Fin 16) (s : State) : Answer :=
  coreIssue c (dataOp rd fun x => shiftLeft (x.d rs) (shiftAmount (x.d rt))) s

/-- SHR rd, rs, rt. -/
def execShr (c : Fin 12) (rd rs rt : Fin 16) (s : State) : Answer :=
  coreIssue c (plainOp rd fun x => x.d rs >>> shiftAmount (x.d rt)) s

/-- SAR rd, rs, rt. -/
def execSar (c : Fin 12) (rd rs rt : Fin 16) (s : State) : Answer :=
  coreIssue c (plainOp rd fun x => (x.d rs).sshiftRight (shiftAmount (x.d rt))) s

/-- SHLI rd, rs, #sh. -/
def execShli (c : Fin 12) (rd rs : Fin 16) (sh : BitVec 6) (s : State) : Answer :=
  coreIssue c (dataOp rd fun x => shiftLeft (x.d rs) sh.toNat) s

/-- SHRI rd, rs, #sh. -/
def execShri (c : Fin 12) (rd rs : Fin 16) (sh : BitVec 6) (s : State) : Answer :=
  coreIssue c (plainOp rd fun x => x.d rs >>> sh.toNat) s

/-- SARI rd, rs, #sh. -/
def execSari (c : Fin 12) (rd rs : Fin 16) (sh : BitVec 6) (s : State) : Answer :=
  coreIssue c (plainOp rd fun x => (x.d rs).sshiftRight sh.toNat) s

/-- CMP rs, rt. -/
def execCmp (c : Fin 12) (rs rt : Fin 16) (s : State) : Answer :=
  coreIssue c (flagOp fun x => cmpFlags x.sr (x.d rs) (x.d rt)) s

/-- CMPI rs, #imm. -/
def execCmpi (c : Fin 12) (rs : Fin 16) (imm : BitVec 16) (s : State) : Answer :=
  coreIssue c (flagOp fun x => cmpFlags x.sr (x.d rs) (sext16 imm)) s

/-- NORM rd, rs. -/
def execNorm (c : Fin 12) (rd rs : Fin 16) (s : State) : Answer :=
  coreIssue c (plainOp rd fun x => BitVec.ofNat 32 (normCount (x.d rs))) s

/-- MUL rd, rs, rt. -/
def execMul (c : Fin 12) (rd rs rt : Fin 16) (s : State) : Answer :=
  coreIssue c (dataOp rd fun x => product (x.d rs) (x.d rt)) s

/-- SEL rd, rs, rt, cond. -/
def execSel (c : Fin 12) (rd rs rt : Fin 16) (cond : Cond) (s : State) : Answer :=
  coreIssue c (plainOp rd fun x => if condHolds x.sr cond then x.d rs else x.d rt) s

/-- PADD pN, #imm: no circular correction (R274). -/
def execPadd (c : Fin 12) (p : Fin 8) (imm : BitVec 16) (s : State) : Answer :=
  coreIssue c { eff := fun _ x => { regs := [(16 + p.val, x.getR (16 + p.val) + sext16 imm)] } } s

end Sys2Proof.Machine
end

