-- ==== Sys2Proof/Machine/CoreMac.lean ====
section
/-!
DEFINITION. The accumulator class of loop-core instructions and EXT (R267, R268, R272, R273, R292); MACL and MSUL stand
with the loads.
-/

namespace Sys2Proof.Machine

/-- An instruction that writes one accumulator with an exact result under R272. -/
def accOp (ax : Fin 4) (f : LCore → Int) : Op :=
  { accBy := [ax.val]
    eff := fun _ x =>
      let r := satAcc x.sr (f x)
      { accs := [(ax.val, r.1)], regs := [(51, svAfter x.sr r.2)] } }

/-- The value of an accumulator. -/
def LCore.acc (x : LCore) (i : Nat) : Int := (x.getA i).toInt

/-- The product of two d registers. -/
def LCore.mulD (x : LCore) (ds dt : Fin 16) : Int := product (x.d ds) (x.d dt)

/-- MPY ax, ds, dt. -/
def execMpy (c : Fin 12) (ax : Fin 4) (ds dt : Fin 16) (s : State) : Answer :=
  coreIssue c (accOp ax fun x => x.mulD ds dt) s

/-- MAC ax, ds, dt. -/
def execMac (c : Fin 12) (ax : Fin 4) (ds dt : Fin 16) (s : State) : Answer :=
  coreIssue c (accOp ax fun x => x.acc ax.val + x.mulD ds dt) s

/-- MSU ax, ds, dt. -/
def execMsu (c : Fin 12) (ax : Fin 4) (ds dt : Fin 16) (s : State) : Answer :=
  coreIssue c (accOp ax fun x => x.acc ax.val - x.mulD ds dt) s

/-- MAC2 q, ds, dt, du, dv: both accumulators of a pair. -/
def execMac2 (c : Fin 12) (q : Fin 2) (ds dt du dv : Fin 16) (s : State) : Answer :=
  coreIssue c
    { accBy := [2 * q.val, 2 * q.val + 1]
      eff := fun _ x =>
        let r := satAcc x.sr (x.acc (2 * q.val) + x.mulD ds dt)
        let t := satAcc x.sr (x.acc (2 * q.val + 1) + x.mulD du dv)
        { accs := [(2 * q.val, r.1), (2 * q.val + 1, t.1)], regs := [(51, svAfter x.sr (r.2 || t.2))] } } s

/-- ACLR ax. -/
def execAclr (c : Fin 12) (ax : Fin 4) (s : State) : Answer := coreIssue c (accOp ax fun _ => 0) s

/-- ASET ax, ds, #sh: sh above 40 is ILLEGAL. -/
def execAset (c : Fin 12) (ax : Fin 4) (ds : Fin 16) (sh : BitVec 6) (s : State) : Answer :=
  coreIssue c { accOp ax (fun x => (x.d ds).toInt * 2 ^ sh.toNat) with illegal := sh.toNat > 40 } s

/-- AADD ax, ay. -/
def execAadd (c : Fin 12) (ax ay : Fin 4) (s : State) : Answer :=
  coreIssue c (accOp ax fun x => x.acc ax.val + x.acc ay.val) s

/-- ASUB ax, ay. -/
def execAsub (c : Fin 12) (ax ay : Fin 4) (s : State) : Answer :=
  coreIssue c (accOp ax fun x => x.acc ax.val - x.acc ay.val) s

/-- EXT dd, ax, #sh: HAZARD when the instruction before wrote ax (R268, R271, R272). -/
def execExt (c : Fin 12) (dd : Fin 16) (ax : Fin 4) (sh : BitVec 6) (s : State) : Answer :=
  coreIssue c { dataOp dd (fun x => (x.acc ax.val).shiftRight sh.toNat) with accRead := some ax.val } s

/-- DSTEP ax, ds: modulo 2^72, no saturation (R273). -/
def execDstep (c : Fin 12) (ax : Fin 4) (ds : Fin 16) (s : State) : Answer :=
  coreIssue c
    { accBy := [ax.val], eff := fun _ x => { accs := [(ax.val, divStep (x.getA ax.val) (x.d ds))] } } s

end Sys2Proof.Machine
end

