-- ==== Sys2Proof/Machine/Interconnect.lean ====
section
/-!
DEFINITION. The interconnect of the motion region as the loop cores and the bridge meet it: whose turn it is in classes 1
and 3, and the grants of class 4 (R26, R27, log 61). Tokens cross it in Machine/Token.lean.
-/

namespace Sys2Proof.Machine

/-- Class of the core's shared-SRAM requests: by the priority of its stall (R26). -/
def State.sramClass (s : State) (x : LCore) : Nat := if s.fld (F.ST_CFG_prio x.stall) < 8 then 1 else 3

/-- The core waits for a load from shared SRAM, or its oldest store is one to it. -/
def LCore.asksSram (x : LCore) : Bool :=
  (match x.status with
    | .stalled (.load false _ _) => true
    | _ => false) || (x.stores.head?.any fun o => !o.window)

/-- Core c has a request of class k waiting. -/
def State.coreAsks (s : State) (k c : Nat) : Bool :=
  let x := s.coreOf c
  x.asksSram && s.sramClass x == k

/-- The core of class k whose turn comes next: the first in cyclic order after the one granted last that asks (R26). -/
def State.turnOf (s : State) (k : Nat) : Option Nat :=
  nextRound (Tab.get (fun _ => none) s.ic.last k) ((List.range 12).filter (s.coreAsks k))

/-- The shared-SRAM request of core c is the next that the interconnect grants: it is the core's turn, and for class 3 no
core of class 1 asks. Tokens that their sources hold have no request while the store has no room, and the engines' requests
are granted as they arise (R26, log 61). -/
def State.sramGranted (s : State) (c : Nat) : Bool :=
  let k := s.sramClass (s.coreOf c)
  (k == 1 || s.turnOf 1 == none) && s.turnOf k == some c

/-- A grant of a shared-SRAM request of core c. -/
def State.grantSram (s : State) (c : Nat) : State := s.grantTo (s.sramClass (s.coreOf c)) c

/-- Offsets of the motion region's registers, which the host reaches through the bridge, class 4 (R26, R34). -/
def behindBridge (off : Nat) : Bool := 0x40000 ≤ off && off < 0x280000

/-- A host access to a register: one of the motion region is a grant of class 4 (R26, R27). -/
def State.bridged (s : State) (bar2 : Bool) (off : Nat) : State := if !bar2 && behindBridge off then s.grant 4 else s

end Sys2Proof.Machine
end

