-- ==== Sys2Proof/Machine/CoreMem.lean ====
section
/-!
DEFINITION. The loads and stores of the loop cores, MACL and MSUL, the return of their data, and the stores and posts
that take effect (R264 to R268, R274, R284).
-/

namespace Sys2Proof.Machine

/-- Where a memory operand of `n` bytes lies (R264, R274). -/
def LCore.target (x : LCore) (a : Addr) (n : Nat) : Except CFault (Space × Nat) := mapData (x.address a).1 n

/-- The fault a load raises (R264, R293). -/
def State.loadFault (s : State) (c : Nat) (x : LCore) (a : Addr) (n : Nat) : Option CFault :=
  match x.target a n with
  | .error f => some f
  | .ok (.local, off) => if s.localFails c off (n / 4) then some .ecc else none
  | .ok _ => none

/-- The fault a store raises (R264). -/
def LCore.storeFault (x : LCore) (a : Addr) (n : Nat) : Option CFault :=
  match x.target a n with
  | .error f => some f
  | .ok _ => none

/-- The data a load has at once: that of local memory (R264, R266). -/
def State.localLoad (s : State) (c : Nat) (x : LCore) (a : Addr) (regs : List Nat) : List (Nat × Word) :=
  match x.target a (4 * regs.length) with
  | .ok (.local, off) => (List.range regs.length).map fun i => (regs.getD i 0, s.localWord c (off + 4 * i))
  | _ => []

/-- Single-bit errors in the words of a load from local memory are corrected and counted (R265). -/
def State.localCorrects (s : State) (c : Nat) (x : LCore) (a : Addr) (n : Nat) : State :=
  match x.target a n with
  | .ok (.local, off) =>
    let k := ((wordAddrs off (n / 4)).filter fun w => s.localSoft.contains (localKey c w)).length
    if k = 0 then s else s.countFld (F.LC_FCNT_ecc_corr c) k
  | _ => s

/-- A load from shared SRAM or through the register window holds the pipeline (R266). -/
def State.loadStall (s : State) (c : Nat) (x : LCore) (a : Addr) (regs : List Nat) : State :=
  match x.target a (4 * regs.length) with
  | .ok (.shared, off) => s.coreHold c (.load false off regs)
  | .ok (.window, off) => s.coreHold c (.load true off regs)
  | _ => s

/-- A load into registers, with the results `more` of the same instruction. -/
def loadOp (c : Fin 12) (a : Addr) (regs : List Nat) (illegal : Bool) (more : LCore → Eff) (accBy : List Nat) : Op :=
  { illegal := illegal
    fault := fun s x => s.loadFault c.val x a (4 * regs.length)
    accBy := accBy
    eff := fun s x =>
      let e := more x
      { e with regs := e.regs ++ (x.address a).2, load := s.localLoad c.val x a regs }
    also := some fun s x => (s.localCorrects c.val x a (4 * regs.length)).loadStall c.val x a regs }

/-- A store of the values of registers. -/
def storeOp (c : Fin 12) (a : Addr) (regs : List Nat) (illegal : Bool) : Op :=
  { illegal := illegal
    fault := fun _ x => x.storeFault a (4 * regs.length)
    eff := fun _ x => { regs := (x.address a).2 }
    also := some fun s x =>
      match x.target a (4 * regs.length) with
      | .ok (sp, off) => s.storeTo c.val x sp off (regs.map fun r => x.read c.val r)
      | .error _ => s }

/-- LD r6, addr. -/
def execLd (c : Fin 12) (r : Fin 64) (p : Fin 8) (mode : Fin 4) (off : BitVec 12) (s : State) : Answer :=
  let a : Addr := { p := p, mode := mode, off := off }
  coreIssue c (loadOp c a [r.val] (r.val > 51 || a.bad) (fun _ => {}) []) s

/-- ST r6, addr. -/
def execSt (c : Fin 12) (r : Fin 64) (p : Fin 8) (mode : Fin 4) (off : BitVec 12) (s : State) : Answer :=
  let a : Addr := { p := p, mode := mode, off := off }
  coreIssue c (storeOp c a [r.val] (r.val > 52 || a.bad)) s

/-- LDD d, addr. -/
def execLdd (c : Fin 12) (d : Fin 64) (p : Fin 8) (mode : Fin 4) (off : BitVec 12) (s : State) : Answer :=
  let a : Addr := { p := p, mode := mode, off := off }
  coreIssue c (loadOp c a [d.val, d.val + 1] (d.val ≥ 16 || d.val % 2 == 1 || a.bad) (fun _ => {}) []) s

/-- STD d, addr. -/
def execStd (c : Fin 12) (d : Fin 64) (p : Fin 8) (mode : Fin 4) (off : BitVec 12) (s : State) : Answer :=
  let a : Addr := { p := p, mode := mode, off := off }
  coreIssue c (storeOp c a [d.val, d.val + 1] (d.val ≥ 16 || d.val % 2 == 1 || a.bad)) s

/-- The accumulator part of MACL and MSUL. -/
def maclEff (ax : Fin 4) (ds dt : Fin 16) (sub : Bool) (x : LCore) : Eff :=
  let p := x.mulD ds dt
  let r := satAcc x.sr (if sub then x.acc ax.val - p else x.acc ax.val + p)
  { accs := [(ax.val, r.1)], regs := [(51, svAfter x.sr r.2)] }

/-- The address operand of format L: post selects mode 1 (R290). -/
def maclAddr (p : Fin 8) (post : Bool) : Addr := { p := p, mode := if post then 1 else 0 }

/-- MACL ax, ds, dt, dl, pN. -/
def execMacl (c : Fin 12) (ax : Fin 4) (ds dt dl : Fin 16) (p : Fin 8) (post : Bool) (s : State) : Answer :=
  coreIssue c (loadOp c (maclAddr p post) [dl.val] false (maclEff ax ds dt false) [ax.val]) s

/-- MSUL ax, ds, dt, dl, pN. -/
def execMsul (c : Fin 12) (ax : Fin 4) (ds dt dl : Fin 16) (p : Fin 8) (post : Bool) (s : State) : Answer :=
  coreIssue c (loadOp c (maclAddr p post) [dl.val] false (maclEff ax ds dt true) [ax.val]) s

/-! ## Data returns (R26, R266, R284) -/

/-- The word a store list holds for an address, latest store first. -/
def storedWord (a : Nat) (at' : Nat) (ws : List Word) : Option Word :=
  if at' ≤ a && a < at' + 4 * ws.length then ws[(a - at') / 4]? else none

/-- The core's own latest earlier store to a word of shared SRAM that has not reached it (R284). -/
def State.ownStore (s : State) (x : LCore) (a : Nat) : Option Word :=
  let queued := x.stores.filterMap fun o => if o.window then none else storedWord a o.addr o.words
  let held := ((s.stallOf x.stall).execs.filter fun e => e.exec == x.exec && s.inDual x).map Exec.held
  let held := held.flatten.filterMap fun h =>
    match h with
    | .store at' ws => storedWord a at' ws
    | _ => none
  (queued ++ held).getLast?

/-- One word of a shared-SRAM load (R284, R466). -/
def State.sharedWord (s : State) (x : LCore) (a : Nat) : State × Word :=
  match s.ownStore x a with
  | some w => (s, w)
  | none => (s.sramReadBy a x.stall, BitVec.ofNat 32 (memNat s.sram a 4))

/-- The words of a load, read in order of address. -/
def State.loadWords (s : State) (c : Nat) (x : LCore) (window : Bool) (off : Nat) : List Nat → State × List (Nat × Word)
  | [] => (s, [])
  | r :: rs =>
    let p := if window then s.windowLoad c off else s.sharedWord x off
    let q := State.loadWords p.1 c x window (off + 4) rs
    (q.1, (r, p.2) :: q.2)

/-- SHARED_LOAD_RETURN: the data comes back and the pipeline goes on; a load from shared SRAM waits for its grant (R26,
R266, R284). -/
def State.sharedLoadReturn (s : State) (c : Nat) : State :=
  let x := s.coreOf c
  match x.status with
  | .stalled (.load window off regs) =>
    if !window && !s.sramGranted c then s
    else
      let s := if window then s else s.grantSram c
      let r := s.loadWords c x window off regs
      let s := r.1.setCore c { r.1.coreOf c with pend := r.2 }
      s.coreGoes c (if window then 12 else 10)
  | _ => s

/-! ## Stores and posts take effect (R220, R284) -/

/-- The oldest entry of a core's store queue takes effect; one to shared SRAM waits for its grant (R26, R265, R284). -/
def State.storeEffect (s : State) (c : Nat) : State :=
  let x := s.coreOf c
  match x.stores with
  | [] => s
  | o :: os =>
    if !o.window && !s.sramGranted c then s
    else
      let s := (if o.window then s else s.grantSram c).setCore c { x with stores := os }
      let s := if o.window then s.windowStore c o.addr (o.words.getD 0 0)
        else s.coreSramWrite o.addr (o.words.map fun w => toBytes 4 w.toNat).flatten
      s.release c

/-- A POST leaves once every earlier store to shared SRAM has taken effect (R284). -/
def LCore.postReady (x : LCore) (o : PostOp) : Bool := !(x.stores.any fun t => !t.window && t.order < o.order)

/-- The oldest entry of a core's POST queue takes effect (R245, R252, R284, R287). -/
def State.postEffect (s : State) (c : Nat) : State :=
  let x := s.coreOf c
  match x.posts with
  | [] => s
  | o :: os =>
    if !x.postReady o then s
    else
      let s := s.setCore c { x with posts := os }
      let s := match o.out with
        | .post st slot d => s.send st slot d Src.post none false o.sender
        | .dlc m st slot => s.dlCancelEntries m st slot
        | _ => s
      s.release c

/-- SHARED_LOAD_RETURN (R266). -/
def execSharedLoadReturn (c : Fin 12) (s : State) : Answer := .next (s.votesNow.sharedLoadReturn c.val)

/-- STORE_TAKES_EFFECT (R284). -/
def execStoreTakesEffect (c : Fin 12) (posts : Bool) (s : State) : Answer :=
  .next (if posts then s.votesNow.postEffect c.val else s.votesNow.storeEffect c.val)

end Sys2Proof.Machine
end

