-- ==== Sys2Proof/Machine/CoreFlow.lean ====
section
/-!
DEFINITION. Control flow of the loop cores: B, CALL, JR, REP, REPR, BLK, BLKR (R269, R270, R275 to R277, R292).
-/

namespace Sys2Proof.Machine

/-- The target of a branch: words from its own address (R290). -/
def LCore.branchTo (x : LCore) (off : BitVec 16) : Nat := unsignedOf 32 ((x.pc : Int) + 4 * off.toInt)

/-- B cond, offset. -/
def execB (c : Fin 12) (cond : Cond) (off : BitVec 16) (s : State) : Answer :=
  coreIssue c
    { place := .branch
      eff := fun _ x => { flow := .branch (if condHolds x.sr cond then some (x.branchTo off) else none) } } s

/-- CALL offset: p7 := its own address plus 12. -/
def execCall (c : Fin 12) (off : BitVec 16) (s : State) : Answer :=
  coreIssue c
    { place := .branch
      eff := fun _ x => { regs := [(23, BitVec.ofNat 32 (x.pc + 12))], flow := .branch (some (x.branchTo off)) } } s

/-- JR pN: a target that is no multiple of 4 raises ALIGN, one at or above 0x1_0000 BUS. -/
def execJr (c : Fin 12) (p : Fin 8) (s : State) : Answer :=
  let goal (x : LCore) : Nat := (x.getR (16 + p.val)).toNat
  coreIssue c
    { place := .branch
      fault := fun _ x => if goal x % 4 ≠ 0 then some .align else if goal x ≥ 0x10000 then some .bus else none
      eff := fun _ x => { flow := .branch (some (goal x)) } } s

/-- A loop instruction: a count above its limit raises COUNT, a fourth level NEST unless the count is 0. -/
def loopOp (rep : Bool) (count : LCore → Nat) (len : Nat) : Op :=
  { place := if rep then .rep else .blk
    fault := fun _ x =>
      if count x > (if rep then 255 else 65535) then some .count
      else if count x ≠ 0 && x.levels ≥ 3 then some .nest
      else none
    eff := fun _ x => { flow := .loop rep (count x) len } }

/-- REP #n. -/
def execRep (c : Fin 12) (n : BitVec 8) (s : State) : Answer := coreIssue c (loopOp true (fun _ => n.toNat) 1) s

/-- REPR ds. -/
def execRepr (c : Fin 12) (ds : Fin 16) (s : State) : Answer :=
  coreIssue c (loopOp true (fun x => (x.d ds).toNat) 1) s

/-- BLK #n, #len. -/
def execBlk (c : Fin 12) (n : BitVec 16) (lenLess1 : BitVec 8) (s : State) : Answer :=
  coreIssue c (loopOp false (fun _ => n.toNat) (lenLess1.toNat + 1)) s

/-- BLKR ds, #len. -/
def execBlkr (c : Fin 12) (ds : Fin 16) (lenLess1 : BitVec 8) (s : State) : Answer :=
  coreIssue c (loopOp false (fun x => (x.d ds).toNat) (lenLess1.toNat + 1)) s

end Sys2Proof.Machine
end

