-- ==== Sys2Proof/Machine/CoreHawk.lean ====
section
/-!
DEFINITION. The loop cores' interface to the hawker: TAKE, DONE, POST, POSTG, CMTG, DLI, DLC, SYNC and BKPT with the
outcomes that come back to a stalled core (R245, R254, R284 to R288), attentions and debug (R280, R294, R295).
-/

namespace Sys2Proof.Machine

/-- TAKE: the core waits for work (R245). -/
def execTake (c : Fin 12) (s : State) : Answer :=
  coreIssue c { place := .take, eff := fun _ _ => {}, also := some fun s _ => s.coreTake c.val } s

/-- DONE #r: it issues once every earlier store and POST has taken effect, and ends the execution (R245, R284). -/
def execDone (c : Fin 12) (rearm : Bool) (s : State) : Answer :=
  .next (s.issueDrained c.val (doneOp c.val rearm) (.done rearm))

/-- The stall and the slot named by dA (R286, R287). -/
def destOf (a : Word) : Nat × Nat := (bitsOf a.toNat 0 8, bitsOf a.toNat 8 3)

/-- A POST or DLC: held in a dual execution, else queued (R254, R284, R288). -/
def postOp (c : Fin 12) (out : LCore → Held) (fault : LCore → Option CFault) : Op :=
  { place := .token
    fault := fun _ x => fault x
    eff := fun _ _ => {}
    also := some fun s x =>
      if s.inDual x then s.holdOutput x (out x) else s.queuePost c.val (out x) x.stall }

/-- POST dA, dB (R245, R286). -/
def execPost (c : Fin 12) (dA dB : Fin 16) (s : State) : Answer :=
  coreIssue c
    (postOp c (fun x => .post (destOf (x.d dA)).1 (destOf (x.d dA)).2 (x.d dB)) fun _ => none) s

/-- POSTG dA, dB: the core holds until the check's outcome returns (R286). -/
def execPostg (c : Fin 12) (dA dB : Fin 16) (s : State) : Answer :=
  coreIssue c
    { place := .token
      eff := fun _ _ => {}
      late := true
      also := some fun s x =>
        let a := x.d dA
        s.coreHold c.val (.postg (bitsOf a.toNat 16 6) (destOf a).1 (destOf a).2 (x.d dB)) } s

/-- CMTG ds: a request to slice ds[5:0]; in a dual execution a discarded store to COMMIT, with g 0 (R285, R288). -/
def execCmtg (c : Fin 12) (ds : Fin 16) (s : State) : Answer :=
  coreIssue c
    { place := .token
      eff := fun _ _ => {}
      late := true
      also := some fun s x =>
        let n := bitsOf (x.d ds).toNat 0 6
        if s.inDual x then
          ((s.dualRegStore x (A.S_COMMIT n)).coreFlag c.val SR.g false).wrapFld (F.LC_STALLED_count c.val) 12
        else s.coreHold c.val (.cmtg n) } s

/-- The list named by dA (R287). -/
def listOf (a : Word) : Nat := bitsOf a.toNat 12 3

/-- The direction named by dA, ignored for list 0 (R287). -/
def dirOf (a : Word) : Nat := if listOf a = 0 then 0 else bitsOf a.toNat 16 2

/-- DLI dK, dA, dB (R287): held in a dual execution with dlf 0 (R288). -/
def execDli (c : Fin 12) (dK dA dB : Fin 16) (s : State) : Answer :=
  coreIssue c
    { place := .token
      illegal := dK.val % 2 == 1
      fault := fun _ x =>
        if listOf (x.d dA) > 4 || dirOf (x.d dA) == 3 then some .operand else none
      eff := fun _ _ => {}
      late := true
      also := some fun s x =>
        let a := x.d dA
        let key := (x.d dK).toNat + (x.getR (dK.val + 1)).toNat * 2 ^ 32
        if s.inDual x then
          (s.holdOutput x (.dli (listOf a) (dirOf a) (destOf a).1 (destOf a).2 (x.d dB) key)).coreFlag c.val SR.dlf false
        else s.coreHold c.val (.dli (listOf a) (dirOf a) (destOf a).1 (destOf a).2 (x.d dB) key) } s

/-- DLC dA (R252, R287). -/
def execDlc (c : Fin 12) (dA : Fin 16) (s : State) : Answer :=
  coreIssue c
    (postOp c (fun x => .dlc (listOf (x.d dA)) (destOf (x.d dA)).1 (destOf (x.d dA)).2)
      fun x => if listOf (x.d dA) > 4 then some .operand else none) s

/-- SYNC issues once every earlier store, POST and DLC has taken effect (R284). -/
def execSync (c : Fin 12) (s : State) : Answer :=
  .next (s.issueDrained c.val syncOp .sync)

/-- BKPT: a halt attention when debug is open and DBG.bkpt_en is 1, else a NOP (R294). -/
def execBkpt (c : Fin 12) (s : State) : Answer :=
  coreIssue c
    { place := .bkpt
      eff := fun _ _ => {}
      also := some fun s _ =>
        if s.debugOpen && s.flag (F.LC_DBG_bkpt_en c.val) then
          s.setCore c.val { s.coreOf c.val with haltReq := true }
        else s } s

/-! ## Outcomes that come back -/

/-- CMTG_ARRIVAL: once every earlier window store has taken effect, the slice checks rem and commits (R217, R285). -/
def State.cmtgArrival (s : State) (c : Nat) : State :=
  let x := s.coreOf c
  match x.status with
  | .stalled (.cmtg n) =>
    if x.stores.any StoreOp.window then s
    else
      let r := s.commitChecked n
      (r.1.coreFlag c SR.g r.2).coreGoes c 12
  | _ => s

/-- POSTG_CHECK: at the instant the token would leave, rem is checked and the token posted or refused (R286, R288). -/
def State.postgCheck (s : State) (c : Nat) : State :=
  let x := s.coreOf c
  match x.status with
  | .stalled (.postg n st slot d) =>
    if !x.posts.isEmpty || x.stores.any fun t => !t.window then s
    else
      let ok := s.rem n ≥ 16
      let s :=
        if !ok then s
        else if s.inDual x then s.holdOutput x (.post st slot d)
        else s.send st slot d Src.post none false x.stall
      (s.coreFlag c SR.g ok).coreGoes c 0
  | _ => s

/-- DLI_OUTCOME: the list accepts the entry or refuses it as full (R251, R287). -/
def State.dliOutcome (s : State) (c : Nat) : State :=
  match (s.coreOf c).status with
  | .stalled (.dli m dir st slot d key) =>
    let full := s.dlFull m
    let s := if full then s.dlRefuse m st slot else s.dlInsertEntry m dir st slot d key none
    (s.coreFlag c SR.dlf full).coreGoes c 0
  | _ => s

/-- CMTG_ARRIVAL (R285). -/
def execCmtgArrival (c : Fin 12) (s : State) : Answer := .next (s.cmtgArrival c.val)

/-- POSTG_CHECK (R286). -/
def execPostgCheck (c : Fin 12) (s : State) : Answer := .next (s.postgCheck c.val)

/-- DLI_OUTCOME (R287). -/
def execDliOutcome (c : Fin 12) (s : State) : Answer := .next (s.dliOutcome c.val)

/-- ATTENTION (R280). -/
def execAttention (c : Fin 12) (s : State) : Answer := .next (s.attention c.val)

/-! ## Debug (R280, R294, R295) -/

/-- A halted core goes on from its context; one halted in TAKE waits there again. A test that became due while it was
halted follows (R257, R280, R294). -/
def State.coreResume (s : State) (c : Nat) (step : Bool) : State :=
  let s := s.accountBusy c
  let x := s.coreOf c
  match x.ctx with
  | none => s
  | some ws =>
    let st : CoreStatus := if x.haltedInTake then .take else .running
    let s := s.setCore c { x.load ws with
      ctx := none, haltReq := step && x.haltedInTake, step := step && !x.haltedInTake, haltedInTake := false,
      status := st }
    if !x.withdraw then s
    else if x.stall = 0 then s.beginSelftest c
    else if (s.stallOf x.stall).dual then s
    else s.setCore c { s.coreOf c with preempt := true }

/-- DBG_HALT: a halt attention (R294). -/
def State.dbgHalt (s : State) (c : Nat) : State :=
  s.debugGate (A.LC_DBG c) 1 fun s =>
    if (s.coreOf c).ctx.isSome then s else s.setCore c { s.coreOf c with haltReq := true }

/-- DBG_RESUME (R294). -/
def State.dbgResume (s : State) (c : Nat) : State := s.debugGate (A.LC_DBG c) 2 fun s => s.coreResume c false

/-- DBG_STEP (R294). -/
def State.dbgStep (s : State) (c : Nat) : State := s.debugGate (A.LC_DBG c) 4 fun s => s.coreResume c true

/-- DREG_WRITE: a context word of a halted core; a write of word 71 is where the core resumes (R294, R295). -/
def State.dregWrite (s : State) (c k : Nat) (v : Word) : State :=
  s.debugGate (A.LC_DREG c k) v.toNat fun s =>
    let x := s.coreOf c
    match x.ctx with
    | none => s.discard .host (A.LC_DREG c k) .state v.toNat
    | some ws => s.setCore c { x with ctx := some (ws.set k v), haltedInTake := x.haltedInTake && k != 71 }

/-- DBG_HALT (R294). -/
def execDbgHalt (c : Fin 12) (s : State) : Answer := .next (s.dbgHalt c.val)

/-- DBG_RESUME (R294). -/
def execDbgResume (c : Fin 12) (s : State) : Answer := .next (s.dbgResume c.val)

/-- DBG_STEP (R294). -/
def execDbgStep (c : Fin 12) (s : State) : Answer := .next (s.dbgStep c.val)

/-- DREG_WRITE (R295). -/
def execDregWrite (c : Fin 12) (k : Fin 96) (data : Word) (s : State) : Answer := .next (s.dregWrite c.val k.val data)

end Sys2Proof.Machine
end

