-- ==== Sys2Proof/Machine/EventsArch.lean ====
section
/-!
DEFINITION. The commands of trips, faults, retests and the clock (R18 to R24, R298), and of the modes and groups (R40,
R70 to R92, R233, R324) that are events of the device.
-/

namespace Sys2Proof.Machine

/-- A write of MODE.REQ (R92): 3 in CONFIGURE submits a change to STANDBY at REQ_EPOCH, 2 is held without effect. Such a
change has no identifier of a host command: MODE.CELL.change_id shows 0 (DESIGN CHOICE, log 76). -/
def State.modeReqWrite (s : State) (target : Nat) (v : Nat := target) : State :=
  if target = 2 then s
  else if s.cellMode ≠ 2 then s.discard .host A.MODE_REQ .access v
  else if target ≠ 3 then s.discard .host A.MODE_REQ .range v
  else
    let epoch := s.pair A.MODE_REQ_EPOCH
    if s.isStandby then s.tally .requestRefused .chip Reason.twinRole.code else
    match s.changeCheck 3 epoch (s.epochBoundary epoch) with
    | some (why, detail) => s.tally .requestRefused .chip why.code detail 0
    | none => s.acceptChange 3 0 epoch none

/-- SLICE_TRIP (R18). -/
def execSliceTrip (n : Fin 64) (src : SideLevels) (err : BitVec 8) (s : State) : Answer :=
  .next (s.sliceTrip n.val src.volts src.held.toNat err.toNat)

/-- BANK_FAULT (R20). Code 0 names none of the four events; the fault is raised and recorded with it (log 82). -/
def execBankFault (b : Fin 8) (cause : Fin 5) (s : State) : Answer :=
  .next (s.bankFault b.val cause.val)

/-- BANK_RETEST_REQUEST (R21). -/
def execBankRetestRequest (mask : BitVec 8) (s : State) : Answer :=
  .next (s.bankRetestRequest mask.toNat)

/-- BANK_RETEST (R21). -/
def execBankRetest (b : Fin 8) (found : RetestResult) (s : State) : Answer :=
  .next (s.bankRetest b.val found)

/-- ESCALATED (R22). -/
def execEscalated (s : State) : Answer :=
  .next (s.escalated)

/-- TCLK_LOST (R24). -/
def execTclkLost (s : State) : Answer :=
  .next (s.tclkLost)

/-- SAFETY_FAULT (R298). Codes 0 and 7 to 15 name no fault of the region, so nothing happens (log 82). -/
def execSafetyFault (cause : BitVec 4) (s : State) : Answer :=
  .next (if 1 ≤ cause.toNat && cause.toNat ≤ 6 then s.safetyFault cause.toNat else s)

/-- MODE_REQ_SUBMIT (R92). -/
def execModeReqSubmit (target : BitVec 3) (s : State) : Answer :=
  .next (s.hostGate A.MODE_REQ target.toNat fun s => s.modeReqWrite target.toNat)

/-- EPOCH (R81). -/
def execEpoch (s : State) : Answer :=
  .next (s.epoch)

/-- GROUP_CONFIRM (R81). -/
def execGroupConfirm (g : Fin 8) (s : State) : Answer :=
  .next (s.groupConfirm g.val)

/-- CHANGE_FAILED (R83). -/
def execChangeFailed (s : State) : Answer :=
  .next (s.changeFailed)

/-- PEER_TIMEOUT (R87). -/
def execPeerTimeout (node : BitVec 12) (s : State) : Answer :=
  .next (s.peerTimeout node.toNat)

/-- LOOPS_RUNNING (R233). -/
def execLoopsRunning (g : Fin 8) (s : State) : Answer :=
  .next (s.loopsRunning g.val)

/-- LAW_START_TIMEOUT (R233). -/
def execLawStartTimeout (g : Fin 8) (s : State) : Answer :=
  .next (s.lawStartTimeout g.val)

/-- STOP_TIMEOUT (R73, R324). -/
def execStopTimeout (g : Fin 8) (s : State) : Answer :=
  .next (s.stopTimeout g.val)

/-- MOTION_HALT (R151). -/
def execMotionHalt (s : State) : Answer :=
  .next (s.motionHalt)

/-- MOTION_RESUME (R154). -/
def execMotionResume (s : State) : Answer :=
  .next (s.motionResume)

end Sys2Proof.Machine
end

