-- ==== Sys2Proof/Machine/Dispose.lean ====
section
/-!
DEFINITION. Command descriptors: their layout (R401, R402), the checks before ACCEPT in their order (R403 to R405), the
disposition (R407, R410, R412, R422), the order in which accepted commands begin (R410, R411), ATTEST, STATUS and ABORT
(R409, R413, R459).
-/

namespace Sys2Proof.Machine

/-- A command descriptor as the device has read it; no command where the opcode is 0 or above 20. -/
structure Descr where
  head : CmdHead
  opcode : Nat
  cmd : Option HostCmd
  /-- reserved bits of the header and of the payload are 0 -/
  clean : Bool

/-! ## Layout (R401, R402) -/

/-- The payload bytes that an opcode defines, as pairs of first byte and length. -/
def payloadFields : Nat → List (Nat × Nat)
  | 2 => [(16, 1), (18, 2), (24, 8)]
  | 3 => [(16, 1), (17, 1)]
  | 4 => [(16, 1), (20, 4), (24, 8), (32, 4)]
  | 5 => [(16, 1)]
  | 6 => [(16, 1)]
  | 7 => [(16, 32)]
  | 8 => [(16, 2)]
  | 9 => [(16, 1), (17, 1), (20, 4), (24, 12), (36, 24)]
  | 10 => [(16, 1), (18, 2), (20, 2), (24, 8)]
  | 11 => [(16, 1), (17, 1), (18, 1), (19, 1), (20, 4), (24, 8)]
  | 12 => [(16, 1), (18, 1), (19, 1)]
  | 13 => [(16, 1), (17, 1), (20, 4)]
  | 14 => [(16, 1), (24, 8), (32, 4)]
  | 15 => [(16, 1), (17, 2)]
  | 16 => [(24, 8), (32, 4)]
  | 17 => [(16, 1), (17, 1), (24, 8), (32, 4)]
  | 18 => [(16, 8), (24, 4), (32, 32)]
  | 20 => [(16, 8)]
  | _ => []

/-- Every byte of a descriptor outside its opcode's fields and the header is 0. -/
def payloadClear (op : Nat) (bs : List Byte) : Bool :=
  (List.range 48).all fun i =>
    (payloadFields op).any (fun f => f.1 ≤ i + 16 && i + 16 < f.1 + f.2) || bytesAt bs (i + 16) 1 == 0

/-- The command of a descriptor's bytes. -/
def parseCmd (bs : List Byte) : Option HostCmd :=
  let b (i : Nat) : Byte := bs.getD i 0
  let h (i : Nat) : BitVec 16 := BitVec.ofNat 16 (bytesAt bs i 2)
  let w (i : Nat) : Word := BitVec.ofNat 32 (bytesAt bs i 4)
  let d (i : Nat) : BitVec 64 := BitVec.ofNat 64 (bytesAt bs i 8)
  match bytesAt bs 8 2 with
  | 1 => some .nop
  | 2 => some (.modeSet (b 16) (h 18) (d 24))
  | 3 => some (.groupSet (b 16) (b 17))
  | 4 => some (.segAppend (b 16) (w 20) (d 24) (w 32))
  | 5 => some (.segSkip (b 16))
  | 6 => some (.segFlush (b 16))
  | 7 => some (.compareAdd (BitVec.ofNat 256 (bytesAt bs 16 32)))
  | 8 => some (.compareRemove (h 16))
  | 9 => some (.payloadSet (b 16) (b 17) (w 20) (BitVec.ofNat 96 (bytesAt bs 24 12)) (BitVec.ofNat 192 (bytesAt bs 36 24)))
  | 10 => some (.lawParam (b 16) (h 18) (h 20) (d 24))
  | 11 => some (.dlInsert (b 16) (b 17) (b 18) (b 19) (w 20) (d 24))
  | 12 => some (.dlCancel (b 16) (b 18) (b 19))
  | 13 => some (.stallToken (b 16) (b 17) (w 20))
  | 14 => some (.coordStep (b 16) (d 24) (w 32))
  | 15 => some (.overrideSet (b 16) (h 17))
  | 16 => some (.safetyLoad (d 24) (w 32))
  | 17 => some (.imageLoad (b 16) (b 17) (d 24) (w 32))
  | 18 => some (.attest (d 16) (w 24) (BitVec.ofNat 256 (bytesAt bs 32 32)))
  | 19 => some .status
  | 20 => some (.abort (d 16))
  | _ => none

/-- The descriptor that 64 bytes of command ledger `n` hold. -/
def parseDescr (n : Fin 16) (bs : List Byte) : Descr :=
  let op := bytesAt bs 8 2
  let flags := bytesAt bs 10 1
  { head := { ledger := n, seq := BitVec.ofNat 64 (bytesAt bs 0 8), fence := flags.testBit 0, irq := flags.testBit 1 }
    opcode := op
    cmd := parseCmd bs
    clean := flags < 4 && bytesAt bs 11 5 == 0 && payloadClear op bs }

/-- A descriptor whose fields are given, its reserved bits 0. -/
def descrOf (h : CmdHead) (c : HostCmd) : Descr := { head := h, opcode := (HostCmd.opcode c), cmd := some c, clean := true }

/-- Bits of a field that R402 does not define, and addresses that are not aligned (R402, R403 check 3). -/
def cmdFormatBad : HostCmd → Bool
  | .segAppend _ _ a _ => a.toNat % 64 != 0
  | .compareAdd e =>
    bitsOf e.toNat 166 2 != 0 || bitsOf e.toNat 171 5 != 0 || bitsOf e.toNat 182 2 != 0 || bitsOf e.toNat 186 6 != 0 ||
      bitsOf e.toNat 219 5 != 0
  | .lawParam _ _ _ a => a.toNat % 8 != 0
  | .dlInsert _ _ _ slot _ _ => slot.toNat ≥ 8
  | .dlCancel _ _ slot => slot.toNat ≥ 8
  | .stallToken _ slot _ => slot.toNat ≥ 8
  | .overrideSet _ f => f.toNat ≥ 2048
  | .safetyLoad a _ => a.toNat % 64 != 0
  | .imageLoad _ _ a _ => a.toNat % 64 != 0
  | .attest a _ _ => a.toNat % 8 != 0
  | _ => false

/-! ## The checks (R403 to R405) -/

/-- Bytes of a buffer in host memory; none when a read of it returns an error or poisoned data. -/
def State.readBuffer (s : State) (a n : Nat) : Option (List Byte) :=
  if n ≠ 0 && s.hostBad.any fun l => a < (l + 1) * 64 && l * 64 < a + n then none else some (memBytes s.hostMem a n)

/-- The part of a command's buffer that the device reads before it disposes of the command. -/
def cmdBuffer : HostCmd → Nat × Nat
  | .segAppend _ count a _ => (a.toNat, count.toNat * 256)
  | .lawParam _ _ len a => (a.toNat, len.toNat)
  | .safetyLoad a len => (a.toNat, len.toNat)
  | .imageLoad _ _ a len => (a.toNat, len.toNat)
  | _ => (0, 0)

/-- A count or length lies above its maximum, or describes more data than its buffer holds (R404). -/
def cmdLengthBad : HostCmd → Bool
  | .segAppend _ count _ len => count.toNat > 65536 || count.toNat * 256 > len.toNat || len.toNat > 16777216
  | .lawParam _ off len _ => off.toNat + len.toNat > 224
  | .safetyLoad _ len => len.toNat > 262144
  | .imageLoad _ _ _ len => len.toNat > 4194304
  | .attest _ len _ => len.toNat > 65536 || len.toNat < 3840
  | _ => false

/-- An image's length disagrees with its own header (R337, R404, R450). -/
def cmdHeaderBad (c : HostCmd) (bs : List Byte) : Bool :=
  match c with
  | .safetyLoad _ len => bytesAt bs 8 4 != len.toNat
  | .imageLoad _ _ _ len => bytesAt bs 8 4 != len.toNat
  | _ => false

/-- Check 5 of R403: the cell mode and the twin role (R405). -/
def State.modeCheck (s : State) (c : HostCmd) : Option (Reason × Nat) :=
  let standby := s.fld F.TWN_STAT_role == 1 || s.fld F.TWN_STAT_role == 2
  let always := match c with
    | .nop | .modeSet .. | .status | .abort _ => true
    | _ => false
  if s.cellMode = 7 && !always then some (.degraded, 0)
  else
    match c with
    | .modeSet t _ _ => if standby then some (.twinRole, 0) else s.modePath t.toNat
    | .groupSet .. => if standby then some (.twinRole, 0) else none
    | .safetyLoad .. => if s.cellMode = 2 then none else some (.modePath, 0)
    | _ => none

/-- The checks of IMAGE_LOAD on the device's state (R453, R455). -/
def State.imageLoadCheck (s : State) (kind area : Nat) : Option (Reason × Nat) :=
  let unfinished := s.ldg.outst.any fun o => match o.cmd with
    | .imageLoad .. => o.final.isNone
    | _ => false
  if kind = 0 || kind > 2 || (kind = 1 && area > 8) || (kind = 2 && area ≠ 0) then some (.paramInvalid, 0)
  else if kind = 2 && s.cellMode ≠ 3 then some (.modePath, 0)
  else if kind = 1 && area = 8 && s.cellMode ≠ 2 then some (.modePath, 0)
  else if kind = 1 && area < 8 && s.groupState area ≠ 0 then some (.groupState, 0)
  else if unfinished || s.sec.job.isSome then some (.modeBusy, 0)
  else none

/-- Check 6 of R403: the opcode's own checks; `bs` is its buffer. -/
def State.ownCheck (s : State) (c : HostCmd) (bs : List Byte) : Option (Reason × Nat) :=
  let param (bad : Bool) : Option (Reason × Nat) := if bad then some (.paramInvalid, 0) else none
  match c with
  | .nop => none
  | .modeSet t _ e =>
    if t.toNat = 7 then param (e != 0) else s.changeCheck t.toNat e.toNat (s.epochBoundary e.toNat)
  | .groupSet g st => s.groupSetCheck g.toNat st.toNat
  | .segAppend g _ _ _ =>
    if g.toNat > 7 then some (.paramInvalid, 0) else s.segAppendCheck g.toNat (descriptors bs (bs.length / 256))
  | .segSkip g => param (g.toNat > 7)
  | .segFlush g => param (g.toNat > 7)
  | .compareAdd e => s.compareAddCheck e.toNat
  | .compareRemove _ => none
  | .payloadSet g l _ _ _ => param (g.toNat > 7 || l.toNat > 16)
  | .lawParam n off _ _ => s.lawParamCheck n.toNat off.toNat bs
  | .dlInsert m d _ _ _ _ =>
    if m.toNat > 4 || d.toNat > 2 then some (.paramInvalid, 0)
    else if s.dlFull m.toNat then some (.dlFull, 0) else none
  | .dlCancel m _ _ => param (m.toNat > 4)
  | .stallToken .. => none
  | .coordStep n _ dur => s.coordStepCheck n.toNat dur.toNat
  | .overrideSet n _ => param (n.toNat > 15)
  | .safetyLoad .. => none
  | .imageLoad k g _ _ => s.imageLoadCheck k.toNat g.toNat
  | .attest .. => param (!s.flag F.SEC_PROV_provisioned)
  | .status => none
  | .abort _ => none

/-- Checks 2 to 6 of R403 on a command, in order: the reason with its detail, or the buffer's bytes. -/
def State.checkCmd (s : State) (d : Descr) (c : HostCmd) : Except (Reason × Nat) (List Byte) :=
  let data := s.readBuffer (cmdBuffer c).1 (cmdBuffer c).2
  if !d.clean || (cmdFormatBad c) then .error (.format, 0)
  else if (cmdLengthBad c) then .error (.lengthRange, 0)
  else
    let early := match c with
      | .safetyLoad .. | .imageLoad .. => true
      | _ => false
    match data with
    | none =>
      match if early then none else s.modeCheck c with
      | some e => .error e
      | none => .error (.dmaError, 0)
    | some bs =>
      if cmdHeaderBad c bs then .error (.lengthRange, 0)
      else
        match (s.modeCheck c).or (s.ownCheck c bs) with
        | some e => .error e
        | none => .ok bs

/-! ## Beginning an accepted command -/

/-- The object that a command acts on (R410): 1 a group, 2 a coordinate, 3 a stall, 4 the compare unit, 5 a delay list,
6 the cell mode, 7 a law record. -/
def cmdObject : HostCmd → Option (Nat × Nat)
  | .modeSet .. => some (6, 0)
  | .groupSet g _ => some (1, g.toNat)
  | .segAppend g _ _ _ => some (1, g.toNat)
  | .segSkip g => some (1, g.toNat)
  | .segFlush g => some (1, g.toNat)
  | .compareAdd _ => some (4, 0)
  | .compareRemove _ => some (4, 0)
  | .payloadSet g _ _ _ _ => some (1, g.toNat)
  | .lawParam n _ _ _ => some (7, n.toNat)
  | .dlInsert m _ _ _ _ _ => some (5, m.toNat)
  | .dlCancel m _ _ => some (5, m.toNat)
  | .stallToken n _ _ => some (3, n.toNat)
  | .coordStep n _ _ => some (2, n.toNat)
  | .overrideSet n _ => some (2, n.toNat)
  | _ => none

/-- The result bytes of STATUS, from byte 24 on (R409). -/
def State.statusResult (s : State) : Nat :=
  ofBytes ([s.cellMode, s.fld F.MODE_CELL_change, s.fld F.RT_STATUS_state, s.fld F.TWN_STAT_role].map (BitVec.ofNat 8) ++
    (List.range 8).map (fun g => BitVec.ofNat 8 (s.groupState g)) ++ toBytes 4 (s.reg A.SYS_FAULT).toNat)

/-- The first 528 bytes of an attestation report (R459). -/
def State.attestBody (s : State) (nonce : Nat) : List Byte :=
  let words (n : Nat) (a : Nat → Nat) : List Byte := (List.range n).flatMap fun k => toBytes 4 (s.reg (a k)).toNat
  let locks := (if s.flag F.SEC_PROV_provisioned then 3 else 0) + (if s.fld F.SEC_DBG_state = 2 then 4 else 0)
  toBytes 4 0x54535441 ++ toBytes 4 1 ++ toBytes 8 3840 ++ toBytes 8 (s.pair A.SEC_DEVID) ++ toBytes 8 s.now ++
    toBytes 32 nonce ++ Config.shake256 32 (Config.mlDsaPublic s.sec.seed) ++ words 8 A.SEC_FWDIG ++
    ((List.range 9).flatMap fun a => words 8 (A.SEC_LOOPDIG a)) ++ words 8 A.SAF_IMG_DIGEST ++
    toBytes 4 (s.reg A.SAF_IMG_REV).toNat ++ toBytes 4 (s.reg A.SEC_FWREV).toNat ++
    toBytes 3 (s.fld F.SEC_ROLLBACK_counters) ++ toBytes 1 s.cellMode ++ toBytes 1 (s.fld F.TWN_STAT_role) ++
    toBytes 3 locks ++ toBytes 4 (s.reg A.SYS_FAULT).toNat ++ toBytes 4 (s.reg A.SYS_STEPPING).toNat ++ toBytes 40 0 ++
    toBytes 16 0

/-- ATTEST: the signed report is written to the buffer (R459). -/
def State.attestBegin (s : State) (a nonce : Nat) (cmd : Nat × Nat) : State :=
  let body := s.attestBody nonce
  let s := s.hostWrite a (body ++ Config.mlDsaSign s.sec.seed body ++ toBytes 3 0)
  (s.tally .attested .chip 0 0 nonce).finishDone cmd 3840

/-- ABORT: what becomes of the command it names (R409, R413): 0 ABORTED, 1 ALREADY_FINAL, 2 NOT_ABORTABLE, 3 UNKNOWN. -/
def State.abortTarget (s : State) (n seq : Nat) : State × Nat :=
  match s.ldg.outst.find? fun o => o.ledger == n && o.seq == seq with
  | none => (s, if s.pair (A.CMD_SEQ_BASE n) ≤ seq && seq ≤ (s.cursor n).final then 1 else 3)
  | some o =>
    if o.final.isSome then (s, 1)
    else
      match o.cmd with
      | .modeSet .. =>
        match s.mode.change with
        | some c => if c.cmd == some (n, seq) && !c.confirming then (s.cancelChange .host, 0) else (s, 2)
        | none => (s, 2)
      | .coordStep k _ _ =>
        let x := s.coordOf k.toNat
        let waits := x.steps.any fun t => t.cmd == some (n, seq) && t.progress == 0
        if waits then
          let steps := x.steps.filter fun t => t.cmd != some (n, seq)
          let s := (s.setCoord k.toNat { x with steps := steps }).setFld (F.K_HOSTQ_count k.toNat) steps.length
          (s.finishAborted (n, seq) .host, 0)
        else (s, 2)
      | _ => (s, 2)

/-- A command begins execution (R402). -/
def State.beginCmd (s : State) (o : Outst) : State :=
  let cmd : Option (Nat × Nat) := some (o.ledger, o.seq)
  match o.cmd with
  | .nop => s.finishDone? cmd
  | .modeSet t id e => s.modeSetBegin t.toNat id.toNat e.toNat cmd
  | .groupSet g st => s.groupSetBegin g.toNat st.toNat cmd
  | .segAppend g _ _ _ =>
    if o.data.isEmpty then s.finishDone? cmd (s.queued g.toNat * 2 ^ 32)
    else s.segAppendBegin g.toNat (descriptors o.data (o.data.length / 256)) cmd
  | .segSkip g => s.segSkipBegin g.toNat cmd
  | .segFlush g => s.segFlushBegin g.toNat cmd
  | .compareAdd e => s.compareAddBegin e.toNat cmd
  | .compareRemove tag => s.compareRemoveBegin tag.toNat cmd
  | .payloadSet g l m c i => s.payloadBegin g.toNat l.toNat m.toNat c.toNat i.toNat cmd
  | .lawParam n off _ _ => s.lawParamBegin n.toNat off.toNat o.data cmd
  | .dlInsert m d stall slot data key =>
    s.dlInsertEntry m.toNat d.toNat stall.toNat slot.toNat data key.toNat cmd
  | .dlCancel m stall slot => (s.dlCancelEntries m.toNat stall.toNat slot.toNat).finishDone? cmd
  | .stallToken n slot data => s.send n.toNat slot.toNat data Src.host none false 0 cmd
  | .coordStep n d dur => s.coordStepBegin n.toNat d.toNat dur.toNat cmd
  | .overrideSet n f => s.overrideBegin n.toNat f.toNat cmd
  | .safetyLoad _ _ => s.safetyAccept o.data cmd
  | .imageLoad .. =>
    { s with sec := { s.sec with job := some { cmd := cmd, image := parseImage o.data, since := s.now } } }
  | .attest a _ nonce => s.attestBegin a.toNat nonce.toNat (o.ledger, o.seq)
  | .status => s.finishDone? cmd s.statusResult
  | .abort seq =>
    let r := s.abortTarget o.ledger seq.toNat
    r.1.finishDone? cmd r.2

/-- The clock of the target's event that an ABORT would meet has not run its course: a tick or the epoch falls in it and is
still to come, and what it completes stands before the abort (R413). -/
def State.abortEarly (s : State) (n seq : Nat) : Bool :=
  let due (t : Moment) : Bool := sameClock .core t s.clk.time
  let tick := s.now / 1000 * 1000
  (s.ldg.outst.find? fun o => o.ledger == n && o.seq == seq).any fun o =>
    match o.cmd with
    | .coordStep .. => s.clk.lastTick < tick && due (tick * nsUnit)
    | .modeSet .. => s.mode.change.any fun c => c.cmd == some (n, seq) && !c.confirming && due (c.epoch * nsUnit)
    | _ => false

/-- A command has begun, or has ended without (R84). -/
def Outst.past (o : Outst) : Bool := o.begun || o.final.isSome

/-- A command may begin: the ledgers are restored, no earlier one of its ledger waits, with FENCE none has its final
completion still to come (R411), and no earlier one on the same object waits (R410). -/
def State.mayBegin (s : State) (o : Outst) : Bool :=
  let before := s.ldg.outst.takeWhile fun p => !(p.ledger == o.ledger && p.seq == o.seq)
  let mine := before.filter fun p => p.ledger == o.ledger
  s.flag F.LDG_STAT_ready && o.final.isNone && !(o.fence && !mine.isEmpty) && mine.all Outst.past &&
    before.all (fun p => p.past || (cmdObject o.cmd).isNone || (cmdObject p.cmd) != (cmdObject o.cmd)) &&
    (match o.cmd with
      | .attest .. => s.hostOut
      | .abort seq => !s.abortEarly o.ledger seq.toNat
      | _ => true)

/-- The accepted commands that can begin do, in acceptance order. -/
def State.startCommands (s : State) : State :=
  s.each (s.ldg.outst.filter fun o => !o.past) fun s o =>
    if s.ldg.outst.contains o && s.mayBegin o then
      let mark (p : Outst) : Outst := if p.ledger == o.ledger && p.seq == o.seq then { p with begun := true } else p
      let s : State := { s with ldg := { s.ldg with outst := s.ldg.outst.map mark } }
      s.beginCmd o
    else s

/-! ## Dispositions (R403, R406, R410, R420) -/

/-- A descriptor has been taken from its ring. -/
def State.consume (s : State) (n : Nat) : State := s.wrapFld (F.CMD_CONSUMED_count n)

/-- What a rejection does beside its completion: counts and records that a chapter names. -/
def State.rejectMarks (s : State) (d : Descr) (why : Reason) (detail : Nat) : State :=
  let s := if !s.postsCompletions then s.tally .twinReject (.ledger d.head.ledger.val) why.code 0 d.head.seq.toNat else s
  match d.cmd, why with
  | some (.safetyLoad a len), .lengthRange => s.safetyRejected ((s.readBuffer a.toNat len.toNat).getD []) 1 0
  | some (.modeSet _ id _), .configInvalid => s.tally .requestRefused .chip why.code detail id.toNat
  | some (.compareAdd _), .cmpFull => s.compareRefused
  | some (.dlInsert m _ stall slot _ _), .dlFull => s.dlRefuse m.toNat stall.toNat slot.toNat
  | _, _ => s

/-- A device that posts nothing keeps its disposition until the ACTIVE device's is known (R420, R421). -/
def State.keepDisp (s : State) (h : CmdHead) (op : Nat) (c : Option HostCmd) (kind reason detail : Nat) : State :=
  if s.isStandby then
    { s with twin := { s.twin with disps := s.twin.disps ++
        [{ head := h, opcode := op, cmd := c, kind := kind, reason := reason, detail := detail }] } }
  else s

/-- The device holds a command as validated (R383): one that has passed its checks, and one that only its role keeps it from
accepting (log 54). -/
def State.validated (s : State) (n seq : Nat) : State :=
  { s with ldg := { s.ldg with validated := Tab.set (fun _ => 0) s.ldg.validated n seq } }

/-- REJECT of a descriptor (R403, R406, R409). Under check 1 the last disposed number stays. -/
def State.reject (s : State) (d : Descr) (why : Reason) (detail : Nat) : State :=
  let n := d.head.ledger.val
  let s := s.consume n
  let s := if why = .seqDup || why = .seqGap then s else s.setCursor n { s.cursor n with disposed := d.head.seq.toNat }
  let s := if why = .seqDup || why = .seqGap then s else s.keepDisp d.head d.opcode d.cmd 2 why.code detail
  let s := if why = .twinRole then s.validated n d.head.seq.toNat else s
  (s.rejectMarks d why detail).postCompletion
    { ledger := n, seq := d.head.seq.toNat, opcode := d.opcode, kind := 2, reason := why.code, stamp := s.now,
      result := detail % 2 ^ 32, irq := false }

/-- An accepted command takes its place among those of its ledger (R410, R421). -/
def insertOutst (o : Outst) : List Outst → List Outst
  | [] => [o]
  | x :: xs => if x.ledger = o.ledger && o.seq < x.seq then o :: x :: xs else x :: insertOutst o xs

/-- ACCEPT of a command, after which it begins as soon as it may (R403, R406, R410). A change of mode that waits to begin is
replaced by a MODE_SET accepted after it (R84, R85). -/
def State.accept (s : State) (h : CmdHead) (c : HostCmd) (bs : List Byte) : State :=
  let n := h.ledger.val
  let seq := h.seq.toNat
  let s := (s.consume n).setCursor n { s.cursor n with disposed := seq, accepted := seq }
  let s := match c with
    | .modeSet .. => s.dropWaiting
    | _ => s
  let o : Outst := { ledger := n, seq := seq, cmd := c, fence := h.fence, irq := h.irq, begun := false, final := none,
                     data := bs }
  let s : State := { s with ldg := { s.ldg with outst := insertOutst o s.ldg.outst } }
  let s := s.keepDisp h (HostCmd.opcode c) (some c) 1 0 0
  let s := s.postCompletion { ledger := n, seq := seq, opcode := (HostCmd.opcode c), kind := 1, reason := 0, stamp := s.now,
                              result := 0, irq := false }
  s.startCommands

/-- An ACTIVE device with a STANDBY peer accepts only what the peer has confirmed (R384). -/
def State.mirrorWaits (s : State) (n seq : Nat) : Bool :=
  s.fld F.TWN_STAT_role == 3 && s.twin.peerRole == 2 && tabNat s.twin.confirmed n < seq

/-- A command that has passed its checks: validated (R383), then accepted or held for the standby's confirmation (R384,
check 7 of R403). -/
def State.validate (s : State) (h : CmdHead) (c : HostCmd) (bs : List Byte) : State :=
  let n := h.ledger.val
  let seq := h.seq.toNat
  let s := s.validated n seq
  if s.mirrorWaits n seq then
    { s with ldg := { s.ldg with twinWait := s.ldg.twinWait ++ [({ head := h, cmd := c, data := bs }, 0)] } }
  else s.accept h c bs

/-- There is room to post a disposition of command ledger `n`, or the device posts none (R394, R420, R422). -/
def State.mayDispose (s : State) (n : Nat) : Bool := !s.postsCompletions || s.mayPost n

/-- A held command is disposed of as its wait ends: not confirmed in time, it is rejected; else the checks on the cell's and
its objects' state, which may have changed since its validation, are made again before its ACCEPT (R74, R80, R84, R94, R125,
R384). -/
def State.heldDisposed (s : State) (v : Verifying) : State :=
  if v.expired then s.reject (descrOf v.head v.cmd) .twinMirror 0
  else
    match (s.modeCheck v.cmd).or (s.ownCheck v.cmd v.data) with
    | some e => s.reject (descrOf v.head v.cmd) e.1 e.2
    | none => s.accept v.head v.cmd v.data

/-- Commands that the standby has confirmed, or failed to, are disposed of in the order of their validation, as far as there
is room to post (R384, R422). A device that has become SYNCING or STANDBY meanwhile disposes of them by its role (R376,
R405; DEDUCED, log 37). -/
def State.twinConfirmed (s : State) : State :=
  s.each s.ldg.twinWait fun s w =>
    let n := w.1.head.ledger.val
    if (w.1.expired || !s.mirrorWaits n w.1.head.seq.toNat) && s.mayDispose n then
      ({ s with ldg := { s.ldg with twinWait := s.ldg.twinWait.erase w } } : State).heldDisposed w.1
    else s

/-- Commands whose images the crypto engine verifies before the disposition (R333, R453, R455). -/
def cmdVerified : HostCmd → Bool
  | .safetyLoad .. | .imageLoad .. => true
  | _ => false

/-- The device disposes of a descriptor, or holds it for verification or confirmation (R403). -/
def State.dispose (s : State) (d : Descr) : State :=
  let n := d.head.ledger.val
  let seq := d.head.seq.toNat
  let last := (s.cursor n).disposed
  if seq ≤ last then s.reject d .seqDup 0
  else if seq > last + 1 then s.reject d .seqGap 0
  else
    match d.cmd with
    | none => s.reject d .opcode 0
    | some c =>
      match s.checkCmd d c with
      | .error e => s.reject d e.1 e.2
      | .ok bs =>
        if (cmdVerified c) then
          { s with ldg := { s.ldg with verify := s.ldg.verify ++ [{ head := d.head, cmd := c, data := bs }] } }
        else s.validate d.head c bs

/-- A descriptor of command ledger `n` can be fetched and disposed of now (R394, R397, R412, R417, R422, R424, R455). -/
def State.canDispose (s : State) (n : Nat) : Bool :=
  let held := ringHeld (s.cursor n).producer (s.fld (F.CMD_CONSUMED_count n))
  let switching := match s.sec.job with
    | some j => j.image.kind == 2
    | none => false
  s.flag (F.CMD_CFG_enable n) && s.flag F.LDG_STAT_ready && s.hostOut && held != 0 && tabNat s.ldg.fetchFails n < 3 &&
    !s.disposalWaits n && !switching && !(s.ldg.verify.any fun v => v.head.ledger.val == n) &&
    !(s.ldg.twinWait.any fun w => w.1.head.ledger.val == n) &&
    !(s.postsCompletions && s.twin.disps.any fun d => d.head.ledger.val == n)

/-- A fetch has succeeded: the retries start anew (R424). -/
def State.fetched (s : State) (n : Nat) : State :=
  { s with ldg := { s.ldg with fetchFails := Tab.set (fun _ => 0) s.ldg.fetchFails n 0 } }

/-- A command row: the next descriptor of the ledger, fetched and disposed of, is this command (log 21). -/
def State.hostCommand (s : State) (h : CmdHead) (c : HostCmd) : State :=
  if s.canDispose h.ledger.val then (s.fetched h.ledger.val).dispose (descrOf h c) else s

/-! ## DESCRIPTOR_FETCH and IMAGE_VERIFIED -/

/-- A fetch that fails is retried twice; the third failure stops disposal of the ledger (R424). -/
def State.fetchFails (s : State) (n : Nat) : State :=
  let k := tabNat s.ldg.fetchFails n + 1
  if k < 3 then { s with ldg := { s.ldg with fetchFails := Tab.set (fun _ => 0) s.ldg.fetchFails n k } }
  else
    let s : State := { s with ldg := { s.ldg with fetchFails := Tab.set (fun _ => 0) s.ldg.fetchFails n 3 } }
    ((s.raise (F.CMD_STAT_fetch_err n)).signalEvent).tally .fetchError (.ledger n) (s.cursor n).producer

/-- DESCRIPTOR_FETCH: the descriptor at the consumed count is read and disposed of (R397, R403, R424). -/
def State.descriptorFetch (s : State) (n : Fin 16) (ok : Bool) : State :=
  if !s.canDispose n.val then s
  else
    let slot := s.fld (F.CMD_CONSUMED_count n.val) % 2 ^ s.fld (F.CMD_CFG_size n.val)
    match s.readBuffer (s.pair (A.CMD_BASE n.val) + slot * 64) 64 with
    | none => s.fetchFails n.val
    | some bs =>
      if !ok then s.fetchFails n.val
      else (s.fetched n.val).dispose (parseDescr n bs)

/-- The verification of a command's image has ended: its checks in order (R333, R337, R450, R453, R455). -/
def State.verifyEnds (s : State) (v : Verifying) : State :=
  let d := descrOf v.head v.cmd
  match (s.modeCheck v.cmd).or (s.ownCheck v.cmd v.data) with
  | some e => s.reject d e.1 e.2
  | none =>
    match v.cmd with
    | .safetyLoad _ len =>
      match s.safetyCheck v.data len.toNat with
      | some (why, detail, check, place) => (s.safetyRejected v.data check place).reject d why detail
      | none => s.validate v.head v.cmd v.data
    | .imageLoad k g _ len =>
      let why := s.imageCheck v.data len.toNat (some (k.toNat, if k.toNat = 2 then 0 else g.toNat))
      if why = .none then s.validate v.head v.cmd v.data
      else (s.imageRejected why v.data v.head.seq.toNat).reject d why 0
    | _ => s

/-- Commands whose verification has ended are disposed of as far as there is room to post (R422). -/
def State.resumeVerified (s : State) : State :=
  s.each (s.ldg.verify.filter Verifying.verified) fun s v =>
    if s.mayDispose v.head.ledger.val then
      ({ s with ldg := { s.ldg with verify := s.ldg.verify.erase v } } : State).verifyEnds v
    else s

/-- IMAGE_VERIFIED: the crypto engine finishes the oldest image it was given (R450). -/
def State.imageVerified (s : State) : State :=
  match s.ldg.verify.find? fun v => !v.verified with
  | none => s
  | some v =>
    let mark (x : Verifying) : Verifying := if x = v then { x with verified := true } else x
    ({ s with ldg := { s.ldg with verify := s.ldg.verify.map mark } } : State).resumeVerified

/-- MIRROR_CONFIRM_TIMEOUT: a command of ledger `n` not confirmed within 8 link cycles of its validation (R384). -/
def State.mirrorTimeout (s : State) (n : Nat) : State :=
  let mark (w : Verifying × Nat) : Verifying × Nat :=
    if w.1.head.ledger.val = n && w.2 ≥ 8 then ({ w.1 with expired := true }, w.2) else w
  ({ s with ldg := { s.ldg with twinWait := s.ldg.twinWait.map mark } } : State).twinConfirmed

/-- A disposition that a standby made, and that the old ACTIVE device had not, is posted in its place, as by a lone device; a
command refused with TWIN_ROLE is disposed of anew (R421). -/
def State.takeDisposition (s : State) (d : TwinDisp) : State :=
  let n := d.head.ledger.val
  let seq := d.head.seq.toNat
  let c := s.cursor n
  if seq ≤ c.disposed then s
  else if d.kind = 1 then
    (s.setCursor n { c with disposed := seq, accepted := seq }).postCompletion
      { ledger := n, seq := seq, opcode := d.opcode, kind := 1, reason := 0, stamp := s.now, result := 0, irq := false }
  else
    match d.cmd, decide (d.reason = Reason.twinRole.code) with
    | some cmd, true => (s.wrapFld (F.CMD_CONSUMED_count n) (2 ^ 32 - 1)).dispose (descrOf d.head cmd)
    | _, _ =>
      (s.setCursor n { c with disposed := seq }).postCompletion
        { ledger := n, seq := seq, opcode := d.opcode, kind := 2, reason := d.reason, stamp := s.now,
          result := d.detail % 2 ^ 32, irq := false }

/-- The dispositions that a new ACTIVE device takes over are posted, each ledger's in order, as far as there is room (R421,
R422). -/
def State.resumeDisps (s : State) : State :=
  if !s.postsCompletions then s
  else
    s.each s.twin.disps fun s d =>
      let n := d.head.ledger.val
      let first := (s.twin.disps.find? fun e => e.head.ledger.val == n) == some d
      if first && s.mayPost n then
        ({ s with twin := { s.twin with disps := s.twin.disps.erase d } } : State).takeDisposition d
      else s

/-- What the ledgers hold back goes on: final completions, dispositions that wait for room, and commands that may begin
(R394, R410, R422). -/
def State.ledgersGo (s : State) : State :=
  if s.flag F.LDG_STAT_ready then s.settle.resumeDisps.twinConfirmed.resumeVerified.settle.startCommands else s

end Sys2Proof.Machine
end

