-- ==== Sys2Proof/Machine/Fabric.lean ====
section
/-!
DEFINITION. The signal fabric: points, reads and writes, the host window, the mirror, and LINK coordinates (R57, R437 to
R443).
-/

namespace Sys2Proof.Machine

/-! ## Writes (R438, R441, R443) -/

/-- Bytes written to the fabric space. -/
def State.fabWrite (s : State) (off : Nat) (bs : List Byte) : State :=
  let inSram := (List.range bs.length).filter fun i => (s.fabPlace (off + i)).1
  let n := inSram.length
  let s := if n = 0 then s else s.sramWrite (s.fabPlace off).2 (bs.take n)
  if n = bs.length then s else s.dramWrite (s.fabPlace (off + n)).2 (bs.drop n)

/-- The engine writes the first bytes of a point's record with a stamp: its version rises by two, through an odd value.
A mirrored point is due to be copied (R438, R443). -/
def State.pointPut (s : State) (p stamp : Nat) (record : List Byte) : State :=
  let o := s.pointOffset p
  let v := (s.pointVer p + 2) % 2 ^ 32
  let s := s.fabWrite (o + 16) (record.take (4 * s.pointWords p))
  let s := s.fabWrite o (toBytes 4 v ++ toBytes 4 0 ++ toBytes 8 stamp)
  if s.pointMirrored p && s.pair A.FAB_HOST_BASE != 0 && s.hostUp && !s.fab.due.contains p then
    { s with fab := { s.fab with due := s.fab.due ++ [p] } }
  else s

/-- A device function writes its point: refused, and recorded once, when the point is not DEVICE or is shorter than the
record (R441). -/
def State.devicePut (s : State) (p : Nat) (record : List Byte) : State :=
  if s.pointKind p = Kind.device && record.length ≤ 4 * s.pointWords p then
    ({ s with fab := { s.fab with told := s.fab.told.filter (· != p) } } : State).pointPut p s.now record
  else
    let s := s.countFld F.FAB_STAT_refused
    if s.fab.told.contains p then s
    else ({ s with fab := { s.fab with told := p :: s.fab.told } } : State).tally .writeRefused .chip p Kind.device

/-! ## Reads (R439, R440, R465, R466) -/

/-- A read of a point meets uncorrectable errors: they are reported where they lie. -/
def State.fabErrors (s : State) (p : Nat) : State × Bool :=
  let (words, lines) := s.pointErrors p
  let s := s.each words fun s w => (s.sramDetect w).countFld F.MEM_SECC_uncorr
  let s := s.each lines fun s l => (s.dramError (l * 32)).dramActed (l * 32)
  (s, !words.isEmpty || !lines.isEmpty)

/-- A read has failed for good: it is counted and recorded (R439). -/
def State.readFails (s : State) (at' : Nat) (p kind : Nat) : State :=
  (s.countFld F.FAB_STAT_retry_fail).tallyAt at' .readFail .chip p kind 0

/-- What the first try of a read leads to. -/
inductive ReadOutcome where
  | done | failed | waits
  deriving DecidableEq, Repr

/-- The first try of a read, of the memories of `b`: it succeeds when ver is even and the memory is good. One that finds
ver odd is repeated up to eight times, 50 ns apart; an uncorrectable error fails the read at once (R439, R465, log 83). -/
def State.pointRead (s b : State) (reader : FabReader) (p kind : Nat) : State × ReadOutcome :=
  let (s, bad) := s.fabErrors p
  if bad then (s.readFails s.now p kind, .failed)
  else if b.pointVer p % 2 = 1 then
    ({ s with fab := { s.fab with
        tries := s.fab.tries ++ [{ reader := reader, point := p, kind := kind, next := s.clk.time + tryGap }] } }, .waits)
  else (s, .done)

/-- The key of a reader of R440 that remembers ver. -/
def FabReader.key : FabReader → Nat
  | .coord n => n
  | .batten ch n j => 2 ^ 8 + ((ch * 2 ^ 12 + n) * 2 ^ 6 + j)
  | .host => 2 ^ 21
  | .device sender => 2 ^ 21 + 1 + sender

/-- The key of what a reader has seen of a point. -/
def FabReader.ofPoint (reader : FabReader) (p : Nat) : Nat := reader.key * 2 ^ 17 + p

/-- ver of the reader's last successful read of the point. -/
def State.seenVer (s : State) (reader : FabReader) (p : Nat) : Nat := Tab.get (fun _ => 0) s.fab.seen (reader.ofPoint p)

/-- A successful read leaves its ver with the reader; it is fresh when that differs from the last one (R440). -/
def State.sees (s : State) (reader : FabReader) (p ver : Nat) : State × Bool :=
  ({ s with fab := { s.fab with seen := Tab.set (fun _ => 0) s.fab.seen (reader.ofPoint p) ver } },
    ver != s.seenVer reader p)

/-- The reads that have ended: those whose eight tries have failed, and those of some readers that have succeeded, which
are used (R439). -/
def State.triesEnd (s : State) (mine : FabReader → Bool) (use : State → FabTry → FabRead → State) : State :=
  if s.fab.tries.isEmpty then s
  else
    let s := s.triesRun
    let failed (t : FabTry) : Bool := t.got.isNone && t.left == 0
    let ended (t : FabTry) : Bool := failed t || t.got.isSome && mine t.reader
    let done := s.fab.tries.filter ended
    let s : State := { s with fab := { s.fab with tries := s.fab.tries.filter fun t => !ended t } }
    s.each done fun s t =>
      match t.got with
      | some r => use s t r
      | none =>
        let s := s.readFails ((t.next - tryGap) / nsUnit) t.point t.kind
        match t.reader with
        | .batten ch n _ => { s with fab := { s.fab with lead := s.fab.lead.filter fun l => !(l.ch == ch && l.n == n) } }
        | _ => s

/-! ## LINK coordinates (R57) -/

/-- A LINK coordinate takes a record that it has read: value, rate and stamp, from a point of at least 24 bytes; at a change
of source the value carries on and the record gives the rate (R55, R57, R441). -/
def State.coordTakes (s : State) (n : Nat) (changed : Bool) (record : List Byte) : State :=
  let rate := signedOf 64 (bytesAt record 8 8)
  if record.length < 24 then s
  else if changed then
    s.setCoord n { s.coordOf n with link := some { value := (s.coordOf n).shown, rate := rate, stamp := s.now } }
  else s.linkRecord n (signedOf 64 (bytesAt record 0 8)) rate (bytesAt record 16 8)

/-- A coordinate's part of a tick before its update: a change of source, and the read of a LINK coordinate's point as it
stood before the tick's count (R54, R55, R57). -/
def State.coordRead (s : State) (n : Nat) : State :=
  let changed := s.sourceChanged n
  let s := s.sourceSwitched n
  let p := s.asOf.fld (F.K_POINT_point n)
  if s.asOf.coordSource n ≠ 3 || (!changed && s.asOf.pointVer p == s.seenVer (.coord n) p) then s
  else
    match s.pointRead s.asOf (.coord n) p Kind.device with
    | (s, .done) => (s.sees (.coord n) p (s.asOf.pointVer p)).1.coordTakes n changed (s.asOf.pointRecord p)
    | (s, _) => s

/-- The reads of LINK coordinates that a repeated try has completed since the last tick are used at this one (R54, R439). -/
def State.coordTries (s : State) : State :=
  let coord (r : FabReader) : Bool := match r with
    | .coord _ => true
    | _ => false
  s.triesEnd coord fun s t r =>
    match t.reader with
    | .coord n =>
      if s.asOf.coordSource n ≠ 3 || s.asOf.fld (F.K_POINT_point n) ≠ t.point then s
      else
        let (s, fresh) := s.sees t.reader t.point r.ver
        if fresh then s.coordTakes n false r.record else s
    | _ => s

/-! ## The host window (R442) -/

/-- A refused access of the host window. -/
def State.pctlRefused (s : State) (value : Nat) : State :=
  (s.raise F.FAB_PCTL_err).discard .host A.FAB_PCTL .state value

/-- What one successful read of a point puts into the host window. -/
def State.windowTakes (s : State) (r : FabRead) : State :=
  let s := s.each (List.range (r.record.length / 4)) fun s w =>
    s.setReg (A.FAB_PDATA w) (BitVec.ofNat 32 (bytesAt r.record (4 * w) 4))
  (s.setFld F.FAB_PVER_ver r.ver).setPair A.FAB_PSTAMP r.stamp

/-- A write of FAB.PCTL that no rule discards: while an access runs it is (R442, R493). -/
def State.pctlGate (s : State) (value : Nat) (f : State → State) : State :=
  s.hostGate A.FAB_PCTL value fun s => if s.hostReads then s.discard .host A.FAB_PCTL .state value else f s

/-- PCTL_READ: a write of 1 to FAB.PCTL.read. -/
def State.pctlRead (s : State) (value : Nat := 1) : State :=
  s.pctlGate value fun s =>
    let p := s.fld F.FAB_PSEL_point
    if s.pointKind p = Kind.unused then s.pctlRefused value
    else
      match s.pointRead s .host p Kind.host with
      | (s, .done) =>
        s.windowTakes { at' := s.clk.time, ver := s.pointVer p, stamp := s.pointStamp p, record := s.pointRecord p }
      | (s, _) => s

/-- PCTL_WRITE: a write of 1 to FAB.PCTL.write. -/
def State.pctlWrite (s : State) (value : Nat := 2) : State :=
  s.pctlGate value fun s =>
    let p := s.fld F.FAB_PSEL_point
    if s.pointKind p ≠ Kind.host then (s.countFld F.FAB_STAT_refused).pctlRefused value
    else
      s.pointPut p s.now ((List.range (s.pointWords p)).flatMap fun w => toBytes 4 (s.reg (A.FAB_PDATA w)).toNat)

/-! ## The mirror (R443) -/

/-- MIRROR_COPY: a due copy of a point, at least 10 us after the last one. -/
def State.mirrorCopy (s : State) (p : Nat) : State :=
  if !s.fab.due.contains p || !s.hostOut then s
  else
    let s := match Tab.get (fun _ => none) s.fab.copied p with
      | some t => s.advanceTo ((t + 10000) * nsUnit)
      | none => s
    let o := s.pointOffset p
    let s := s.hostWrite (s.pair A.FAB_HOST_BASE + o) (s.fabBytes o (16 + 4 * s.pointWords p))
    { s with fab := { s.fab with due := s.fab.due.filter (· != p),
                                 copied := Tab.set (fun _ => none) s.fab.copied p (some s.now) } }

/-- When host memory is reachable again every mirrored point is due once: those of the directory's entries that are not all
zero; while it is not, no copy is (R443). -/
def State.mirrorResume (s : State) (up : Bool) : State :=
  let base := s.dirPlace 0
  let flagged := s.dram.filterMap fun c => if base ≤ c.1 && c.1 < base + 2 ^ 20 then some ((c.1 - base) / 8) else none
  let all := flagged.eraseDups.filter s.pointMirrored
  { s with fab := { s.fab with due := if up && s.pair A.FAB_HOST_BASE != 0 then all else [] } }

end Sys2Proof.Machine
end

