-- ==== Sys2Proof/Machine/Tick.lean ====
section
/-!
DEFINITION. COORDINATE_TICK: what happens at every 1 us of ridge time, in order (R50, R54, R61, R102, R119, R121, R126,
R203, R206, R324).
-/

namespace Sys2Proof.Machine

/-- Multiples of 250 us: the feedforward results apply, and waiting PAYLOAD_SET commands take effect (R116, R119). -/
def State.payloadTick (s : State) : State :=
  if s.now % 250000 = 0 then s.each (List.range 8) fun s g => (s.ffApply g).payloadApply g else s

/-- Busy clocks are shown at each ridge-time millisecond (R260). -/
def State.busyTick (s : State) : State := if s.now % 1000000 = 0 then s.closeBusy else s

/-- The moment of the next tick: the multiple of 1 us after the last one, or the first that ridge time reaches (R50). -/
def State.tickAt (s : State) : Moment :=
  let n := nextMultiple 1000 s.clk.lastTick
  if s.now < n then n * nsUnit
  else if s.now % 1000 = 0 then s.clk.time
  else nextMultiple 1000 s.now * nsUnit

/-- Ridge time comes to its next multiple of 1 us (R50); the votes that end by then and what a separation cycle publishes
before it come first (R254, R331). -/
def State.toTick (s : State) : State :=
  let t := s.tickAt
  let s := ((s.settleBy t).publishDue t).advanceTo t
  { s with clk := { s.clk with lastTick := s.now } }

/-- What a coordinate tick updates, in order: coordinates, payloads, profile engines, steppers, compare entries, delay
lists, port speeds and emulations. -/
def State.tickAll (s : State) : State :=
  let s := ((s.coordTries.each (List.range 16) State.coordRead).each (List.range 16) State.coordTick).payloadTick
  let s := s.each (List.range 8) State.engineTick
  let s := (s.each (List.range 64) State.stepperTick).compareTick
  let s := s.each (List.range 5) State.dlTick
  let s := s.each (List.range 64) State.evalSpeed
  (s.each (List.range 8) State.emuTick).busyTick

/-- COORDINATE_TICK. Without the timing clock there is no tick (R24). Accepted commands that waited begin as soon as they
may; those that a disposal has not started do at the next tick (log 22). -/
def State.coordinateTick (s : State) : State := if s.tclkGone then s else s.toTick.tickAll.startCommands

end Sys2Proof.Machine
end

