-- ==== Sys2Proof/Machine/Doorbell.lean ====
section
/-!
DEFINITION. Doorbells (R36, R397, R398), full and moderated rings (R422, R425), the reachability of host memory (R394)
and the taking of tally records (R434).
-/

namespace Sys2Proof.Machine

/-- What the PCIe endpoint presents of itself (R393). -/
structure Endpoint where
  /-- fastest link generation and most lanes -/
  generation : Nat
  lanes : Nat
  /-- functions, and the type of their header -/
  functions : Nat
  headerType : Nat
  vendor : Nat
  device : Nat
  revision : Nat
  classCode : Nat
  msixVectors : Nat
  /-- BAR0 offsets of the MSI-X table and of the pending-bit array -/
  msixTable : Nat
  msixPending : Nat
  /-- 64-bit memory BARs with their address and size in bytes; BAR4 and BAR5 are not there -/
  bars : List (Nat × Nat × Nat)
  /-- bytes of the largest payload and of the largest read request, and reads outstanding at most -/
  payload : Nat
  readRequest : Nat
  reads : Nat
  relaxedOrdering : Bool
  noSnoop : Bool
  inD3hot : Bool
  errorReporting : Bool
  deriving DecidableEq, Repr

def State.endpoint (s : State) : Endpoint :=
  let c := s.pcie
  { generation := 3, lanes := 4, functions := 1, headerType := 0,
    bars := [(0, c.bar0.toNat / 2 ^ 22 * 2 ^ 22, 2 ^ 22), (2, c.bar2.toNat / 2 ^ 16 * 2 ^ 16, 2 ^ 16)],
    payload := if c.payload256 then 256 else 128, readRequest := 128 * 2 ^ c.readRequest.val, reads := 64,
    relaxedOrdering := false, noSnoop := false, inD3hot := c.d3hot, errorReporting := true,
    vendor := 0x1F7B, device := 0x8064, revision := s.fld F.SYS_STEPPING_base, classCode := 0x118000, msixVectors := 21
    msixTable := 0x350000, msixPending := 0x358000 }

/-- A doorbell write that is discarded: db_err, the EVENT vector and a record (R397, R398). -/
def State.doorbellBad (s : State) (err : Fld) (ledger value : Nat) : State :=
  ((s.raise err).signalEvent).tally .doorbellError (.ledger ledger) value

/-- DOORBELL: a write of a producer count (R397, R424). -/
def State.doorbell (s : State) (n count : Nat) : State :=
  let consumed := s.fld (F.CMD_CONSUMED_count n)
  let held := ringHeld count consumed
  if held > 2 ^ s.fld (F.CMD_CFG_size n) || held < ringHeld (s.cursor n).producer consumed then
    s.doorbellBad (F.CMD_STAT_db_err n) n count
  else
    let s : State := { s with ldg := { s.ldg with
      fetchFails := if tabNat s.ldg.fetchFails n = 3 then Tab.set (fun _ => 0) s.ldg.fetchFails n 0 else s.ldg.fetchFails } }
    s.setCursor n { s.cursor n with producer := count }

/-- COMPLETION_DOORBELL: a write of a consumer count frees the slots the host has read (R398, R422). -/
def State.consumerBell (s : State) (r : ConsumerRing) (count : Nat) : State :=
  match r with
  | .completion m =>
    let m := m.val
    let freed := ringHeld count (s.fld (F.CPL_CONSUMED_count m))
    if freed > ringHeld (s.fld (F.CPL_PRODUCED_count m)) (s.fld (F.CPL_CONSUMED_count m)) then
      s.doorbellBad (F.CPL_STAT_db_err m) (16 + m) count
    else ((s.setFld (F.CPL_CONSUMED_count m) count).refreshFull m).ledgersGo
  | .tally k =>
    let k := k.val
    let freed := ringHeld count (s.fld (F.TAL_CONSUMED_count k))
    if freed > ringHeld (s.fld (F.TAL_PRODUCED_count k)) (s.fld (F.TAL_CONSUMED_count k)) then
      s.doorbellBad (F.TAL_STAT_db_err k) (32 + k) count
    else (s.setFld (F.TAL_CONSUMED_count k) count).refreshTalFull k

/-- A host write of a command ledger's doorbell; in BOOT it is discarded (R451). A record of a BAR2 write gives the BAR2
offset (log 23). -/
def State.doorbellWrite (s : State) (n count : Nat) : State := s.hostGate (n * 0x100) count fun s => s.doorbell n count

/-- BAR2 offset of a consumer doorbell (R36). -/
def consumerOffset : ConsumerRing → Nat
  | .completion m => 0x1000 + m.val * 0x100
  | .tally k => 0x2000 + k.val * 0x100

/-- A host write of a completion or tally ledger's doorbell (R398, R451). -/
def State.consumerWrite (s : State) (r : ConsumerRing) (count : Nat) : State :=
  s.hostGate (consumerOffset r) count fun s => s.consumerBell r count

/-- LEDGER_FULL: a completion ledger has stayed full for another LDG.LIMIT.stall ms (R422). -/
def State.ledgerFull (s : State) (m : Nat) : State :=
  let x := s.cplSide m
  match x.fullSince with
  | none => s
  | some t =>
    let ms := (x.told + 1) * s.fld F.LDG_LIMIT_stall
    let s := (s.advanceTo ((t + ms * 1000000) * nsUnit)).setCplSide m { x with told := x.told + 1 }
    s.signalEvent.tally .ledgerFull (.ledger (16 + m)) 0 ms

/-- MODERATION_TIMEOUT: MOD.time has passed since a ring's first unsignalled descriptor (R425). -/
def State.moderationTimeout (s : State) (r : ConsumerRing) : State :=
  match r with
  | .completion m =>
    let x := s.cplSide m.val
    if x.unsignalled = 0 then s
    else
      let s := s.advanceTo ((x.since + s.fld (F.CPL_MOD_time m.val) * 1000) * nsUnit)
      (s.setCplSide m.val { x with unsignalled := 0 }).signal m.val
  | .tally k =>
    let x := s.talSide k.val
    if x.unsignalled = 0 then s
    else
      let s := s.advanceTo ((x.since + s.fld (F.TAL_MOD_time k.val) * 1000) * nsUnit)
      (s.setTalSide k.val { x with unsignalled := 0 }).signal (16 + k.val)

/-- Host memory is lost, or becomes reachable again and what waited for it goes out (R394). -/
def State.linkState (s : State) (up : Bool) : State :=
  if up == s.hostUp then s
  else
    let s := (s.setFlag F.LDG_STAT_link up).tally .hostLinkState .host (if up then 1 else 0)
    let s := s.mirrorResume up
    if up then s.ledgersGo.sendPending else s

/-- Host memory is reachable: the link is up, Bus Master Enable is 1 and the function is in D0 (R394). -/
def hostReaches (c : PcieSetup) : Bool := c.link && c.busMaster && !c.d3hot

/-- LINK_STATE: the endpoint takes what the link and the host's configuration writes leave it, and host memory is lost or
comes back as they have it (R393, R394). -/
def State.pcieChange (s : State) (c : PcieSetup) : State := ({ s with pcie := c } : State).linkState (hostReaches c)

/-- The 64 bytes of a tally descriptor (R426, R434). -/
def TallyRec.bytes (r : TallyRec) (phase : Nat) : List Byte :=
  toBytes 8 r.seq ++ toBytes 6 0 ++ toBytes 1 phase ++ toBytes 1 0 ++ toBytes 8 r.stamp ++ toBytes 2 r.seq ++
    toBytes 1 r.cls ++ toBytes 1 r.flags ++ toBytes 2 r.code ++ toBytes 2 r.source ++ toBytes 4 r.d0 ++
    toBytes 4 r.d1 ++ toBytes 8 r.d2 ++ toBytes 16 0

/-- The merges of the present clock into a record that is taken in it are undone: the take came first, and the events enter
or merge anew (R433). -/
def State.remerge (s : State) (ms : List (TallyRec × TallyRec)) : State :=
  s.each ms fun s m => (s.setFld F.TLY_MERGED_count (s.fld F.TLY_MERGED_count - 1)).tallyPut m.2

/-- TALLY_TAKE: tally ledger `k` takes its oldest record (R420, R423, R430, R431, R434). -/
def State.tallyTake (s : State) (k : Nat) : State :=
  let count := s.fld (F.TAL_PRODUCED_count k)
  let size := s.fld (F.TAL_CFG_size k)
  let room := ringHeld count (s.fld (F.TAL_CONSUMED_count k)) < 2 ^ size
  if !(s.hostOut && s.flag (F.TAL_CFG_enable k) && room) then s
  else
    match s.tly.ring.find? fun r => r.ledger == k with
    | none => s
    | some r =>
      let ms := s.mergesNow.filter fun m => m.1.seq == r.seq
      let taken := (ms.head?.map (·.1)).getD r
      let s : State := { s with tly := { s.tly with
        ring := s.tly.ring.erase r, taken := Tab.set (fun _ => 0) s.tly.taken k (tabNat s.tly.taken k + 1)
        merges := s.tly.merges.filter fun m => m.1.seq != r.seq } }
      let s := s.hostWrite (s.pair (A.TAL_BASE k) + count % 2 ^ size * 64) (taken.bytes (phaseOf size count))
      let s := (s.wrapFld (F.TAL_PRODUCED_count k)).refreshTalFull k
      let s := s.moderate (16 + k) (s.fld (F.TAL_CFG_count k)) (s.fld (F.TAL_MOD_time k)) false (s.talSide k)
        fun s x => s.setTalSide k x
      s.remerge ms

end Sys2Proof.Machine
end

