-- ==== Sys2Proof/Machine/Boot.lean ====
section
/-!
DEFINITION. Device reset and what survives it (R435, R445, R446, R467), the boot bundle (R447, R450, R451), ledger
recovery (R416 to R419) and the loading of images in service (R454, R455).
-/

namespace Sys2Proof.Machine

/-! ## Device reset -/

/-- Code of a reset's cause in the RESET record (R435, R436). -/
def resetCode (cause : ResetCause) (kept : Bool) : Nat :=
  if !kept then 4
  else match cause with
    | .powerOn => 1
    | .resetBall => 2
    | .brownout => 3
    | .hotReset => 5
    | .serviceWatchdog => 6

/-- Setup registers of the LDG block, and the produced counts of the tally ledgers, which belong to the counts of the
tally ring (R419, R425, R435). -/
def ledgerSetup (a : Nat) : Bool :=
  let o := a % 0x20
  if a < 0x340000 || a ≥ 0x350000 then false
  else if a < 0x340100 then a != A.LDG_STAT
  else if a < 0x340300 then o != 0x0C && o != 0x18
  else (o != 0x10 || a ≥ 0x340500) && o != 0x14 && o != 0x18

/-- Registers that the always-on domain keeps (R419, R435, R467): setup of the LDG block, the TLY fields (R444),
SEC.BOOT_ADDR, SEC.RSTCFG, MEM.CFG, MEM.RETRAIN and the user area. -/
def retained (a : Nat) : Bool :=
  ledgerSetup a || a == A.TLY_CFG || a == A.TLY_ROUTE || a == A.TLY_OCC || a == A.TLY_MERGED || a == A.SEC_BOOT_ADDR ||
    a == A.SEC_BOOT_ADDR + 4 || a == A.SEC_RSTCFG || a == A.MEM_CFG || a == A.MEM_RETRAIN ||
    (0x3A2000 ≤ a && a < 0x3C0000)

/-- Registers that show OTP and fuses (R468): they are the same after every reset. -/
def fused (a : Nat) : Bool :=
  a == A.SYS_STEPPING || a == A.SEC_DEVID || a == A.SEC_DEVID + 4 || a == A.SEC_ROLLBACK || a == A.SEC_KEYSTAT ||
    (0x381000 ≤ a && a < 0x382000)

/-- The 32-byte challenge is drawn anew from the TRNG: free values (R460, log 2). -/
def State.newChallenge (s : State) : State :=
  s.each (List.range 4) fun s k =>
    let v := s.freeVal
    (s.usedFree.setReg (A.SEC_DBG_CHAL (2 * k)) (v.setWidth 32)).setReg (A.SEC_DBG_CHAL (2 * k + 1))
      ((v >>> 32).setWidth 32)

/-- The counts that the retained ledger records hold: those of the ledgers, or after a reset that no recovery has followed
those that stand in the records (R415, R417). -/
def State.ledgerRecords (s : State) : Ldg :=
  if s.flag F.LDG_STAT_ready then
    { keptConsumed := foldUpTo 16 (fun t n => Tab.set (fun _ => 0) t n (s.fld (F.CMD_CONSUMED_count n))) []
      keptProduced := foldUpTo 16 (fun t m => Tab.set (fun _ => 0) t m (s.fld (F.CPL_PRODUCED_count m))) [] }
  else { keptConsumed := s.ldg.keptConsumed, keptProduced := s.ldg.keptProduced }

/-- The machine after a device reset: every region starts anew; the always-on domain, OTP, host memory and the levels
at the balls stay (R445, R467). -/
def State.afterReset (s : State) (cause : ResetCause) (kept : Bool) : State :=
  let r : State :=
    { State.reset with
      pending := s.pending, free := s.free, hostRead := s.hostRead, irqs := s.irqs, hostMem := s.hostMem,
      hostBad := s.hostBad, tclkGone := s.tclkGone,
      regs := s.regs.filter fun e => kept && retained e.1 || fused e.1,
      tly := if kept then s.tly else {},
      ldg := if kept then
          { s.ledgerRecords with
            cmd := s.ldg.cmd.map fun e => (e.1, { e.2 with producer := 0 }), outst := s.ldg.outst,
            generation := s.ldg.generation, badRecords := s.ldg.badRecords }
        else {},
      sec := { keys := s.sec.keys, seed := s.sec.seed },
      pwr := { cause := resetCode cause kept, kept := kept, lastStamp := if kept then s.tly.lastStamp else 0 },
      fbk := (List.range 64).foldl (fun t n => Tab.set (fun _ => {}) t n { lines := (s.fbkOf n).lines }) [],
      saf := { inputs := s.saf.inputs.map fun e => (e.1, { a := e.2.a, b := e.2.b }) } }
  let prov := s.flag F.SEC_PROV_provisioned
  let r := (r.setFlag F.SEC_PROV_provisioned prov).setFld F.SEC_DBG_state (if prov then 0 else 1)
  r.newChallenge

/-- DEVICE_RESET (R445). A PCIe hot reset counts only while SEC.RSTCFG.hot is 1; else it resets the endpoint alone. -/
def State.deviceReset (s : State) (cause : ResetCause) (kept : Bool) : State := s.afterReset cause kept

/-- PCIE_FUNDAMENTAL_RESET: the endpoint's configuration space is reset and nothing else; the ledger state survives, and
so does what BAR0 holds (R394). With Bus Master Enable at 0, host memory is out of reach. -/
def State.endpointReset (s : State) : State := s.pcieChange {}

/-- A device reset of a cause, or what stands for it (R445). -/
def State.resetEvent (s : State) (cause : ResetCause) (kept : Bool) : State :=
  if cause = .hotReset && !s.flag F.SEC_RSTCFG_hot then s.endpointReset else s.deviceReset cause kept

/-- BROWNOUT: VDD falls below the warning threshold, 5 us before the reset (R435, R475). -/
def State.brownout (s : State) : State := s.setFlag F.PIN_SUPPLY_warn true

/-- Training of the DRAM begins (R464). -/
def State.trainingStarts (s : State) : State :=
  (((s.setFlag F.MEM_STAT_training true).setFlag F.MEM_STAT_ready false).setFlag F.MEM_STAT_train_err false).setFld
    F.MEM_STAT_step 0

/-- RESET_RELEASE: the PLLs lock, ridge time restarts at 0, the boot ROM sets the cause of the reset and enters the
RESET record, and an automatic training begins (R435, R446, R478). Without REFCLK nothing starts. -/
def State.resetRelease (s : State) : State :=
  if !s.pwr.held || s.tclkGone then s
  else
    let s : State := { s with pwr := { s.pwr with held := false }, clk := {}, tly := { s.tly with
      merges := [], ring := s.tly.ring.map fun r => { r with entered := none } } }
    let s := ((s.setFlag F.PIN_CLK_ref_ok true).setFlag F.PIN_CLK_core_lock true).setFlag F.PIN_CLK_timing_lock true
    let s := (s.setFld F.PIN_SUPPLY_ok 31).setFld F.SEC_RESET_CAUSE_cause s.pwr.cause
    let s := (s.setFlag F.MEM_RET_STAT_valid s.pwr.kept).setFlag F.TLY_STAT_retained s.pwr.kept
    let s := s.tally .reset .chip s.pwr.cause 0 s.pwr.lastStamp
    if s.flag F.MEM_CFG_auto then s.trainingStarts else s

/-! ## Boot (R446, R447, R450, R451) -/

def Boot.waitHost : Nat := 0
def Boot.fetching : Nat := 1
def Boot.verifying : Nat := 2
def Boot.loading : Nat := 3
def Boot.done : Nat := 4
def Boot.failed : Nat := 5

def State.bootState (s : State) : Nat := s.fld F.SEC_BOOT_state

/-- The boot fails: nothing is loaded and the device stays in BOOT (R451). -/
def State.bootFails (s : State) (why : Reason) (index : Nat) (bs : List Byte) : State :=
  let s : State := { s with sec := { s.sec with bundle := [], good := [] } }
  let s := ((s.setFld F.SEC_BOOT_state Boot.failed).setFld F.SEC_BOOT_index index).setFld F.SEC_BOOT_reason why.code
  s.imageRejected why bs index

/-- The entries of a bundle: offset and length of each image. A read that returns an error ends it, and a malformed header
or entry, each with its reason and index (R447, R451). -/
def bundleEntries (s : State) (base : Nat) : Except (Reason × Nat) (List (Nat × Nat)) :=
  match s.readBuffer base 64 with
  | none => .error (.dmaError, 0)
  | some h =>
    let n := bytesAt h 4 1
    if bytesAt h 0 4 ≠ 0x4C444E42 || n = 0 || n > 10 || bytesAt h 5 59 ≠ 0 then .error (.imageInvalid, 0)
    else
      match s.readBuffer (base + 64) (16 * n) with
      | none => .error (.dmaError, 0)
      | some bs =>
        match (List.range n).find? fun i => bytesAt bs (16 * i + 12) 4 != 0 with
        | some i => .error (.imageInvalid, i)
        | none => .ok ((List.range n).map fun i => (bytesAt bs (16 * i) 8, bytesAt bs (16 * i + 8) 4))

/-- BOOT_FETCH: the bundle is fetched from host memory (R447, R451). -/
def State.bootFetch (s : State) (ok : Bool) : State :=
  if s.cellMode ≠ 1 || s.pwr.held || s.bootState > Boot.fetching then s
  else if !s.hostUp then
    let s := s.setFld F.SEC_BOOT_state Boot.waitHost
    if s.sec.waitTold then s
    else ({ s with sec := { s.sec with waitTold := true } } : State).tally .bootWait .chip
  else if !ok then s.bootFails .dmaError 0 []
  else
    let base := s.pair A.SEC_BOOT_ADDR
    match bundleEntries s base with
    | .error e => s.bootFails e.1 e.2 []
    | .ok es =>
      let copies := es.map fun e => if e.2 > 4194304 then some [] else s.readBuffer (base + e.1) e.2
      match (List.range es.length).find? fun i => (copies.getD i none).isNone with
      | some i => s.bootFails .dmaError i []
      | none =>
        let items := (List.range es.length).map fun i => (i, (es.getD i (0, 0)).2, (copies.getD i none).getD [])
        ({ s with sec := { s.sec with bundle := items, good := [] } } : State).setFld F.SEC_BOOT_state Boot.verifying

/-- BOOT_VERIFY: the next image of the bundle has been verified (R450, R451). A bundle with two images of one area, or
without firmware, is malformed (R447). -/
def State.bootVerify (s : State) : State :=
  if s.bootState ≠ Boot.verifying then s
  else
    match s.sec.bundle with
    | [] => s
    | (i, len, bs) :: rest =>
      let why := s.imageCheck bs len none
      let im := parseImage bs
      if why ≠ .none then s.bootFails why i bs
      else if s.sec.good.any fun g => g.progArea == im.progArea then s.bootFails .imageInvalid i bs
      else if rest.isEmpty && im.kind ≠ 2 && !(s.sec.good.any fun g => g.kind == 2) then s.bootFails .imageInvalid i bs
      else
        let s : State := { s with sec := { s.sec with bundle := rest, good := s.sec.good ++ [im] } }
        let s := s.imageAccepted im
        if rest.isEmpty then s.setFld F.SEC_BOOT_state Boot.loading else s

/-- BOOT_RETRY: a write of 1 to SEC.BOOT_CTL.retry in state FAILED (R451). -/
def State.bootRetry (s : State) : State :=
  if s.bootState = Boot.failed then
    ((s.setFld F.SEC_BOOT_state Boot.fetching).setFld F.SEC_BOOT_index 0).setFld F.SEC_BOOT_reason 0
  else s

/-! ## Ledger recovery (R416 to R419) -/

/-- The command ledgers, and the completion ledgers, that are enabled. -/
def State.enabledCmd (s : State) : List Nat := (List.range 16).filter fun n => s.flag (F.CMD_CFG_enable n)
def State.enabledCpl (s : State) : List Nat := (List.range 16).filter fun m => s.flag (F.CPL_CFG_enable m)

/-- The command that the ring of a ledger holds at a sequence number, by the records of the ledger (DEDUCED, log 24). -/
def State.ringCommand (s : State) (n seq : Nat) : HostCmd × Bool :=
  let count := (s.fld (F.CMD_CONSUMED_count n) + 2 ^ 32 - 1 - ((s.cursor n).disposed - seq) % 2 ^ 32) % 2 ^ 32
  let slot := count % 2 ^ s.fld (F.CMD_CFG_size n)
  let bs := memBytes s.hostMem (s.pair (A.CMD_BASE n) + slot * 64) 64
  ((parseCmd bs).getD .nop, (bytesAt bs 10 1).testBit 1)

/-- An outstanding command rebuilt from the ring. -/
def State.rebuilt (s : State) (n seq : Nat) : Outst :=
  let c := s.ringCommand n seq
  { ledger := n, seq := seq, cmd := c.1, fence := false, irq := c.2, begun := true, final := none }

/-- The anchor is valid: its magic is right and its tag is LDG.TAG (R417). -/
def State.anchorValid (s : State) : Bool :=
  let base := s.pair A.LDG_ANCHOR
  s.hostUp && memNat s.hostMem base 4 == 0x524C4441 && memNat s.hostMem (base + 8) 8 == s.pair A.LDG_TAG

/-- The record of a command ledger taken from the anchor (R416, R417). -/
def State.cmdFromAnchor (s : State) (n : Nat) : State :=
  let a := s.pair A.LDG_ANCHOR + 0x40 + n * 0x20
  let c : CmdCursor := { disposed := memNat s.hostMem (a + 8) 8, accepted := memNat s.hostMem (a + 16) 8,
                         final := memNat s.hostMem (a + 24) 8 }
  let s := (s.setFld (F.CMD_CONSUMED_count n) (memNat s.hostMem a 4)).setCursor n c
  let seqs := (List.range (Nat.min (c.accepted - c.final) 1024)).map (c.final + 1 + ·)
  { s with ldg := { s.ldg with outst := (s.ldg.outst.filter fun o => o.ledger != n) ++ seqs.map (s.rebuilt n) } }

/-- The sequence number before the first one expected at a fresh start. -/
def State.freshSeq (s : State) (n : Nat) : Nat := (s.pair (A.CMD_SEQ_BASE n) + 2 ^ 64 - 1) % 2 ^ 64

/-- A command ledger starts fresh, with nothing outstanding (R417). -/
def State.freshCmd (s : State) (n : Nat) : State :=
  let q := s.freshSeq n
  let s : State := { s with ldg := { s.ldg with outst := s.ldg.outst.filter fun o => o.ledger != n } }
  (s.setReg (A.CMD_CONSUMED n) 0).setCursor n { producer := 0, disposed := q, accepted := q, final := q }

/-- Where the record of a ledger comes from: 1 retention, 2 the anchor, 3 a fresh start; `r` is its place among the retained
records (R417, R467). -/
def State.recordSource (s : State) (r : Nat) : Nat :=
  if s.flag F.MEM_RET_STAT_valid && !s.ldg.badRecords.contains r then 1 else if s.anchorValid then 2 else 3

/-- The record of a command ledger is restored (R417). -/
def State.restoreCmd (s : State) (n : Nat) : State :=
  match s.recordSource n with
  | 1 => s.setFld (F.CMD_CONSUMED_count n) (tabNat s.ldg.keptConsumed n)
  | 2 => s.cmdFromAnchor n
  | _ => (s.freshCmd n).tally .recoveryFresh (.ledger n)

/-- The record of a completion ledger is restored (R417). -/
def State.restoreCpl (s : State) (m : Nat) : State :=
  match s.recordSource (16 + m) with
  | 1 => s.setFld (F.CPL_PRODUCED_count m) (tabNat s.ldg.keptProduced m)
  | 2 => s.setFld (F.CPL_PRODUCED_count m) (memNat s.hostMem (s.pair A.LDG_ANCHOR + 0x240 + m * 8) 4)
  | _ => ((s.setReg (A.CPL_PRODUCED m) 0).setReg (A.CPL_CONSUMED m) 0).tally .recoveryFresh (.ledger (16 + m))

/-- The completion in slot c of ledger m is adopted when its phase matches and the records predict it (R417). -/
def State.adoptOne (s : State) (m : Nat) : Option State :=
  let c := s.fld (F.CPL_PRODUCED_count m)
  let size := s.fld (F.CPL_CFG_size m)
  let d := memBytes s.hostMem (s.pair (A.CPL_BASE m) + c % 2 ^ size * 64) 64
  let n := bytesAt d 11 1
  let seq := bytesAt d 0 8
  let kind := bytesAt d 10 1
  let cur := s.cursor n
  let here := n < 16 && s.flag (F.CMD_CFG_enable n) && s.fld (F.CMD_CFG_cpl n) == m &&
    bytesAt d 14 1 % 2 == phaseOf size c
  let next (s : State) : State := s.wrapFld (F.CPL_PRODUCED_count m)
  if !here then none
  else if (kind = 1 || kind = 2) && seq = cur.disposed + 1 then
    let s := (s.wrapFld (F.CMD_CONSUMED_count n)).setCursor n
      { cur with disposed := seq, accepted := if kind = 1 then seq else cur.accepted }
    some (next (if kind = 1 then { s with ldg := { s.ldg with outst := s.ldg.outst ++ [s.rebuilt n seq] } } else s))
  else if (kind = 3 || kind = 4) && (s.firstOutst n).any (fun o => o.seq == seq) then
    let s : State := { s with ldg := { s.ldg with
      outst := s.ldg.outst.filter fun o => !(o.ledger == n && o.seq == seq) } }
    some (next (s.setCursor n { cur with final := seq }))
  else none

/-- Adoption goes on until a descriptor does not match (R417). -/
def State.adopt : Nat → State → Nat → State
  | 0, s, _ => s
  | fuel + 1, s, m =>
    match s.adoptOne m with
    | some s' => State.adopt fuel s' m
    | none => s

/-- A command that the reset ended: its final completion is ABORTED with RESET (R417). -/
def State.abortOne (s : State) (o : Outst) : State :=
  let f : Final := { kind := 4, reason := Reason.reset.code, stamp := s.now, result := 0 }
  let m := s.fld (F.CMD_CFG_cpl o.ledger)
  if s.hostUp && s.flag (F.CPL_CFG_enable m) then (s.closed o).writeCompletion m (o.completion f)
  else
    { s with ldg := { s.ldg with outst := s.ldg.outst.map fun p =>
        if p = o then { p with begun := true, final := some f } else p } }

/-- Every command of ledger n without a posted final completion ends ABORTED with RESET, whatever the consumer counts say
(R417, R419); where host memory is out of reach they wait for it. Then its consumed count is its producer count (R419). An
ACCEPT that had not been posted is covered by the command's ABORTED (R418). -/
def State.abortAll (s : State) (n : Nat) : State :=
  let s := s.each (s.ldg.outst.filter fun o => o.ledger == n) State.abortOne
  s.setCursor n { s.cursor n with producer := s.fld (F.CMD_CONSUMED_count n) }

/-- The least trusted of the sources the restored ledgers used; with no ledger enabled, the one a ledger would have used
(R417, log 24). -/
def State.recoverySource (s : State) : Nat :=
  let used := s.enabledCmd.map s.recordSource ++ s.enabledCpl.map fun m => s.recordSource (16 + m)
  if used.isEmpty then s.recordSource 32 else used.foldl Nat.max 0

/-- The ledgers are restored as BOOT ends (R417). -/
def State.recoverLedgers (s : State) : State :=
  let source := s.recoverySource
  let recorded := s.enabledCpl.filter fun m => s.recordSource (16 + m) ≠ 3
  let s : State := if source = 2 then
      { s with ldg := { s.ldg with generation := memNat s.hostMem (s.pair A.LDG_ANCHOR + 4) 4 } }
    else s
  let s := (s.each s.enabledCmd State.restoreCmd).each s.enabledCpl State.restoreCpl
  let s := if s.hostUp then s.each recorded fun s m => State.adopt (2 ^ s.fld (F.CPL_CFG_size m)) s m else s
  let s := (s.each s.enabledCmd State.abortAll).each s.enabledCpl State.refreshFull
  let s := s.each (List.range 4) State.refreshTalFull
  let s : State := { s with ldg := { s.ldg with badRecords := [] } }
  let s := (s.setFld F.LDG_STAT_recovery source).setFlag F.LDG_STAT_ready true
  s.signalEvent.settle

/-- BOOT ends in CONFIGURE. What asked for DEGRADED in BOOT and still stands moves the cell on at once: a fault of the
safety region, a lost timing clock, or an open fault whose time has run out (R22, R24, R70, log 76). -/
def State.leaveBoot (s : State) : State :=
  let s := s.enterMode 2
  if s.flag F.SYS_FAULT_safety || s.flag F.SYS_FAULT_tclk_lost then s.escalate true
  else if s.faults.any OpenFault.escalated then s.escalate false
  else s

/-- BOOT_COMPLETE: after the last image the areas are written, the firmware starts, the cores begin at their idle
addresses, the ledgers are recovered and the cell enters CONFIGURE (R70, R446, R452). -/
def State.bootComplete (s : State) : State :=
  if s.bootState ≠ Boot.loading || s.cellMode ≠ 1 then s
  else
    let s := s.each s.sec.good fun s i => (s.writeArea i).showImage i
    let s : State := { s with sec := { s.sec with good := [] } }
    let s := (s.setFld F.SEC_BOOT_state Boot.done).each (List.range 12) State.coreIdle
    s.recoverLedgers.leaveBoot

/-! ## Loading in service (R454, R455) -/

/-- Executions of the held stalls still run (R454). -/
def State.heldRun (s : State) : Bool := (List.range 256).any fun n => n != 0 && s.stallHeld n && s.lawBusy n

/-- LOOP_AREA_WRITE: once the held executions have ended, the area is written into every core (R454). -/
def State.loopAreaWrite (s : State) : State :=
  match s.sec.job with
  | none => s
  | some j =>
    if j.written || s.heldRun then s
    else ({ s with sec := { s.sec with job := some { j with written := true } } } : State).writeArea j.image

/-- LOOP_AREA_READBACK: a core whose readback differs is quarantined; the held stalls go on, and a loop image's command
is DONE (R454). -/
def State.loopAreaReadback (s : State) (bad : Nat) : State :=
  match s.sec.job with
  | none => s
  | some j =>
    if !j.written || j.loaded then s
    else
      let s := s.each ((List.range 12).filter fun c => bad.testBit c) fun s c => s.quarantine c 0
      if j.image.kind = 2 then { s with sec := { s.sec with job := some { j with loaded := true } } }
      else
        let s : State := { s with sec := { s.sec with job := none } }
        ((s.showImage j.image).imageAccepted j.image).finishDone? j.cmd

/-- FIRMWARE_SWITCHED: the new firmware has taken over and goes on disposing (R455). -/
def State.firmwareSwitched (s : State) : State :=
  match s.sec.job with
  | none => s
  | some j =>
    if j.image.kind ≠ 2 || !j.loaded then s
    else
      let s : State := { s with sec := { s.sec with job := none } }
      let s := (s.showImage j.image).imageAccepted j.image
      (s.tally .firmwareSwitched .chip 0 j.image.revision).finishDone? j.cmd

/-- SERVICE_WATCHDOG: its expiry resets the device, 100 ms after an ACCEPT that no DONE has followed (R445, R455). The
supplies stand, so the always-on domain is kept. -/
def State.serviceWatchdog (s : State) : State :=
  let s := match s.sec.job with
    | some j => if j.image.kind = 2 then s.advanceTo ((j.since + 100000000) * nsUnit) else s
    | none => s
  s.deviceReset .serviceWatchdog true

/-! ## Supplies and clocks (R476 to R478) -/

/-- SAFETY_REGION_RESET_RELEASE (R476). -/
def State.safetyUp (s : State) : State := { s with pwr := { s.pwr with safetyUp := true } }

/-- ALWAYS_ON_SOURCE_SWITCH: VDDIO crosses 2.9 V (R477). -/
def State.sourceSwitch (s : State) (above : Bool) : State := s.setFlag F.MEM_RET_STAT_on_vbat (!above)

/-- TIMING_CLOCK_RETURN: a valid REFCLK returns and the PLLs lock again (R24, R478, log 25). -/
def State.timingClockReturn (s : State) : State :=
  if !s.tclkGone then s
  else
    let s : State := { s with tclkGone := false }
    if s.pwr.held then s
    else
      let s := ((s.setFlag F.PIN_CLK_ref_ok true).setFlag F.PIN_CLK_core_lock true).setFlag F.PIN_CLK_timing_lock true
      let s := s.setFaultBit 11 false
      if s.motionHalted then s else s.each (List.range 64) fun s n => s.restartSlice n true

end Sys2Proof.Machine
end

