-- ==== Sys2Proof/Machine/Secure.lean ====
section
/-!
DEFINITION. OTP, keys and rollback counters (R456, R457), provisioning (R458), the debug lock (R460), JTAG (R461) and
the memories: DRAM training and the scrubbers (R464 to R467, R469).
-/

namespace Sys2Proof.Machine

/-! ## Rollback counters (R456) -/

/-- The lowest revision among the loop images in force; none when no area holds one. -/
def State.lowestLoop (s : State) : Option Nat :=
  (s.sec.loaded.filter fun a => a ≤ 8).foldl (fun m a =>
    let r := (s.reg (A.SEC_LOOPREV a)).toNat
    match m with
    | none => some r
    | some k => some (Nat.min k r)) none

/-- The highest value a write may give the counter of a class; none when it may not rise (R456). -/
def State.rollbackLimit (s : State) (cls : Nat) : Option Nat :=
  match cls with
  | 0 => some (s.reg A.SEC_FWREV).toNat
  | 1 => s.lowestLoop
  | 2 => if s.imageOk then some (s.reg A.SAF_IMG_REV).toNat else none
  | _ => none

/-- ROLLBACK_ADVANCE: a write of SEC.ROLL_ADV (R456). -/
def State.rollbackAdvance (s : State) (cls value : Nat) (word : Nat := cls + value * 2 ^ 8) : State :=
  s.hostGate A.SEC_ROLL_ADV word fun s =>
    if s.cellMode ≠ 2 then s.discard .host A.SEC_ROLL_ADV .access word
    else
      match s.rollbackLimit cls with
      | none => s.discard .host A.SEC_ROLL_ADV .range word
      | some top =>
        if value ≤ s.rollback cls || value > top then s.discard .host A.SEC_ROLL_ADV .range word
        else (s.setFld ⟨A.SEC_ROLLBACK, 8 * cls, 8⟩ value).tally .rollbackAdvanced .chip cls value

/-! ## Keys (R457) -/

/-- A slot that no write may program or revoke: vendor slots and slots that do not exist (R449, R457). -/
def keySlotBad (k : Nat) : Bool := k < 2 || k > 11

/-- A write of 1 to KPROG.program that is discarded (R457). -/
def State.keyProgramBad (s : State) (k : Nat) : Bool :=
  s.cellMode != 2 || keySlotBad k || s.bitFld F.SEC_KEYSTAT_present k || s.flag F.SEC_KPROG_busy

/-- KEY_PROGRAM: a write of 1 to KPROG.program: the key is read from host memory and burned (R457). When its bytes cannot
be read nothing is burned and err is set (log 26). -/
def State.keyProgram (s : State) (word : Nat := s.fld F.SEC_KPROG_slot + 16) : State :=
  let k := s.fld F.SEC_KPROG_slot
  s.hostGate A.SEC_KPROG word fun s =>
    if s.keyProgramBad k then
      s.discard .host A.SEC_KPROG .access word
    else
      match if s.hostUp then s.readBuffer (s.pair A.SEC_KPROG_ADDR) 1952 else none with
      | none => s.raise F.SEC_KPROG_err
      | some key => ({ s with sec := { s.sec with burn := some (k, key) } } : State).setFlag F.SEC_KPROG_busy true

/-- KEY_PROGRAMMED: the slot has been burned and read back; a failed readback revokes it (R457). -/
def State.keyProgrammed (s : State) (same : Bool) : State :=
  match s.sec.burn with
  | none => s
  | some (k, key) =>
    let s : State := { s with sec := { s.sec with burn := none, keys := Tab.set (fun _ => []) s.sec.keys k key } }
    let s := (s.setFlag F.SEC_KPROG_busy false).setBitFld F.SEC_KEYSTAT_present k true
    if same then s.tally .keyProgrammed .chip k
    else ((s.raise F.SEC_KPROG_err).setBitFld F.SEC_KEYSTAT_revoked k true).tally .keyRevoked .chip k

/-- KEY_REVOKE: a write of 1 to KPROG.revoke revokes a programmed slot for good (R457). -/
def State.keyRevoke (s : State) (word : Nat := s.fld F.SEC_KPROG_slot + 32) : State :=
  let k := s.fld F.SEC_KPROG_slot
  s.hostGate A.SEC_KPROG word fun s =>
    if keySlotBad k then s.discard .host A.SEC_KPROG .access word
    else if s.bitFld F.SEC_KEYSTAT_present k && !s.bitFld F.SEC_KEYSTAT_revoked k then
      (s.setBitFld F.SEC_KEYSTAT_revoked k true).tally .keyRevoked .chip k
    else s

/-! ## Identity (R458) -/

/-- PROVISION: a write of 1 to SEC.PROV.provision starts the provisioning (R458). -/
def State.provision (s : State) (v : Nat := 8) : State :=
  s.hostGate A.SEC_PROV v fun s =>
    if s.cellMode ≠ 2 then s.discard .host A.SEC_PROV .access v
    else if s.flag F.SEC_PROV_provisioned || s.flag F.SEC_PROV_busy then s.discard .host A.SEC_PROV .state v
    else s.setFlag F.SEC_PROV_busy true

/-- PROVISIONED: the provisioning ends; the seed is the TRNG's, a free value (R458, log 2). -/
def State.provisioned (s : State) (healthy : Bool) : State :=
  if !s.flag F.SEC_PROV_busy then s
  else
    let s := s.setFlag F.SEC_PROV_busy false
    if !healthy then s.raise F.SEC_PROV_err
    else
      let draws := (List.range 4).map fun k => Config.freeValue (s.free + k)
      let seed := draws.flatMap fun v => toBytes 8 v.toNat
      let pub := Config.mlDsaPublic seed
      let s : State := { s with free := s.free + 4, sec := { s.sec with seed := seed } }
      let s := s.each (List.range 488) fun s k => s.setReg (A.SEC_IDPUB k) (BitVec.ofNat 32 (bytesAt pub (4 * k) 4))
      let s := (s.setFlag F.SEC_PROV_provisioned true).setFld F.SEC_DBG_state 0
      s.tally .provisioned .chip 0 0 (s.pair A.SEC_DEVID)

/-! ## Debug lock (R460) -/

/-- The challenge's 32 bytes. -/
def State.challenge (s : State) : List Byte := (List.range 8).flatMap fun k => toBytes 4 (s.reg (A.SEC_DBG_CHAL k)).toNat

/-- An unlock response is right: magic, device identifier, challenge and a debug key's signature (R460). -/
def State.responseOk (s : State) (bs : List Byte) : Bool :=
  bytesAt bs 0 4 == 0x4B4C4E55 && bytesAt bs 8 8 == s.pair A.SEC_DEVID && (bs.drop 16).take 32 == s.challenge &&
    s.signed KeyClass.debug bs

/-- DEBUG_UNLOCK: a write of 1 to SEC.DBG.unlock (R460). -/
def State.debugUnlock (s : State) (v : Nat := 16) : State :=
  s.hostGate A.SEC_DBG v fun s =>
    let m := s.cellMode
    if !(m = 2 || m = 3 || m = 7) || s.fld F.SEC_DBG_fails ≥ 8 || s.fld F.SEC_DBG_state = 1 then
      s.discard .host A.SEC_DBG .state v
    else
      let bs := (if s.hostUp then s.readBuffer (s.pair A.SEC_DBG_RESP) 3392 else none).getD []
      let slot := 10 + sigKeyIndex bs
      let s' := s.newChallenge
      if s.responseOk bs then
        let scope := bytesAt bs 48 1 % 4
        ((s'.setFld F.SEC_DBG_state 2).setFld F.SEC_DBG_scope scope).tally .debugUnlocked .chip scope slot
      else
        let s' := s'.countFld F.SEC_DBG_fails
        s'.tally .debugUnlockFailed .chip (s'.fld F.SEC_DBG_fails) slot

/-- DEBUG_RELOCK: a write of 1 to SEC.DBG.relock (R460). -/
def State.debugRelock (s : State) (v : Nat := 32) : State :=
  s.hostGate A.SEC_DBG v fun s =>
    if s.fld F.SEC_DBG_state = 2 then
      ((s.setFld F.SEC_DBG_state 0).setFld F.SEC_DBG_scope 0).tally .debugRelocked .chip
    else s

/-! ## The JTAG port (R461) -/

/-- The instructions of the JTAG port. -/
inductive JtagInstr where
  | idcode | bypass | sample | extest
  deriving DecidableEq, Repr

/-- The balls as the JTAG port treats them: those it may only sample, and the others. -/
inductive JtagBall where
  | sto | brake | actOut | other
  deriving DecidableEq, Repr

/-- JTAG is unlocked: its scope is in force, or the debug lock is OPEN. What holds while OPEN the rule does not say, and
the core debug of the same lock is taken as the guide (log 81). -/
def State.jtagOpen (s : State) : Bool :=
  s.fld F.SEC_DBG_state == 1 || (s.fld F.SEC_DBG_state == 2 && (s.fld F.SEC_DBG_scope).testBit 1)

/-- The port offers an instruction (R461). -/
def State.jtagOffers (s : State) : JtagInstr → Bool
  | .extest => s.jtagOpen && s.cellMode == 2
  | _ => true

/-- The port samples a ball under an instruction, and drives it (R461). -/
def State.jtagSamples (s : State) (i : JtagInstr) (_b : JtagBall) : Bool :=
  s.jtagOffers i && (i == .sample || i == .extest)

def State.jtagDrives (s : State) (i : JtagInstr) (b : JtagBall) : Bool :=
  s.jtagOffers i && i == .extest && b == .other

/-! ## Memories (R464 to R467, R469) -/

/-- MEM_START: a write of 1 to MEM.CTL.start, in BOOT or CONFIGURE (R464). -/
def State.memStart (s : State) (v : Nat := 1) : State :=
  if s.cellMode = 1 || s.cellMode = 2 then s.trainingStarts else s.discard .host A.MEM_CTL .state v

/-- Usable MiB of the DRAM: seven eighths of two channels of the ranks fitted (R465). -/
def State.usableMib (s : State) : Nat := 4 * (s.fld F.MEM_CFG_density + 1) * (s.fld F.MEM_CFG_ranks + 1) * 224

/-- TRAINING_DONE (R464). Training has the steps 1 to 4: no other fails. -/
def State.trainingDone (s : State) (failed : Option Nat) : State :=
  if !s.flag F.MEM_STAT_training || failed.any (fun k => k = 0 || k > 4) then s
  else
    let s := s.setFlag F.MEM_STAT_training false
    match failed with
    | some step => ((s.setFlag F.MEM_STAT_train_err true).setFld F.MEM_STAT_step step).setFld F.MEM_SIZE_mib 0
    | none => ((s.setFlag F.MEM_STAT_ready true).countFld F.MEM_STAT_trainings).setFld F.MEM_SIZE_mib s.usableMib

/-- RETRAIN: DQS oscillator compensation changes nothing that the block shows (R464). -/
def State.retrain (s : State) : State := s

/-- A word that the scrubber finds corrected is counted; a single-bit error in a local word stands there, and a core's read
corrects and counts it (R265, R465 to R467, log 88). -/
def State.scrubCorrected (s : State) (mem : ScrubMem) (a : Nat) : State :=
  match mem with
  | .sram => s.countFld F.MEM_SECC_corrected
  | .dram => s.countFld F.MEM_DECC_corrected
  | .retention => s.countFld F.MEM_RET_STAT_corrected
  | .localData c =>
    let w := localKey c.val (a / 4 * 4)
    { s with localSoft := if s.localSoft.contains w then s.localSoft else w :: s.localSoft }

/-- A word that the scrubber finds uncorrectable (R465 to R467). -/
def State.scrubBad (s : State) (mem : ScrubMem) (a : Nat) : State :=
  match mem with
  | .sram =>
    let w := a / 4 * 4
    let s : State := { s with sramBad := if s.sramBad.contains w then s.sramBad else w :: s.sramBad }
    (s.sramDetect w).countFld F.MEM_SECC_uncorr
  | .dram =>
    let l := a / 32
    let s : State := { s with dramBad := if s.dramBad.contains l then s.dramBad else l :: s.dramBad }
    (s.dramError a).dramActed a
  | .retention =>
    let s : State := if 0x20000 ≤ a && a < 0x21000 then
        { s with ldg := { s.ldg with badRecords := Config.retentionRecord (a / 4 * 4) :: s.ldg.badRecords } }
      else s
    s.tally .ecc (.region 2) 1 2 a
  | .localData c =>
    let w := localKey c.val (a / 4 * 4)
    let s : State := { s with localBad := if s.localBad.contains w then s.localBad else w :: s.localBad }
    s.tally .ecc (.region 0) 1 3 a

/-- The scrubber of a memory reads an address: within the memory, and in the DRAM only while it is in use and scrubbing is
not turned off (R465 to R467, R469). -/
def State.scrubs (s : State) (mem : ScrubMem) (a : Nat) : Bool :=
  match mem with
  | .sram => a < 2 ^ 23
  | .dram => s.fld F.MEM_CFG_scrub ≠ 0 && s.flag F.MEM_STAT_ready && a < s.fld F.MEM_SIZE_mib * 2 ^ 20
  | .retention => a < 2 ^ 18
  | .localData _ => a < 2 ^ 16

/-- SCRUB: the scrubber reads one word (R465, R466). -/
def State.scrub (s : State) (mem : ScrubMem) (a : Nat) (found : Option Bool) : State :=
  if !s.scrubs mem a then s
  else
    match found with
    | none => s
    | some bad => if bad then s.scrubBad mem a else s.scrubCorrected mem a

end Sys2Proof.Machine
end

