-- ==== Sys2Proof/Machine/EventsBoot.lean ====
section
/-!
DEFINITION. The commands of reset, boot, security, memory, clocks and supplies (R445 to R469, R475 to R478).
-/

namespace Sys2Proof.Machine

/-- BROWNOUT (R475). -/
def execBrownout (s : State) : Answer :=
  .next (s.brownout)

/-- DEVICE_RESET (R445). -/
def execDeviceReset (cause : ResetCause) (kept : Bool) (s : State) : Answer :=
  .next (s.resetEvent cause kept)

/-- BOOT_FETCH (R447). -/
def execBootFetch (ok : Bool) (s : State) : Answer :=
  .next (s.bootFetch ok)

/-- BOOT_VERIFY (R450). -/
def execBootVerify (s : State) : Answer :=
  .next (s.bootVerify)

/-- BOOT_COMPLETE (R446). -/
def execBootComplete (s : State) : Answer :=
  .next (s.bootComplete)

/-- BOOT_RETRY (R451). -/
def execBootRetry (s : State) : Answer :=
  .next (s.bootRetry)

/-- MEM_START (R464). -/
def execMemStart (s : State) : Answer :=
  .next (s.memStart)

/-- TRAINING_DONE (R464). -/
def execTrainingDone (failed : Option (BitVec 3)) (s : State) : Answer :=
  .next (s.trainingDone (failed.map BitVec.toNat))

/-- RETRAIN (R464). -/
def execRetrain (s : State) : Answer :=
  .next (s.retrain)

/-- SCRUB (R465, R466). -/
def execScrub (mem : ScrubMem) (addr : BitVec 33) (uncorrectable : Option Bool) (s : State) : Answer :=
  .next (s.scrub mem addr.toNat uncorrectable)

/-- LOOP_AREA_WRITE (R454). -/
def execLoopAreaWrite (s : State) : Answer :=
  .next (s.loopAreaWrite)

/-- LOOP_AREA_READBACK (R454). -/
def execLoopAreaReadback (bad : BitVec 12) (s : State) : Answer :=
  .next (s.loopAreaReadback bad.toNat)

/-- FIRMWARE_SWITCHED (R455). -/
def execFirmwareSwitched (s : State) : Answer :=
  .next (s.firmwareSwitched)

/-- SERVICE_WATCHDOG (R455). -/
def execServiceWatchdog (s : State) : Answer :=
  .next (s.serviceWatchdog)

/-- ROLLBACK_ADVANCE (R456). -/
def execRollbackAdvance (cls : BitVec 2) (value : BitVec 8) (s : State) : Answer :=
  .next (s.rollbackAdvance cls.toNat value.toNat)

/-- KEY_PROGRAM (R457). -/
def execKeyProgram (s : State) : Answer :=
  .next (s.keyProgram)

/-- KEY_PROGRAMMED (R457). -/
def execKeyProgrammed (same : Bool) (s : State) : Answer :=
  .next (s.keyProgrammed same)

/-- KEY_REVOKE (R457). -/
def execKeyRevoke (s : State) : Answer :=
  .next (s.keyRevoke)

/-- PROVISION (R458). -/
def execProvision (s : State) : Answer :=
  .next (s.provision)

/-- PROVISIONED (R458). -/
def execProvisioned (healthy : Bool) (s : State) : Answer :=
  .next (s.provisioned healthy)

/-- DEBUG_UNLOCK (R460). -/
def execDebugUnlock (s : State) : Answer :=
  .next (s.debugUnlock)

/-- DEBUG_RELOCK (R460). -/
def execDebugRelock (s : State) : Answer :=
  .next (s.debugRelock)

/-- TIMING_CLOCK_RETURN (R478). -/
def execTimingClockReturn (s : State) : Answer :=
  .next (s.timingClockReturn)

/-- RESET_RELEASE (R446). -/
def execResetRelease (s : State) : Answer :=
  .next (s.resetRelease)

/-- SAFETY_REGION_RESET_RELEASE (R476). -/
def execSafetyRegionResetRelease (s : State) : Answer :=
  .next (s.safetyUp)

/-- ALWAYS_ON_SOURCE_SWITCH (R477). -/
def execAlwaysOnSourceSwitch (vddioAbove : Bool) (s : State) : Answer :=
  .next (s.sourceSwitch vddioAbove)

/-- PCIE_FUNDAMENTAL_RESET (R394). -/
def execPcieFundamentalReset (s : State) : Answer :=
  .next (s.endpointReset)

end Sys2Proof.Machine
end

