-- ==== Sys2Proof/Machine/EventsHawker.lean ====
section
/-!
DEFINITION. The commands of the hawker: tokens, dispatch, deadlines, enable and arm, self-tests and counters (R237 to R260).
-/

namespace Sys2Proof.Machine

/-- A host write of ST[n].CFG's enable bit with the other fields as they stand (R12, R235, R237). -/
def State.stallEnable (s : State) (n : Nat) (on : Bool) : State :=
  let a := A.ST_CFG n
  let old := (s.reg a).toNat
  let v := setBitNat old 0 on
  s.hostGate a v fun s =>
    match findReg a with
    | none => s
    | some (r, is) =>
      match s.prepare r is old old old v with
      | .error why => s.discard .host a why v
      | .ok new => if new = old then s else (s.setReg a (BitVec.ofNat 32 new)).enableChanged n on

/-- A write of 1 to a CLR register of the hawker: the maximum values and counts it covers become 0 (R260). -/
def State.hawkerClr (s : State) (off : Nat) : State :=
  match findReg off with
  | none => s
  | some (r, is) =>
    let n := is.getD 0 0
    if r.addr = A.ST_CLR 0 then
      s.each [A.ST_WAIT_MAX n, A.ST_CNT1 n, A.ST_CNT2 n, A.ST_RUNS n] fun s a => s.setReg a 0
    else if r.addr = A.HWK_CLR then
      let s := (s.setReg A.HWK_STAT 0).each (List.range 16) fun s p => s.setFld (F.LVL_DEPTH_max p) 0
      s.each (List.range 12) fun s c => s.setFld (F.HC_BUSY_MAX_max c) 0
    else s

/-- COUNTER_CLR: the host writes 1 to a CLR register (R260). -/
def State.counterClr (s : State) (off : Nat) : State := s.hostGate off 1 fun s => s.hawkerClr off

/-- TOKEN (R241). -/
def execToken (s : State) : Answer :=
  .next (s.votesNow.tokenNext)

/-- DISPATCH (R243). -/
def execDispatch (s : State) : Answer :=
  .next (s.votesNow.dispatch)

/-- DEADLINE_MISS (R250). -/
def execDeadlineMiss (n : BitVec 8) (s : State) : Answer :=
  .next (s.deadlineMiss n.toNat)

/-- STALL_ENABLE (R237): a write of ST[n].CFG.enable. -/
def execStallEnable (n : BitVec 8) (on : Bool) (s : State) : Answer :=
  .next (s.votesNow.stallEnable n.toNat on)

/-- ARM (R237). -/
def execArm (n : BitVec 8) (s : State) : Answer :=
  .next (s.votesNow.arm n.toNat)

/-- CORE_SELFTEST (R257). -/
def execCoreSelftest (s : State) : Answer :=
  .next (s.coreSelftest)

/-- SELFTEST_END (R257, R258). -/
def execSelftestEnd (c : Fin 12) (pass : Bool) (s : State) : Answer :=
  .next (s.selftestEnd c.val pass)

/-- RETEST (R259). -/
def execRetest (c : Fin 12) (s : State) : Answer :=
  .next (s.retest c.val)

/-- COUNTER_CLR (R260). -/
def execCounterClr (off : BitVec 22) (s : State) : Answer :=
  .next (s.counterClr off.toNat)

end Sys2Proof.Machine
end

