-- ==== Sys2Proof/Machine/EventsHost.lean ====
section
/-!
DEFINITION. The commands of the host ledgers, their disposition and what happens at the rings (R393 to R425, R434).
-/

namespace Sys2Proof.Machine

/-- MODE_SET (R80, R402). -/
def execModeSet (h : CmdHead) (target : Byte) (id : BitVec 16) (epoch : BitVec 64) (s : State) : Answer :=
  .next (s.hostCommand h (.modeSet target id epoch))

/-- GROUP_SET (R77, R402). -/
def execGroupSet (h : CmdHead) (group state : Byte) (s : State) : Answer :=
  .next (s.hostCommand h (.groupSet group state))

/-- SEG_APPEND (R94, R402). -/
def execSegAppend (h : CmdHead) (group : Byte) (count : Word) (addr : BitVec 64) (len : Word) (s : State) : Answer :=
  .next (s.hostCommand h (.segAppend group count addr len))

/-- SEG_SKIP (R99, R402). -/
def execSegSkip (h : CmdHead) (group : Byte) (s : State) : Answer :=
  .next (s.hostCommand h (.segSkip group))

/-- SEG_FLUSH (R99, R402). -/
def execSegFlush (h : CmdHead) (group : Byte) (s : State) : Answer :=
  .next (s.hostCommand h (.segFlush group))

/-- PAYLOAD_SET (R119, R402). -/
def execPayloadSet (h : CmdHead) (group link : Byte) (mass : Word) (com : BitVec 96) (inertia : BitVec 192) (s : State) : Answer :=
  .next (s.hostCommand h (.payloadSet group link mass com inertia))

/-- COMPARE_ADD (R122, R402). -/
def execCompareAdd (h : CmdHead) (entry : BitVec 256) (s : State) : Answer :=
  .next (s.hostCommand h (.compareAdd entry))

/-- COMPARE_REMOVE (R125, R402). -/
def execCompareRemove (h : CmdHead) (tag : BitVec 16) (s : State) : Answer :=
  .next (s.hostCommand h (.compareRemove tag))

/-- LAW_PARAM (R213, R402). -/
def execLawParam (h : CmdHead) (stall : Byte) (offset length : BitVec 16) (addr : BitVec 64) (s : State) : Answer :=
  .next (s.hostCommand h (.lawParam stall offset length addr))

/-- SAFETY_LOAD (R333, R402). -/
def execSafetyLoad (h : CmdHead) (addr : BitVec 64) (len : Word) (s : State) : Answer :=
  .next (s.hostCommand h (.safetyLoad addr len))

/-- NOP_CMD (R402). -/
def execNopCmd (h : CmdHead) (s : State) : Answer :=
  .next (s.hostCommand h .nop)

/-- DL_INSERT (R251, R402). -/
def execDlInsert (h : CmdHead) (list dir stall slot : Byte) (data : Word) (key : BitVec 64) (s : State) : Answer :=
  .next (s.hostCommand h (.dlInsert list dir stall slot data key))

/-- DL_CANCEL (R252, R402). -/
def execDlCancel (h : CmdHead) (list stall slot : Byte) (s : State) : Answer :=
  .next (s.hostCommand h (.dlCancel list stall slot))

/-- STALL_TOKEN (R240, R402). -/
def execStallToken (h : CmdHead) (stall slot : Byte) (data : Word) (s : State) : Answer :=
  .next (s.hostCommand h (.stallToken stall slot data))

/-- COORD_STEP (R59, R402). -/
def execCoordStep (h : CmdHead) (coord : Byte) (delta : BitVec 64) (duration : Word) (s : State) : Answer :=
  .next (s.hostCommand h (.coordStep coord delta duration))

/-- OVERRIDE_SET (R52, R402). -/
def execOverrideSet (h : CmdHead) (coord : Byte) (factor : BitVec 16) (s : State) : Answer :=
  .next (s.hostCommand h (.overrideSet coord factor))

/-- IMAGE_LOAD with kind 1 (R453). -/
def execImageLoadLoop (h : CmdHead) (group : Byte) (addr : BitVec 64) (len : Word) (s : State) : Answer :=
  .next (s.hostCommand h (.imageLoad 1 group addr len))

/-- IMAGE_LOAD with kind 2 (R455). -/
def execImageLoadFirmware (h : CmdHead) (addr : BitVec 64) (len : Word) (s : State) : Answer :=
  .next (s.hostCommand h (.imageLoad 2 0 addr len))

/-- ATTEST (R459). -/
def execAttest (h : CmdHead) (addr : BitVec 64) (len : Word) (nonce : BitVec 256) (s : State) : Answer :=
  .next (s.hostCommand h (.attest addr len nonce))

/-- STATUS (R409). -/
def execStatus (h : CmdHead) (s : State) : Answer :=
  .next (s.hostCommand h .status)

/-- ABORT (R413). -/
def execAbort (h : CmdHead) (seq : BitVec 64) (s : State) : Answer :=
  .next (s.hostCommand h (.abort seq))

/-- DESCRIPTOR_FETCH (R403, R424). -/
def execDescriptorFetch (n : Fin 16) (ok : Bool) (s : State) : Answer :=
  .next (s.descriptorFetch n ok)

/-- IMAGE_VERIFIED (R450). -/
def execImageVerified (s : State) : Answer :=
  .next (s.imageVerified)

/-- MIRROR_CONFIRM_TIMEOUT (R384). -/
def execMirrorConfirmTimeout (n : Fin 16) (s : State) : Answer :=
  .next (s.mirrorTimeout n.val)

/-- DOORBELL (R397). -/
def execDoorbell (n : Fin 16) (count : Word) (s : State) : Answer :=
  .next (s.doorbellWrite n.val count.toNat)

/-- COMPLETION_DOORBELL (R398). -/
def execCompletionDoorbell (r : ConsumerRing) (count : Word) (s : State) : Answer :=
  .next (s.consumerWrite r count.toNat)

/-- LEDGER_FULL (R422). -/
def execLedgerFull (m : Fin 16) (s : State) : Answer :=
  .next (s.ledgerFull m.val)

/-- MODERATION_TIMEOUT (R425). -/
def execModerationTimeout (r : ConsumerRing) (s : State) : Answer :=
  .next (s.moderationTimeout r)

/-- LINK_STATE (R394). -/
def execLinkState (c : PcieSetup) (s : State) : Answer :=
  .next (s.pcieChange c)

/-- TALLY_TAKE (R434). -/
def execTallyTake (k : Fin 4) (s : State) : Answer :=
  .next (s.tallyTake k.val)

end Sys2Proof.Machine
end

