-- ==== Sys2Proof/Machine/Separation.lean ====
section
/-!
DEFINITION. SEPARATION_CYCLE: the image that takes effect, holdings, the position latch, standstill, kinematics, the
measurement of every active pair, factors, actions and publication (R67 to R69, R74, R299 to R303, R307 to R324, R331,
R333, R338).
-/

namespace Sys2Proof.Machine

/-! ## A new image (R333, R338) -/

/-- A connection starts over under a new image: LOST when the image names it, else OFF (R306, R338). -/
def State.connAfresh (s : State) (c : Nat) : State :=
  let s := (s.setReg (A.SCONN_FRAMES c) 0).setFld (F.SCONN_STAT_lost_cnt c) 0
  s.setConnState c (if (Tab.find? s.saf.image.conns c).isSome then 2 else 0)

/-- The counters of a group return to 0, and its STOP.time comes from the image (R338). -/
def State.groupAfresh (s : State) (g : Nat) : State :=
  let s := s.setReg (A.SG_CNT g) 0
  match Tab.find? s.saf.image.groups g with
  | some r => s.setFld (F.GRP_STOP_time g) r.stopTime
  | none => s

/-- Under a new image what a home has recorded of a pitch stands only where the pitch still has that home (R321). -/
def State.sameHome (s : State) (im : SafImage) (k : Nat) : Bool :=
  s.pitchHome k == ((Tab.find? im.pitches k).getD {}).home

/-- A waiting image takes effect, all at once (R333, R338). -/
def State.imageEffect (s : State) : State :=
  match s.saf.waiting with
  | none => s
  | some (im, cmd) =>
    let s := s.each (List.range 64) State.pitchFree
    let s : State := { s with saf := { s.saf with
      image := im, waiting := none, first := true, conn := [], releases := [], givenBack := [], pos := [], ref := [], refTold := [],
      ends := [], unsure := [], disagree := [], onset := [],
      remote := s.saf.remote.filter fun e => s.sameHome im e.1, gives := s.saf.gives.filter fun e => s.sameHome im e.1 } }
    let s := s.each ((List.range 64).filter fun k => !s.pitchLocal k) State.remoteShow
    let s := (s.setFld F.MODE_SEP_rate (if im.sep then 1 else 0)).setFlag F.SAF_STATUS_sep im.sep
    let s := (s.setFlag F.SAF_STATUS_image_ok true).setReg A.SAF_IMG_REV (BitVec.ofNat 32 im.revision)
    let s := s.each (List.range 8) fun s k => s.setReg (A.SAF_IMG_DIGEST k) (BitVec.ofNat 32 (bytesAt im.digest (4 * k) 4))
    let s := ((s.setReg A.SAF_CYCLES 0).setFld F.SAF_DISAGREE_count 0).each (List.range 8) State.groupAfresh
    let s := (s.each (List.range 16) State.connAfresh).each (List.range 16) State.inputJudge
    s.finishDone? cmd

/-! ## Holdings (R319) -/

/-- The releases that arrived before the boundary, of this device's groups and of other nodes'. -/
def State.applyReleases (s : State) : State :=
  let own := s.saf.releases
  let others := s.saf.givenBack
  let s : State := { s with saf := { s.saf with releases := [], givenBack := [] } }
  let s := s.each own fun s r =>
    if s.flag (F.SPITCH_W_held r.1) && s.fld (F.SPITCH_W_group r.1) == r.2 then s.pitchFree r.1 else s
  s.each others fun s r => if s.fld (F.SPITCH_W_node r.1) == r.2 then s.pitchFree r.1 else s

/-- The earlier of two requests: by time, then node, then group (R319). -/
def PitchReq.before (own : Nat) (a b : PitchReq) : Bool :=
  let node (r : PitchReq) : Nat := if r.node = 0 then own else r.node
  a.time < b.time || (a.time == b.time && (node a < node b || (node a == node b && a.group ≤ b.group)))

/-- A free pitch of this home goes to the earliest request that its mask allows. -/
def State.grantPitch (s : State) (k : Nat) : State :=
  match Tab.find? s.saf.image.pitches k with
  | none => s
  | some p =>
    if !s.pitchLocal k || s.flag (F.SPITCH_W_held k) || s.fld (F.SPITCH_W_node k) ≠ 0 then s
    else
      let own := s.fld F.LNK_CFG_node
      let first := ((s.pitchQueue k).filter fun r => p.groups.testBit r.group).foldl
        (fun (m : Option PitchReq) (r : PitchReq) => match m with
          | none => some r
          | some x => if x.before own r then some x else some r) none
      match first with
      | none => s
      | some r =>
        let s := s.setPitchQueue k ((s.pitchQueue k).erase r)
        let s := ((s.setFld (F.SPITCH_W_group k) r.group).setFlag (F.SPITCH_W_held k) (r.node == 0)).setFld
          (F.SPITCH_W_node k) r.node
        let s := s.setFlag (F.SPITCH_W_requested k) (s.pitchWaits k)
        s.tally .pitch (.safety (64 + k)) (s.reg (A.SPITCH_W k)).toNat

/-! ## Positions (R300, R303, R323) -/

/-- The slice of a joint of a group (R98). -/
def State.jointSlice (s : State) (g j : Nat) : Option Nat := (s.groupSlices g)[j]?

/-- The joints of a group in the image, in joint order. -/
def State.jointsOf (s : State) (g : Nat) : List SJoint :=
  (List.range 16).filterMap fun j => s.saf.image.joints.find? fun x => x.group == g && x.joint == j

/-- What the latch gives for a joint: its slice, POS now and at the last boundary, and whether it is uncertain. A joint
without a slice has no position and is uncertain. -/
structure Latch where
  joint : SJoint
  slice : Option Nat
  pos : Nat
  old : Option Nat
  unsure : Bool
  deriving DecidableEq, Repr

/-- The latch of one joint (R199, R303). -/
def State.latchJoint (s : State) (j : SJoint) : Latch :=
  match s.jointSlice j.group j.joint with
  | none => { joint := j, slice := none, pos := 0, old := none, unsure := true }
  | some n =>
    { joint := j, slice := some n, pos := s.fld (F.FB_POS_pos n), old := Tab.get (fun _ => none) s.saf.pos n,
      unsure := s.saf.first || s.flag (F.FB_FSTAT_hold n) || s.flag (F.FB_FSTAT_stale n) }

/-- Counts by which a position differs from another, modulo 2^32. -/
def countsMoved (a b : Nat) : Nat := (signedOf 32 (a + 2 ^ 32 - b)).natAbs

/-- A joint is at standstill (R323). -/
def Latch.still (l : Latch) : Bool :=
  match l.old with
  | some p => countsMoved l.pos p ≤ l.joint.still
  | none => false

/-- A joint jumped (R303). -/
def Latch.jumped (l : Latch) : Bool :=
  match l.old with
  | some p => countsMoved l.pos p > l.joint.jump
  | none => false

/-- All latches of a group. -/
def State.latches (s : State) (g : Nat) : List Latch := (s.jointsOf g).map s.latchJoint

/-- STO of a group by the safety region: it becomes OUT with reason SAFETY (R303, R317, R323). -/
def State.safetySto (s : State) (g cause : Nat) (pair : Nat := 0) : State := s.groupOut g GReason.safety cause pair

/-- The position checks of R303 on one joint. -/
def State.checkPosition (s : State) (g holdMax : Nat) (l : Latch) : State :=
  match l.slice with
  | none => s
  | some n =>
    let u := if l.unsure then Tab.get (fun _ => 0) s.saf.unsure n + 1 else 0
    let s : State := { s with saf := { s.saf with unsure := Tab.set (fun _ => 0) s.saf.unsure n u } }
    if u > holdMax || l.jumped then s.safetySto g Cause.position else s

/-- The standstill tests of HOLD and of DEGRADED on one joint (R74, R323). -/
def State.checkReference (s : State) (g : Nat) (l : Latch) : State :=
  match l.slice with
  | none => s
  | some n =>
    if s.groupState g = 2 then s
    else
      match Tab.get (fun _ => none) s.saf.ref n with
      | none => { s with saf := { s.saf with ref := Tab.set (fun _ => none) s.saf.ref n (some l.pos) } }
      | some p =>
        let moved := countsMoved l.pos p
        let out := moved > l.joint.still
        if s.groupState g = 1 then if out then s.safetySto g Cause.standstill else s
        else if s.cellMode = 7 then
          let told := Tab.get (fun _ => false) s.saf.refTold n
          let s : State := { s with saf := { s.saf with refTold := Tab.set (fun _ => false) s.saf.refTold n out } }
          if out && !told then s.tally .standstillDegraded (.slice n) 0 moved else s
        else s

/-- A group's latch at a boundary: position checks, standstill, references, and the end of a stop that has reached
standstill (R73, R303, R323). A group that becomes OUT here has its references from the next boundary on. -/
def State.latchGroup (s : State) (g : Nat) : State :=
  match Tab.find? s.saf.image.groups g with
  | none => (s.setFlag (F.SG_STAT_still g) true).setFlag (F.SG_STAT_uncertain g) false
  | some r =>
    let ls := s.latches g
    let before := s.groupState g
    let s := s.each ls fun s l => s.checkPosition g r.holdMax l
    let still := ls.all Latch.still
    let s := (s.setFlag (F.SG_STAT_still g) still).setFlag (F.SG_STAT_uncertain g) (ls.any (·.unsure))
    let s := s.each ls fun s l => if s.groupState g = before then s.checkReference g l else s
    let resting := still && match (s.grpOf g).stop with
      | some t => t.target == 0 || s.fld (F.MG_HFACT_h g) == 0
      | none => false
    let s := if resting then s.stopEnds g else s
    if s.limitModes.contains 4 && s.groupState g == 2 && !s.enabledIn g && (s.grpOf g).stop.isNone then
      s.protectiveStop g Cause.input 1
    else s

/-- The positions latched at this boundary are those of the last one at the next. -/
def State.keepPositions (s : State) : State :=
  let all := (List.range 8).flatMap fun g => s.latches g
  let pos := all.foldl (fun (t : Tab (Option Nat)) (l : Latch) => match l.slice with
    | some n => Tab.set (fun _ => none) t n (some l.pos)
    | none => t) []
  { s with saf := { s.saf with pos := pos } }

/-! ## Kinematics and speeds (R301, R302, R322) -/

/-- One capsule in the cell frame, as K1 and K2 give it, and its speed in 2^-32 mm/s. -/
structure CapView where
  num : Nat
  group : Nat
  one : Shape
  two : Shape
  speed : Nat
  /-- squares of the distances that the ends have moved by K1, in 2^-32 mm² -/
  movedP : Nat
  movedQ : Nat
  deriving DecidableEq, Repr

/-- Cycles in a second. -/
def State.cycleRate (s : State) : Nat := 1000000000 / s.sepCycle

/-- One capsule. Two free values say how the units round (log 2). -/
def State.capView (s : State) (num : Nat) (c : SCap) : State × CapView :=
  let g := (Tab.find? s.saf.image.groups c.group).getD {}
  let js := s.jointsOf c.group
  let ls := js.map s.latchJoint
  let pos (j : Nat) : Nat := ((ls.find? fun l => l.joint.joint == j).map (·.pos)).getD 0
  let fs := frames g.base pos js
  let f1 := s.freeVal.toNat
  let s := s.usedFree
  let f2 := s.freeVal.toNat
  let s := s.usedFree
  let p1 := roundPoint f1 0 (k1Point fs c.frame c.p)
  let q1 := roundPoint f1 3 (k1Point fs c.frame c.q)
  let p2 := roundPoint f2 0 (k2Point g.base js pos c.frame c.p)
  let q2 := roundPoint f2 3 (k2Point g.base js pos c.frame c.q)
  let (mp, mq) := match Tab.get (fun _ => none) s.saf.ends num with
    | some (p, q) => ((p1.sub p).norm2, (q1.sub q).norm2)
    | none => (0, 0)
  let unsure := s.flag (F.SG_STAT_uncertain c.group)
  let v := if unsure then g.vmax * 2 ^ 32 else rootCeil (Nat.max mp mq) 1 * s.cycleRate
  (s, { num := num, group := c.group, one := { kind := 1, p := p1, q := q1, radius := c.radius },
        two := { kind := 1, p := p2, q := q2, radius := c.radius }, speed := v, movedP := mp, movedQ := mq })

/-- All capsules of the image. -/
def State.capViews (s : State) : State × List CapView :=
  s.saf.image.caps.zipIdx.foldl (fun (a : State × List CapView) (e : SCap × Nat) =>
    let r := a.1.capView e.2 e.1
    (r.1, a.2 ++ [r.2])) (s, [])

/-- The speed of a group in 2^-32 mm/s (R302). -/
def groupSpeed (caps : List CapView) (g : Nat) : Nat :=
  (caps.filter fun c => c.group == g).foldl (fun m c => Nat.max m c.speed) 0

/-- The limit of a group's tool centre point, mm/s; none while no mode in force drives (R68, R69). -/
def State.tcpLimit (s : State) (r : SGroup) : Option Nat :=
  s.limitModes.foldl (fun (m : Option Nat) (mode : Nat) =>
    let v := if mode = 4 then 250 else if mode = 5 then r.vCollab else r.vProduce
    some (match m with
      | some x => Nat.min x v
      | none => v)) none

/-- An integer speed register: the rule names no rounding, so a bit of a free value says up or down. -/
def mmPerSecond (v : Nat) (up : Bool) : Nat := satCount 16 (v / 2 ^ 32 + if v % 2 ^ 32 ≠ 0 && up then 1 else 0)

/-- The square of the distance that a group's tool centre point has moved since the last cycle, in 2^-32 mm². -/
def SGroup.tcpMoved (r : SGroup) (caps : List CapView) : Nat :=
  match caps.find? fun c => c.num == r.tcpCap with
  | some c => if r.tcpEnd = 0 then c.movedP else c.movedQ
  | none => 0

/-- The tool centre point of a group is above the limit in force (R322). -/
def State.tcpOver (s : State) (caps : List CapView) (g : Nat) : Bool :=
  match Tab.find? s.saf.image.groups g with
  | none => false
  | some r =>
    match s.tcpLimit r with
    | none => false
    | some v => r.tcpMoved caps * (s.cycleRate * s.cycleRate) > v * v * 2 ^ 32

/-- VCAP and TCP of one group (R302, R322, R339). -/
def State.groupSpeeds (s : State) (caps : List CapView) (g : Nat) : State :=
  match Tab.find? s.saf.image.groups g with
  | none => (s.setFld (F.SG_VCAP_speed g) 0).setFld (F.SG_TCP_speed g) 0
  | some r =>
    let free := s.freeVal.toNat
    let s := s.usedFree
    let moved := r.tcpMoved caps
    let tcp := mmPerSecond (rootFloor moved 1 * s.cycleRate) (free.testBit 1)
    let s := (s.setFld (F.SG_VCAP_speed g) (mmPerSecond (groupSpeed caps g) (free.testBit 0))).setFld (F.SG_TCP_speed g) tcp
    s.setFld (F.SG_TCP_max g) (Nat.max (s.fld (F.SG_TCP_max g)) tcp)

/-! ## Pairs (R309 to R316) -/

/-- The measurement of one active entry. Distances in 2^-32 mm. -/
structure Measured where
  num : Nat
  pair : SPair
  groups : List Nat
  byG1 : Bool
  byG2 : Bool
  disagrees : Bool
  factor : Nat
  deriving DecidableEq, Repr

def Measured.violated (m : Measured) : Bool := m.byG1 || m.byG2

/-- The second member of an entry: its groups besides that of a, its shapes for G1 and G2, its thatch against group g;
none when the entry is not active (R315). -/
def State.otherMember (s : State) (caps : List CapView) (p : SPair) (ga : Nat) :
    Option (List Nat × Shape × Shape × Int) :=
  let rec' := (Tab.find? s.saf.image.groups ga).getD {}
  let drives := modeDrives s.cellMode
  match p.kind with
  | 1 =>
    match caps.find? fun c => c.num == p.b with
    | some c => some ([c.group], c.one, c.two, ((Tab.find? s.saf.image.groups c.group).getD {}).thatch c.speed)
    | none => none
  | 2 =>
    let v := s.slotView p.b
    let on := match v.cls with
      | .empty => false
      | .sensor => !drives || s.limitModes.contains 4 || s.limitModes.contains 5
      | .fixed => true
      | .intrusion => !drives || s.limitModes.contains 6
    if on then some ([], v.shape, v.shape, rec'.personThatch v.vh (groupSpeed caps ga) v.extra) else none
  | 3 =>
    match Tab.find? s.saf.image.pitches p.b with
    | some x => if drives && s.pitchHeldBy ga p.b then none else some ([], x.shape, x.shape, 0)
    | none => none
  | _ => none

/-- One entry measured by both engines; none when it is not active. -/
def State.measure (s : State) (caps : List CapView) (num : Nat) (p : SPair) : State × Option Measured :=
  match caps.find? fun c => c.num == p.a with
  | none => (s, none)
  | some a =>
    match s.otherMember caps p a.group with
    | none => (s, none)
    | some (gs, b1, b2, thb) =>
      let im := s.saf.image
      let d1 := g1Distance s.freeVal.toNat a.one b1
      let d2 := g2Distance im.eMax a.two b2
      let tol : Int := im.tol * 2 ^ 24
      let tha := ((Tab.find? im.groups a.group).getD {}).thatch a.speed
      let req := (tha + thb + p.margin * 2 ^ 12) * 2 ^ 16
      let slack := min d1 d2 - req
      (s.usedFree, some {
        num := num, pair := p, groups := a.group :: gs.filter (· != a.group), byG1 := decide (d1 < req),
        byG2 := decide (d2 < req),
        disagrees := decide (d1 - d2 < -tol) || decide (d1 - d2 > excessSum im.eMax a.two b2 + tol),
        factor := if slack < 0 then 0 else curveFactor (Tab.get (fun _ => []) im.curves p.curve) slack.toNat })

/-- All active entries, in entry order. -/
def State.measureAll (s : State) (caps : List CapView) : State × List Measured :=
  s.saf.image.pairs.foldl (fun (a : State × List Measured) (e : Nat × SPair) =>
    let r := a.1.measure caps e.1 e.2
    (r.1, match r.2 with
      | some m => a.2 ++ [m]
      | none => a.2)) (s, [])

/-- Disagreements are counted; three cycles in a row are a fault of the region (R298, R312). -/
def State.disagreements (s : State) (ms : List Measured) : State :=
  let bad := (ms.filter (·.disagrees)).map (·.num)
  let count (n : Nat) : Nat := Tab.get (fun _ => 0) s.saf.disagree n + 1
  let t := bad.foldl (fun (t : Tab Nat) (n : Nat) => Tab.set (fun _ => 0) t n (count n)) []
  let three := bad.any fun n => count n ≥ 3
  let s : State := { s with saf := { s.saf with disagree := t } }
  let s := s.each bad fun s n => (s.countFld F.SAF_DISAGREE_count).setFld F.SAF_DISAGREE_pair n
  if three then s.safetyFault 6 else s

/-! ## Factors and actions (R317, R318) -/

/-- The least factor among the active entries of a group, with its first entry; 1,024 when there is none. -/
def factorOf (ms : List Measured) (g : Nat) : Nat × Nat :=
  (ms.filter fun m => m.groups.contains g).foldl
    (fun (b : Nat × Nat) (m : Measured) => if m.factor < b.1 then (m.factor, m.num) else b) (1024, 0)

/-- The profile engine's report: the current segment uses a TIME or HOST coordinate, or the queue is not RUN (R318). -/
def State.scalable (s : State) (g : Nat) : Bool :=
  s.queueState g != Queue.run ||
    match (s.grpOf g).cur with
    | some t =>
      let src := s.coordSource t.seg.coord
      !(t.seg.kind == 3 && t.seg.ridge) && (src == 1 || src == 5)
    | none => false

/-- The action of the violated entries on a group, the most severe first (R317). -/
def pairAction (ms : List Measured) (g : Nat) : Option SafAct :=
  let mine := ms.filter fun m => m.violated && m.groups.contains g
  match mine.find? fun m => m.pair.act == 2 with
  | some m => some { group := g, sto := true, cause := Cause.pairSto, pair := m.num }
  | none => (mine.find? fun m => m.pair.act == 1).map fun m =>
      { group := g, sto := false, cause := Cause.pairPstop, pair := m.num }

/-- The onsets of the violations that stand, with each group's stopping time at the onset, in ns (R318). -/
def State.onsets (s : State) (caps : List CapView) (ms : List Measured) : State :=
  let stopNs (g : Nat) : Nat :=
    let (_, t, den) := ((Tab.find? s.saf.image.groups g).getD {}).stopping (groupSpeed caps g)
    (t * 1000 / den).toNat
  let t := (ms.filter (·.violated)).foldl (fun (t : Tab (Option (Nat × List (Nat × Nat)))) (m : Measured) =>
    let old := Tab.get (fun _ => none) s.saf.onset m.num
    Tab.set (fun _ => none) t m.num (some (old.getD (s.now, m.groups.map fun g => (g, stopNs g))))) []
  { s with saf := { s.saf with onset := t } }

/-- An entry violated for longer than the group's stopping time and one cycle, with the group not at standstill
(R318). -/
def State.lateScale (s : State) (g : Nat) : Option Nat :=
  let late := List.find? (fun (e : Nat × Option (Nat × List (Nat × Nat))) => match e.2 with
    | some (t, gs) => gs.any fun x => x.1 == g && s.now - t > x.2 + s.sepCycle
    | none => false) s.saf.onset
  if s.flag (F.SG_STAT_still g) then none else late.map (·.1)

/-- The action of this cycle on one group, while a mode drives, with the report of its profile engine at the boundary: the
most severe, and of several protective stops the first of these (R315, R317, R318, R322). The order among protective
stops is the model's (DESIGN CHOICE, log 89). -/
def State.actOn (s : State) (caps : List CapView) (ms : List Measured) (report : Bool) (g : Nat) : Option SafAct :=
  let stop (cause pair : Nat) : SafAct := { group := g, sto := false, cause := cause, pair := pair }
  if !modeDrives s.cellMode then none
  else
    match pairAction ms g with
    | some a => some a
    | none =>
      if s.groupState g = 0 then none
      else if s.tcpOver caps g then some (stop Cause.tcpSpeed 0)
      else if (factorOf ms g).1 < 1024 && !report then some (stop Cause.notScalable 0)
      else (s.lateScale g).map (stop Cause.scale)

/-! ## Publication (R331, R339) -/

/-- The violation list and its counts. -/
def State.listViolations (s : State) (ms : List Measured) : State :=
  let vs := ms.filter (·.violated)
  let s := (s.setFld F.SAF_VIOL_last vs.length).setFld F.SAF_VIOL_max (Nat.max (s.fld F.SAF_VIOL_max) vs.length)
  s.each (List.range 16) fun s i =>
    let w := match vs[i]? with
      | some m => m.num + 2 ^ 14 + (if m.byG1 then 2 ^ 15 else 0) + (if m.byG2 then 2 ^ 16 else 0)
      | none => 0
    s.setReg (A.SVLIST_W i) (BitVec.ofNat 32 w)

/-- The end of a cycle: publication ends within its stage, 137 to 139 us after t0 in S250 and 82 to 84 us in S125; the
count of safety clocks within it is free. The factors and the actions take effect then. -/
def State.cycleEnds (s : State) (caps : List CapView) (ms : List Measured) (acts : List SafAct) : State :=
  let t0 := s.now
  let base := if s.fld F.MODE_SEP_rate = 1 then 3280 else 5480
  let t := base + s.freeVal.toNat % 81
  let s := (s.usedFree.setFld F.SAF_TIMING_last t).setFld F.SAF_TIMING_max (Nat.max (s.fld F.SAF_TIMING_max) t)
  let ends := caps.foldl (fun (e : Tab (Option (Vec × Vec))) (c : CapView) =>
    Tab.set (fun _ => none) e c.num (some (c.one.p, c.one.q))) []
  let out : Publication := { at' := t0 + 25 * t, factors := (List.range 8).map (factorOf ms), acts := acts }
  let s : State := { s with saf := { s.saf with ends := ends, first := false, published := some out } }
  (s.wrapFld F.SAF_CYCLES_count).setFlag F.SAF_STATUS_running true

/-- One separation cycle at a boundary, with the image in force (R331). -/
def State.runCycle (s : State) : State :=
  let report := s.scalable
  let s := (s.applyReleases.each (List.range 64) State.grantPitch).each (List.range 8) State.latchGroup
  let r := s.capViews
  let caps := r.2
  let s := r.1.each (List.range 8) fun s g => s.groupSpeeds caps g
  let m := s.measureAll caps
  let ms := m.2
  let s := (m.1.disagreements ms).each (List.range 8) fun s g => s.setFlag (F.SG_STAT_scalable g) (report g)
  let s := s.onsets caps ms
  let acts := (List.range 8).filterMap fun g => s.actOn caps ms (report g) g
  ((s.listViolations ms).keepPositions).cycleEnds caps ms acts

/-- The safety clocks counted so far (R298). -/
def State.safetyClocks (s : State) : Int := s.clk.raw / (Domain.safety.unit : Int)

/-- The safety clocks since the last boundary lie within 1 % of a cycle length, or the region reports a fault of its own;
a boundary that did not come within two cycle lengths shows in the same count (R298). -/
def State.boundaryCheck (s : State) : State :=
  match s.saf.lastClocks with
  | none => s
  | some t =>
    let n := s.safetyClocks - t
    let len : Int := s.sepCycle / 25
    if 99 * len ≤ 100 * n && 100 * n ≤ 101 * len then s else s.safetyFault 1

/-- The next separation cycle boundary: now, when now is one that has not been carried out (R31). -/
def State.nextSepBoundary (s : State) : Nat :=
  if s.now % s.sepCycle = 0 && s.saf.last != some s.now then s.now else nextMultiple s.sepCycle s.now

/-- SEPARATION_CYCLE: cycles run only while the region is out of reset and an image is in force (R297, R331). -/
def State.separationCycle (s : State) : State :=
  if s.tclkGone || !s.pwr.safetyUp || !(s.imageOk || s.saf.waiting.isSome) then s
  else
    let t : Moment := s.nextSepBoundary * nsUnit
    let s := ((s.publishDue t).advanceTo t).boundaryCheck
    let s : State := { s with saf := { s.saf with last := some s.now, lastClocks := some s.safetyClocks } }
    let s := s.imageEffect
    if s.now % s.sepCycle = 0 then s.runCycle else s

end Sys2Proof.Machine
end

