-- ==== Sys2Proof/Machine/LinkState.lean ====
section
/-!
DEFINITION. Camyel Link without its frames: ports and probes, the schedule and its check, the node's states, and
synchronisation (R40, R42, R43, R340 to R347, R352, R353, R363 to R371).
-/

namespace Sys2Proof.Machine

/-! ## Ports -/

/-- The channel that a port serves: a branch node joins its channel B ports to channel A (R343). -/
def State.chanOfPort (s : State) (ch : Nat) : Nat := if s.flag F.LNK_CFG_branch then 0 else ch

/-- The ports of a channel, as (channel, port) of the LNK block (R343). -/
def State.portsOf (s : State) (ch : Nat) : List (Nat × Nat) :=
  if s.flag F.LNK_CFG_branch then (if ch = 0 then [(0, 0), (0, 1), (1, 0), (1, 1)] else []) else [(ch, 0), (ch, 1)]

def State.portUp (s : State) (ch p : Nat) : Bool := s.flag (F.PORT_STAT_up ch p)

def State.lport (s : State) (ch p : Nat) : LPort := Tab.get (fun _ => {}) s.lnk.port (ch * 2 + p)

def State.setLport (s : State) (ch p : Nat) (x : LPort) : State :=
  { s with lnk := { s.lnk with port := Tab.set (fun _ => {}) s.lnk.port (ch * 2 + p) x } }

def State.lchan (s : State) (ch : Nat) : LChan := Tab.get (fun _ => {}) s.lnk.chan ch

def State.setLchan (s : State) (ch : Nat) (x : LChan) : State :=
  { s with lnk := { s.lnk with chan := Tab.set (fun _ => {}) s.lnk.chan ch x } }

/-- Something goes out on a port from a moment on. -/
def State.transmit (s : State) (ch p : Nat) (start : Moment) (x : Sent) : State :=
  { s with lnk := { s.lnk with wire := s.lnk.wire ++ [{ ch := ch, port := p, start := start, sent := x }] } }

/-- This node is the break node of the channel's ring (R343). -/
def State.isBreak (s : State) (ch : Nat) : Bool := s.flag (F.CH_CFG_ring ch) && s.flag (F.CH_CFG_brk ch)

/-- An open break node forwards nothing between its ports (R346). -/
def State.openBreak (s : State) (ch : Nat) : Bool := s.isBreak ch && !s.flag (F.CH_STAT_closed ch)

/-- The break node closes the ring (R346). The record's detail is not stated: a free value. -/
def State.ringCloses (s : State) (ch : Nat) : State :=
  let s := s.setFlag (F.CH_STAT_closed ch) true
  s.usedFree.tally .ringClosed (.link (4 + ch)) s.freeVal.toNat

/-- PORT_UP (R342, R372). -/
def State.portRises (s : State) (ch p : Nat) : State :=
  if s.portUp ch p then s
  else ((s.setLport ch p {}).setFlag (F.PORT_STAT_up ch p) true).tally .portUpDown (.link (ch * 2 + p)) 1

/-- PORT_DOWN: the averages end, and the break node closes when the port is its own (R342, R346, R372). -/
def State.portFalls (s : State) (ch p : Nat) : State :=
  if !s.portUp ch p then s
  else
    let s := ((s.setLport ch p {}).setFlag (F.PORT_STAT_up ch p) false).setFlag (F.PORT_STAT_probe_ok ch p) false
    let s := (s.countFld (F.PORT_DOWN_downs ch p)).tally .portUpDown (.link (ch * 2 + p)) 0
    let c := s.chanOfPort ch
    if s.openBreak c then s.ringCloses c else s

/-- REOPEN: a write of 1 to CH[ch].CTL.reopen (R346). -/
def State.reopen (s : State) (ch : Nat) (v : Nat := 2) : State :=
  s.hostGate (A.CH_CTL ch) v fun s =>
    if (s.portsOf ch).all fun x => s.portUp x.1 x.2 then
      let s := s.setFlag (F.CH_STAT_closed ch) false
      s.setLchan ch { s.lchan ch with oneSided := 0 }
    else s.discard .host (A.CH_CTL ch) .state v

/-- The entry is a frame that a port sends at some moment from t0 up to, without, t1 (R341). -/
def Wire.occupies (w : Wire) (ch p : Nat) (t0 t1 : Moment) : Bool :=
  match w.sent with
  | .frame bs => w.ch == ch && w.port == p && !w.cut && w.start < t1 && t0 < w.start + (bs.length + 3) * 8 * nsUnit
  | _ => false

/-- The port sends a frame at some moment from t0 up to t1. -/
def State.portSends (s : State) (ch p : Nat) (t0 t1 : Moment) : Bool := s.lnk.wire.any fun w => w.occupies ch p t0 t1

/-- The moment of a port's next probe, 100 us after its last one. -/
def State.probeMoment (s : State) (ch p : Nat) : State :=
  match (s.lport ch p).lastProbe with
  | some t => s.advanceTo ((t + 100000) * nsUnit)
  | none => s

/-- PROBE: every 100 us a port sends a probe in idle time (R342). While it sends a frame there is none. -/
def State.probe (s : State) (ch p : Nat) : State :=
  if !s.portUp ch p then s
  else
    let s := s.probeMoment ch p
    if s.portSends ch p s.clk.time (s.clk.time + 1) then s else
    let s := s.setLport ch p { s.lport ch p with probing := true, lastProbe := some s.now }
    s.transmit ch p s.clk.time .probe

/-- PROBE_ANSWER: an echo 64 ns after a probe, unless a frame is being sent or starts within them; `clear`: none that
the port does not know of yet starts (R342). -/
def State.probeAnswer (s : State) (ch p : Nat) (clear : Bool) : State :=
  if s.portUp ch p && clear && !s.portSends ch p s.clk.time (s.clk.time + 64 * nsUnit) then s.transmit ch p (s.clk.time + 64 * nsUnit) .echo else s

/-- An exact quotient as an integer: where it is not one, the rule names no rounding, and a free bit says down or up.
-/
def State.roundFree (s : State) (num : Int) (den : Nat) : State × Int :=
  if den = 0 || num % den = 0 then (s, num / den)
  else (s.usedFree, num / den + if s.freeVal.toNat.testBit 0 then 1 else 0)

/-- ECHO: an answered probe enters the port's average of the last 16 (R342). -/
def State.echo (s : State) (ch p trip : Nat) : State :=
  let x := s.lport ch p
  if !s.portUp ch p || !x.probing then s
  else
    let d : Int := 5 * (trip : Int) - 2048
    let ds := (d :: x.delays).take 16
    let n := x.answered + 1
    let s := s.setLport ch p { x with probing := false, delays := ds, answered := n }
    let (s, d) := s.roundFree (ds.foldl (· + ·) 0) (16 * ds.length)
    (s.setFld (F.PORT_DELAY_d ch p) (unsignedOf 20 d)).setFlag (F.PORT_STAT_probe_ok ch p) (n ≥ 16)

/-! ## The schedule (R352, R353) -/

/-- A schedule entry. -/
structure SEntry where
  start : Nat
  len : Nat
  sender : Nat
  typ : Nat
  rx : Bool
  fresh : Bool
  token : Bool
  plen : Nat
  mcount : Nat
  mfirst : Nat
  stall : Nat
  slot : Nat
  deriving DecidableEq, Repr

def State.sentry (s : State) (ch n : Nat) : SEntry :=
  { start := s.fld (F.SCHED_START_start ch n), len := s.fld (F.SCHED_LEN_length ch n),
    sender := s.fld (F.SCHED_LEN_sender ch n), typ := s.fld (F.SCHED_KIND_type ch n),
    rx := s.flag (F.SCHED_KIND_rx ch n), fresh := s.flag (F.SCHED_KIND_fresh ch n),
    token := s.flag (F.SCHED_KIND_token ch n), plen := s.fld (F.SCHED_KIND_plen ch n),
    mcount := s.fld (F.SCHED_KIND_mcount ch n), mfirst := s.fld (F.SCHED_MAP_mfirst ch n),
    stall := s.fld (F.SCHED_MAP_stall ch n), slot := s.fld (F.SCHED_MAP_slot ch n) }

/-- The node's own ID (R372). -/
def State.node (s : State) : Nat := s.fld F.LNK_CFG_node

/-- The map entries of a schedule entry. -/
def SEntry.maps (e : SEntry) : List Nat := (List.range e.mcount).map (e.mfirst + ·)

/-- A map entry: point, offset and length in words (R360). -/
def State.mapEntry (s : State) (i : Nat) : Nat × Nat × Nat :=
  (s.fld (F.MAP_POINT_point i), s.fld (F.MAP_RANGE_offset i), s.fld (F.MAP_RANGE_len i))

/-- Check 6 of R353, with R360 and R441. -/
def State.mapOk (s : State) (e : SEntry) : Bool :=
  e.maps.all fun i =>
    let (p, off, len) := s.mapEntry i
    i < 8192 && off + len ≤ e.plen && len ≤ s.pointWords p &&
      (e.sender == s.node || !e.rx || s.pointKind p == Kind.link)

/-- Another entry of either channel names the sender of a SYNC entry: an earlier one of its own, or any of the other.
-/
def State.syncTwice (s : State) (ch n : Nat) (e : SEntry) : Bool :=
  let has (c k : Nat) : Bool := (s.sentry c k).typ == 2 && (s.sentry c k).sender == e.sender
  (List.range n).any (has ch) || (List.range (s.schedCount (1 - ch))).any (has (1 - ch))

/-- The first failing check of an entry, 0 for none (R353). -/
def State.entryError (s : State) (ch n : Nat) : Nat :=
  let e := s.sentry ch n
  let p := s.sentry ch (n - 1)
  let frame := (23 + 4 * e.plen) * 8
  if n > 0 && (e.start ≤ p.start || p.start + p.len > e.start) then 1
  else if n + 1 = s.schedCount ch && 5 * (e.start + e.len) > 2 * s.linkCycle then 2
  else if e.len < 200 || 5 * e.len < 2 * (2 * s.fld F.LNK_TIMING_eave + frame) then 3
  else if !((e.typ == 1 && e.plen ≤ 64 && e.mcount ≤ 32) || (e.typ == 2 && e.plen == 4 && e.mcount == 0) ||
      (e.typ == 3 && 15 ≤ e.plen && e.plen ≤ 63 && e.mcount == 0)) then 4
  else if e.sender = 0 || (e.typ == 3 && e.sender == s.node) || (e.typ == 2 && s.syncTwice ch n e) then 5
  else if !s.mapOk e then 6
  else 0

/-! ## States of the node (R367) -/

def LState.off : Nat := 0
def LState.listen : Nat := 1
def LState.coldstart : Nat := 2
def LState.integrate : Nat := 3
def LState.active : Nat := 4
def LState.mute : Nat := 5
def LState.master : Nat := 6

def State.linkState' (s : State) : Nat := s.fld F.LNK_STATE_state

/-- RT.STATUS.state that goes with a link state (R42, R43, R367). -/
def State.rtState (s : State) (st : Nat) : Nat :=
  match st with
  | 0 => 0
  | 1 => if s.lnk.synced then 3 else 0
  | 2 => 1
  | 4 => 2
  | 6 => 4
  | _ => if s.flag F.RT_STATUS_capture_fail then 3 else 1

/-- RT.STATUS follows the link's state, with its record; in FREE the rate correction is zero (R43, R436). -/
def State.rtFollow (s : State) : State :=
  let r := s.rtState s.linkState'
  if s.fld F.RT_STATUS_state = r then s
  else
    let s := s.setFld F.RT_STATUS_state r
    let s := if r = 0 then s.setFld F.RT_RATE_rate 0 else s
    s.tally .timeState .chip r

/-- Ridge time steps to the link's value once, before grid start (R40, R364). -/
def State.timeStep (s : State) : State :=
  if s.clk.stepped || s.flag F.RT_STATUS_grid then s
  else
    let old := s.now
    let t := ((s.clk.time : Int) + s.clk.tracked * nsUnit).toNat
    let s := s.withClock { s.clk with
      time := t, slewTotal := s.clk.slewTotal + ((t : Int) - s.clk.time), tracked := 0, stepped := true,
      lastTick := t / nsUnit }
    s.tally .timeStep .chip 0 old (s.now % 2 ^ 32)

/-- The node takes a state: its record, its counters, and what RT.STATUS shows (R366 to R370). In COLDSTART nothing of
a correction is applied any more (R364). -/
def State.setLink (s : State) (st : Nat) : State :=
  if s.linkState' = st then s
  else
    let s := s.setFld F.LNK_STATE_state st
    let s : State := { s with lnk := { s.lnk with
      short := 0, good := 0, heard := 0, rounds := 0, vals := [], sentSync := false, heardSync := false,
      listenFrom := if st = LState.listen || st = LState.coldstart then s.now else s.lnk.listenFrom,
      synced := s.lnk.synced || st == LState.active } }
    let s := if st = LState.active then s.timeStep else s
    let s := if st = LState.coldstart then
        { (s.countFld F.LNK_CNT2_coldstarts) with clk := { s.clk with tracked := 0, slewLeft := 0 } }
      else s
    let s := if st = LState.mute then (s.countFld F.LNK_CNT_mutes).tally .mute (.link 8) st
      else s.tally .linkStateChange (.link 8) st
    s.rtFollow

/-- Some channel is enabled with a checked schedule. -/
def State.anyChan (s : State) : Bool := s.chanOn 0 || s.chanOn 1

/-- OFF ends when a channel is enabled with a checked schedule, and begins when both are disabled or the node is 0;
MASTER stays (R367). -/
def State.linkRefresh (s : State) : State :=
  let st := s.linkState'
  let dead := s.node = 0 || !(s.flag F.LNK_CFG_ena_a || s.flag F.LNK_CFG_ena_b)
  if st = LState.master then s
  else if dead then s.setLink LState.off
  else if st = LState.off && s.anyChan then s.setLink LState.listen
  else s

/-- RT.CTRL.standalone has been written: MASTER at once, or out of it. Ridge time runs on with zero rate correction
(R43, R367). -/
def State.standaloneSet (s : State) : State :=
  let free (s : State) : State :=
    let s : State := { s with clk := { s.clk with slewLeft := 0, tracked := 0 } }
    s.setFld F.RT_RATE_rate 0
  if s.flag F.RT_CTRL_standalone then
    if s.linkState' = LState.master then s else (free s).setLink LState.master
  else if s.linkState' = LState.master then
    (free s).setLink (if s.node != 0 && s.anyChan then LState.listen else LState.off)
  else s

/-- SCHEDULE_COMMIT: a write of 1 to CH[ch].CTL.commit (R353, R372). -/
def State.scheduleCommit (s : State) (ch : Nat) (v : Nat := 1) : State :=
  s.hostGate (A.CH_CTL ch) v fun s =>
    let bad := (List.range (s.schedCount ch)).find? fun n => s.entryError ch n != 0
    let s := match bad with
      | none => ((s.setFlag (F.CH_STAT_sched_ok ch) true).setFld (F.CH_STAT_sched_err ch) 0).setFld (F.CH_STAT_err_kind ch) 0
      | some n =>
        let k := s.entryError ch n
        let s := ((s.setFlag (F.CH_STAT_sched_ok ch) false).setFld (F.CH_STAT_sched_err ch) n).setFld
          (F.CH_STAT_err_kind ch) k
        s.tally .commitFailed (.link (4 + ch)) k n
    s.linkRefresh

/-- The node has a SYNC batten of its own (R367). -/
def State.ownSync (s : State) : Bool :=
  [0, 1].any fun ch => s.chanOn ch && (List.range (s.schedCount ch)).any fun n =>
    (s.sentry ch n).typ == 2 && (s.sentry ch n).sender == s.node

/-- LISTEN_TIMEOUT: the listen timeout has run out (R367 to R369). A node that may not cold start waits again. -/
def State.listenTimeout (s : State) : State :=
  if s.linkState' ≠ LState.listen then s
  else
    let t := s.fld F.LNK_CS_listen * s.linkCycle + s.node * s.fld F.LNK_CS_step * 1000
    let s := s.advanceTo ((s.lnk.listenFrom + t) * nsUnit)
    if s.flag F.LNK_CFG_cs_en && s.ownSync then s.setLink LState.coldstart
    else { s with lnk := { s.lnk with listenFrom := s.now } }

/-- A collision: the node stops sending and listens again (R370). -/
def State.collision (s : State) : State := (s.countFld F.LNK_CNT_collisions).setLink LState.listen

/-! ## Synchronisation (R363, R364, R366) -/

/-- Insertion in rising order. -/
def insertInt (x : Int) : List Int → List Int
  | [] => [x]
  | y :: ys => if x ≤ y then x :: y :: ys else y :: insertInt x ys

/-- The mean of the values left when the kk least and the kk greatest are removed, in ns, truncated toward zero; the
values are in 1/32 ns. -/
def syncMean (k : Nat) (vals : List Int) : Int :=
  let kk := Nat.min k ((vals.length - 1) / 2)
  let sorted := vals.foldr insertInt []
  let kept := (sorted.drop kk).take (vals.length - 2 * kk)
  Int.tdiv (kept.foldl (· + ·) 0) (32 * kept.length)

/-- The link's time differs from ridge time by more than RT.CTRL.capture after grid start: a contained service fault,
once (R42). -/
def State.setCapture (s : State) (b : Bool) : State :=
  if s.flag F.RT_STATUS_capture_fail == b then s
  else
    let s := s.setFlag F.RT_STATUS_capture_fail b
    (if b then s.containedFault 2 1 0 else s).rtFollow

/-- An offset correction of c ns is requested: tracked before the step of R40, slewed after it (R39, R364). -/
def State.correct (s : State) (c : Int) : State :=
  let s := s.setFld F.RT_OFS_CORR_ofs (unsignedOf 32 (c * 1000))
  if s.flag F.RT_STATUS_grid then { s with clk := { s.clk with slewLeft := c * 2 ^ 32, tracked := 0 } }
  else if s.clk.stepped then { s with clk := { s.clk with slewLeft := c * 2 ^ 32 } }
  else { s with clk := { s.clk with tracked := s.clk.tracked + c } }

/-- What R363 found in a cycle: no correction, or c and whether it drifts. -/
inductive SyncResult where
  | short
  | value (c : Int) (drift : Bool)
  deriving DecidableEq, Repr

/-- The procedure of R363. After grid start an offset still tracked from before it is part of the correction (DESIGN
CHOICE, log 90), and one beyond RT.CTRL.capture is not applied (R42). -/
def State.syncProcedure (s : State) : State × SyncResult :=
  let st := s.linkState'
  let vals := s.lnk.vals ++ if s.lnk.sentSync then [0] else []
  let n := vals.length
  let s := s.setFld F.LNK_STATE_nvals (Nat.min n 15)
  if n = 0 || (st ≠ LState.integrate && n < s.fld F.LNK_SYNC_min) then
    ({ s with lnk := { s.lnk with short := s.lnk.short + 1, good := 0 } }, .short)
  else
    let s : State := { s with lnk := { s.lnk with short := 0 } }
    let m := syncMean (s.fld F.LNK_SYNC_k) vals
    let (s, part) := s.roundFree (m * 2 ^ 32) (4 * s.linkCycle)
    let r := s.ifld F.RT_RATE_rate - part
    let c := -m
    let drift := c.natAbs > s.fld F.LNK_SYNC_climit || r.natAbs * 1000000 > s.fld F.LNK_RLIMIT_ppm * 2 ^ 32
    let good := if c.natAbs ≤ s.fld F.LNK_TIMING_prec then s.lnk.good + 1 else 0
    let c' := if s.flag F.RT_STATUS_grid then c + s.clk.tracked else c
    let far := s.flag F.RT_STATUS_grid && c'.natAbs > s.fld F.RT_CTRL_capture * 1000
    let s := s.setCapture far
    let s := if far then s.setFld F.RT_OFS_CORR_ofs (unsignedOf 32 (c' * 1000))
      else (s.setFld F.RT_RATE_rate (unsignedOf 32 (clampInt (-858993) 858993 r))).correct c'
    ({ s with lnk := { s.lnk with good := good } }, .value c drift)

/-- The transitions at the end of a cycle of a node in INTEGRATE, ACTIVE or MUTE (R363, R366, R367). While the offset
lies beyond RT.CTRL.capture an ACTIVE node mutes as on drift, and no node becomes ACTIVE (R42, R367; log 84). -/
def State.syncEnd (s : State) : State :=
  let st := s.linkState'
  let (s, r) := s.syncProcedure
  let drift := match r with
    | .value _ d => d
    | .short => false
  if s.lnk.short ≥ s.fld F.LNK_SYNC_lose then s.setLink LState.listen
  else if st = LState.active then
    if drift || s.flag F.RT_STATUS_capture_fail then s.setLink LState.mute else s
  else if s.flag F.RT_STATUS_capture_fail then s
  else if s.lnk.good ≥ s.fld F.LNK_SYNC_integ then s.setLink LState.active
  else s

/-- The end of a cycle in COLDSTART (R369). A cycle in which the node entered the state is not one passed in it. -/
def State.coldEnd (s : State) : State :=
  let heard := if s.lnk.heardSync then s.lnk.heard + 1 else 0
  let whole := s.lnk.listenFrom + s.linkCycle ≤ s.now
  let s : State := { s with lnk := { s.lnk with rounds := s.lnk.rounds + (if whole then 1 else 0), heard := heard } }
  if s.lnk.rounds ≥ s.fld F.LNK_CS_rounds && heard ≥ s.fld F.LNK_SYNC_integ then s.setLink LState.active else s

/-- Synchronisation and state transitions at the end of a cycle (R363, R369). -/
def State.syncCycle (s : State) : State :=
  let st := s.linkState'
  let s := if st = LState.integrate || st = LState.active || st = LState.mute then s.syncEnd
    else if st = LState.coldstart then s.coldEnd
    else s
  { s with lnk := { s.lnk with vals := [], sentSync := false, heardSync := false } }

end Sys2Proof.Machine
end

