-- ==== Sys2Proof/Machine/Mirror.lean ====
section
/-!
DEFINITION. The mirror set and the confirm frame, the shadow engines that load a set, and the comparison of velocity
laws (R375, R376, R380 to R385, R387).
-/

namespace Sys2Proof.Machine

/-! ## Battens (R380) -/

/-- A channel B entry is a twin batten of a sender. -/
def State.twinEntryOk (s : State) (n sender plen : Nat) : Bool :=
  let e := s.sentry 1 n
  n < s.schedCount 1 && e.typ == 1 && e.plen == plen && e.mcount == 0 && !e.rx && e.sender == sender

/-- The conditions of R380 hold. -/
def State.twinBatOk (s : State) : Bool :=
  let peer := s.fld F.TWN_CFG_peer
  let range (first sender : Nat) : Bool := (List.range 20).all fun i => s.twinEntryOk (first + i) sender 64
  s.flag (F.CH_STAT_sched_ok 1) && range (s.fld F.TWN_BAT_own_mir) s.node && range (s.fld F.TWN_BAT_peer_mir) peer &&
    s.twinEntryOk (s.fld F.TWN_BAT2_own_conf) s.node 36 && s.twinEntryOk (s.fld F.TWN_BAT2_peer_conf) peer 36

/-- TWN.STAT.bat_err follows the configuration of a paired device (R380). -/
def State.twinBat (s : State) : State :=
  if s.fld F.TWN_STAT_role = 0 then s else s.setFlag F.TWN_STAT_bat_err (!s.twinBatOk)

/-- What a batten of the pair carries. -/
inductive TwinBatten where
  | mirror (i : Nat)
  | confirm
  deriving DecidableEq, Repr

/-- The twin batten that entry n of channel B is, own or of the peer; none while unpaired or misconfigured. -/
def State.twinBatten (s : State) (ch n : Nat) (own : Bool) : Option TwinBatten :=
  if ch ≠ 1 || s.fld F.TWN_STAT_role = 0 || s.flag F.TWN_STAT_bat_err then none
  else
    let first := if own then s.fld F.TWN_BAT_own_mir else s.fld F.TWN_BAT_peer_mir
    let conf := if own then s.fld F.TWN_BAT2_own_conf else s.fld F.TWN_BAT2_peer_conf
    if first ≤ n && n < first + 20 then some (.mirror (n - first)) else if n = conf then some .confirm else none

/-! ## Records of the active (R381, R382) -/

/-- Record r of a set. -/
def setRec (set : List Byte) (r : Nat) : List Byte := (set.drop (64 * r)).take 64

/-- Joints of a group whose VEL law is in SOFT or RUN, by joint index. -/
def State.velMask (s : State) (g : Nat) : Nat :=
  let ns := s.groupSlices g
  foldUpTo 16 (fun acc j =>
    match ns[j]? with
    | none => acc
    | some n =>
      match s.lawOf 2 n with
      | some k => if s.lawByte k 224 = 2 || s.lawByte k 224 = 3 then acc + 2 ^ j else acc
      | none => acc) 0

/-- The record of a group, taken at the snapshot instant. A shadow engine's is what it runs from, so that a device that
becomes ACTIVE within a cycle sends on what it has taken over (R376, R382). -/
def State.groupRec (s : State) (g : Nat) : List Byte :=
  let t := (s.grpOf g).cur
  let r := setRec s.twin.set (5 + g)
  let held := if s.isStandby then bytesAt r 32 8
    else foldUpTo 64 (fun acc k => if s.pitchHeldBy g k then acc + 2 ^ k else acc) 0
  let mask := if s.isStandby then bytesAt r 26 2 else s.velMask g
  toBytes 1 (if s.isStandby then Tab.get (fun _ => 0) s.twin.shadow g else s.groupState g) ++ toBytes 1 (s.queueState g) ++ toBytes 2 (s.fld (F.MG_CURSOR_slot g)) ++
    toBytes 4 (s.fld (F.MG_TAG_tag g)) ++ toBytes 8 (s.pair (A.MG_U g)) ++
    toBytes 8 (unsignedOf 64 ((t.map (·.kStart)).getD 0)) ++ toBytes 2 (s.fld (F.MG_HFACT_h g)) ++
    toBytes 2 mask ++ toBytes 4 0 ++ toBytes 8 held ++ toBytes 8 (s.clk.lastTick / 1000 * 1000) ++ toBytes 16 0

/-- The record of a slice; none while its snapshot run has not ended. A slice that no joint of the mask uses gives
zeros. -/
def State.sliceRec (s : State) (n : Nat) : Option (List Byte) :=
  let due := match s.sliceGroup n with
    | some g => s.groupState g != 0 && (s.velMask g).testBit ((s.groupSlices g).idxOf n)
    | none => false
  match Tab.get (fun _ => none) s.twin.snap n with
  | some x =>
    match x.out0 with
    | some v => some (toBytes 4 v ++ x.head ++ x.before)
    | none => if due then none else some (toBytes 64 0)
  | none => if due then none else some (toBytes 64 0)

/-- The cell record. A device that yields on request shows role STANDBY (R387). -/
def State.cellRec (s : State) : List Byte :=
  toBytes 1 s.cellMode ++ toBytes 1 (if s.twin.yielding then 2 else s.fld F.TWN_STAT_role) ++ toBytes 2 s.healthWord ++
    toBytes 4 0 ++ toBytes 8 (s.linkNow / s.linkCycle) ++ toBytes 8 s.tly.next ++ toBytes 4 s.lawTableCrc ++
    toBytes 4 s.digestHead ++ toBytes 8 s.twin.snapAt ++ toBytes 24 0

/-- A ledger record: last accepted and last completed sequence number of four ledgers. -/
def State.ledgerRec (s : State) (r : Nat) : List Byte :=
  (List.range 4).flatMap fun k =>
    let c := s.cursor (4 * (r - 1) + k)
    toBytes 8 c.accepted ++ toBytes 8 c.final

/-- Record r of the mirror set. -/
def State.mirrorRec (s : State) (r : Nat) : Option (List Byte) :=
  if r = 0 then some s.cellRec
  else if r < 5 then some (s.ledgerRec r)
  else if r < 13 then some ((s.twin.groupRecs.drop (64 * (r - 5))).take 64)
  else if r < 77 then s.sliceRec (r - 13)
  else some (toBytes 64 0)

/-- Frame i of the mirror set; none when a snapshot run has not ended (R382). -/
def State.mirrorFrame (s : State) (i : Nat) : Option (List Byte) := do
  let a ← s.mirrorRec (4 * i)
  let b ← s.mirrorRec (4 * i + 1)
  let c ← s.mirrorRec (4 * i + 2)
  let d ← s.mirrorRec (4 * i + 3)
  pure (padTo 64 a ++ padTo 64 b ++ padTo 64 c ++ padTo 64 d)

/-- The confirm frame (R383). -/
def State.confirmFrame (s : State) : List Byte :=
  toBytes 1 (s.fld F.TWN_STAT_role) ++ toBytes 1 (s.fld F.TWN_STAT_mismatch) ++ toBytes 2 s.healthWord ++ toBytes 4 0 ++
    toBytes 8 s.twin.setCycle ++ (List.range 16).flatMap fun n => toBytes 8 (tabNat s.ldg.validated n)

/-- The payload of an own twin batten at its read; none sends NULL (R380, R382). The active sends mirror sets, which are
accesses of class 4 of the interconnect (R26); a SYNCING or STANDBY device confirms. -/
def State.twinPayload (s : State) (b : TwinBatten) : State × Option (List Byte) :=
  match b with
  | .mirror i =>
    if s.fld F.TWN_STAT_role = 3 then (s.grantTo 4 (16 * 2 ^ 16), s.mirrorFrame i) else (s, none)
  | .confirm => (s, if s.isStandby then some s.confirmFrame else none)

/-- A twin frame has gone out: the health word that it carried, and the count of a confirm frame (R386). -/
def State.twinSent (s : State) (b : TwinBatten) (payload : List Byte) : State :=
  match b with
  | .mirror i =>
    if i = 0 then { s with twin := { s.twin with sentHealth := some (bytesAt payload 2 2) } } else s
  | .confirm =>
    { s with twin := { s.twin with sentHealth := some (bytesAt payload 2 2), sentCount := some (bytesAt payload 1 1) } }

/-- The snapshot of a new link cycle is taken at its start (R382). -/
def State.twinSnapshot (s : State) : State :=
  let recs := (List.range 8).flatMap s.groupRec
  let coords := (List.range 16).foldl (fun (t : Tab Int) (n : Nat) =>
    Tab.set (fun _ => 0) t n (s.coordOf n).shown) []
  { s with twin := { s.twin with snapAt := s.now, groupRecs := recs, coordAt := coords, snap := [], own := [] } }

/-! ## Decisions (R387, R389) -/

/-- A takeover is decided: T is the first multiple of 125 us at least 100 us later. The first decision stands. -/
def State.decide' (s : State) (cause : Nat) : State :=
  if s.twin.decision.isSome then s
  else
    { s with twin := { s.twin with
        decision := some (cause, (s.now + 100000 + 124999) / 125000 * 125000), decidedNow := true } }

/-! ## The comparison (R385) -/

/-- The joint speed that the own port of a slice gave at its first latch from the snapshot instant on, Q16.16 rev/s
(R204, R216; log 31), and T_o in ns doubled. -/
def State.ownSpeed (s : State) (n : Nat) : Int × Nat :=
  match s.lawOf 1 n with
  | none => (0, 1)
  | some k =>
    let r := s.lawRec k
    let word := ((Tab.get (fun _ => none) s.twin.own n).getD (s.reg (A.FB_SPEED n))).toInt
    let den : Nat := bytesAt r 32 4 * bytesAt r 96 4
    let v := if den = 0 then 0 else word * 2 ^ (24 + s.fld (F.FB_CFG_spd_shift n)) / den
    (sat32 v, Nat.max 1 (bytesAt r 3 1 * s.carrierCountsOf (n / 8) * 5))

/-- The recomputed i_ref of a slice differs from the mirrored out0 by more than the tolerance. -/
def State.velDiffers (s : State) (set : List Byte) (n : Nat) : Bool :=
  match s.lawOf 2 n with
  | none => true
  | some k =>
    let x := setRec set (13 + n)
    let f (off : Nat) : Int := signedOf 32 (bytesAt x off 4)
    let v := s.ownSpeed n
    let ref := velRef (s.lawRec k) (x.drop 16) (f 4) (f 8) v.1 v.2
    (ref - f 0).natAbs > s.fld F.TWN_TOL_tol

/-- The first slice of the comparison that differs. -/
def State.firstDiffering (s : State) (set : List Byte) : Option Nat :=
  (List.range 64).find? fun n =>
    match s.sliceGroup n with
    | none => false
    | some g =>
      let x := setRec set (5 + g)
      bytesAt x 0 1 != 0 && (bytesAt x 26 2).testBit ((s.groupSlices g).idxOf n) && s.velDiffers set n

/-! ## Loading a set (R376, R382) -/

/-- Joints that a segment moved stand at its targets once the active is past it. -/
def Grp.passed (x : Grp) (g : Seg) : Grp :=
  if g.kind ≠ 1 then x
  else (List.range 16).foldl (fun (x : Grp) (j : Nat) =>
    if g.joints.testBit j then
      let v := g.targets.getD j 0
      { x with targets := Tab.set (fun _ => none) x.targets j (some v), setp := Tab.set (fun _ => {}) x.setp j { pos := v } }
    else x) x

/-- The queue of a shadow engine drops the segments that the active's cursor has passed. -/
def State.shadowCursor (s : State) (g slot : Nat) : State :=
  let old := s.fld (F.MG_CURSOR_slot g)
  let gone := Nat.min (s.queued g) ((slot + s.ringSlots g - old) % s.ringSlots g)
  if gone = 0 then s.setFld (F.MG_CURSOR_slot g) slot
  else
    let x := (List.range gone).foldl (fun (x : Grp) (i : Nat) => x.passed (s.segAt g (old + i)).1) (s.grpOf g)
    let s := s.setGrp g { x with cur := none, next := none, fetched := [], chain := none, crossing := none }
    (s.setFld (F.MG_CURSOR_slot g) slot).setFld (F.MG_QCOUNT_count g) (s.queued g - gone)

/-- A shadow engine loads its group's record and advances it from its own coordinate (R102, R382). -/
def State.loadGroup (s : State) (set : List Byte) (g : Nat) : State :=
  let r := setRec set (5 + g)
  let q := bytesAt r 1 1
  let slot := bytesAt r 2 2
  let u := signedOf 64 (bytesAt r 8 8)
  let h := bytesAt r 24 2
  let s : State := { s with twin := { s.twin with shadow := Tab.set (fun _ => 0) s.twin.shadow g (bytesAt r 0 1) } }
  let s := ((s.shadowCursor g slot).setQueue g q).setFld (F.MG_TAG_tag g) (bytesAt r 4 4)
  let s := s.setFld (F.MG_HFACT_h g) h
  let x := s.grpOf g
  let own := (x.cur.map (·.slot)) == some slot
  let wants := s.queued g > 0 && (q = Queue.run || q = Queue.wait || q = Queue.stopping || (q != Queue.empty && (own || u ≠ 0)))
  let track : Option Track :=
    if !wants then none else if own then x.cur else s.makeTrack g slot (s.segAt g slot).1 0
  let cur := track.map fun t =>
    let moved := (s.coordOf t.seg.coord).shown - Tab.get (fun _ => 0) s.twin.coordAt t.seg.coord
    { t with kStart := signedOf 64 (bytesAt r 16 8), u := max 0 (u * 1024 + moved * h) }
  let resume := s.fld (F.MG_RAMP_resume g)
  let x := { s.grpOf g with
    cur := cur, next := if own then x.next else none
    ramp := if q = Queue.stopping then 1 else if h < 1024 && bytesAt r 0 1 = 2 then 2 else 0
    rampFrom := h, rampTick := if q = Queue.stopping then 0 else h * resume / 1024 }
  s.setGrp g x

/-- A standby takes the cell mode of the set whenever the conditions of R71 hold; leaving CONFIGURE starts its carrier
grid (R40, R376). -/
def State.followMode (s : State) (m : Nat) : State :=
  if m = s.cellMode || m < 2 || s.cellMode < 2 || s.configInvalid ≠ 0 then s
  else s.enterMode m

/-- What the active's ledger records end in the standby: commands that the active has completed, and dispositions it has
made (R384, R421). -/
def State.loadLedger (s : State) (set : List Byte) (n : Nat) : State :=
  let r := setRec set (1 + n / 4)
  let a := bytesAt r (16 * (n % 4)) 8
  let f := bytesAt r (16 * (n % 4) + 8) 8
  let s := s.setCursor n { s.cursor n with final := Nat.max f (s.cursor n).final }
  let role := Reason.twinRole.code
  { s with
    ldg := { s.ldg with outst := s.ldg.outst.filter fun o => !(o.ledger == n && o.seq ≤ f && o.begun) }
    twin := { s.twin with disps := s.twin.disps.filter fun d =>
      d.head.ledger.val != n || d.head.seq.toNat > a || (d.kind == 2 && d.reason == role && d.head.seq.toNat > f) } }

/-- The result of the comparison: the mismatch count of a STANDBY, and the sets that lead to STANDBY (R375, R385). -/
def State.judgeSet (s : State) (set : List Byte) : State :=
  let first := s.firstDiffering set
  let good := if first.isNone && !(s.healthWord.testBit 5) then s.twin.good + 1 else 0
  let s : State := { s with twin := { s.twin with good := good } }
  if s.fld F.TWN_STAT_role = 2 then
    match first with
    | none => s.setFld F.TWN_STAT_mismatch 0
    | some n =>
      (s.countFld F.TWN_STAT_mismatch).setFld F.TWN_STAT_slice n
  else if good ≥ s.fld F.TWN_CFG_resync && !s.flag F.TWN_STAT_bat_err then
    (s.setFld F.TWN_STAT_role 2).setFld F.TWN_STAT_mismatch 0
  else s

/-- A complete mirror set in a SYNCING or STANDBY device (R375, R376, R382, R385). -/
def State.applySet (s : State) (set : List Byte) (cycle : Nat) : State :=
  let s : State := { s with twin := { s.twin with set := set, setCycle := cycle, applied := true, loss := 0 } }
  let s := (s.each (List.range 16) fun s n => s.loadLedger set n).followMode (bytesAt set 0 1)
  let s := s.each (List.range 8) fun s g => s.loadGroup set g
  s.judgeSet set

/-- The cell record of the peer (R386, R387, R392). -/
def State.cellRecord (s : State) (r : List Byte) : State :=
  let health := bytesAt r 2 2
  let s : State := { s with twin := { s.twin with
    cellHealth := some health, peerRole := bytesAt r 1 1, peerTable := some (bytesAt r 24 4, bytesAt r 28 4) } }
  let s := s.setFld F.TWN_PEER_HEALTH_word health
  if s.fld F.TWN_STAT_role ≠ 2 then s
  else if bytesAt r 1 1 = 2 then s.decide' 4
  else if bytesAt r 0 1 = 7 && health.testBit 0 then s.decide' 5
  else s

/-- A mirror frame of the peer is accepted (R374, R382). -/
def State.mirrorAccept (s : State) (i cycle : Nat) (payload : List Byte) : State :=
  let s : State := { s with twin := { s.twin with heard := true } }
  if !s.isStandby then s
  else
    let s := if i = 0 then s.cellRecord payload else s
    let fs := Tab.insert s.twin.frames i (padTo 256 payload)
    let s : State := { s with twin := { s.twin with frames := fs } }
    if fs.length = 20 && !s.twin.applied then s.applySet (fs.flatMap (·.2)) cycle else s

/-- The peer's confirm frame is accepted (R383, R384). -/
def State.confirmAccept (s : State) (payload : List Byte) : State :=
  if s.fld F.TWN_STAT_role ≠ 3 then s
  else
    let health := bytesAt payload 2 2
    let confirmed := (List.range 16).foldl (fun (t : Tab Nat) (n : Nat) =>
      Tab.set (fun _ => 0) t n (bytesAt payload (16 + 8 * n) 8)) []
    let s : State := { s with twin := { s.twin with
      peerConf := some (bytesAt payload 1 1, health), peerRole := bytesAt payload 0 1, confirmed := confirmed } }
    (s.setFld F.TWN_PEER_HEALTH_word health).twinConfirmed

end Sys2Proof.Machine
end

