-- ==== Sys2Proof/Machine/Twin.lean ====
section
/-!
DEFINITION. Twin roles: pairing, start-up, arbitration, takeover and yield (R373 to R378, R384, R386 to R391, R421).
-/

namespace Sys2Proof.Machine

/-! ## Pairing and start-up (R373, R374) -/

/-- Every group is OUT with reason TWIN (R376, R390). -/
def State.twinHold (s : State) : State :=
  s.each (List.range 8) fun s g => (s.groupOut g GReason.twin Cause.request).setFld (F.GRP_STATUS_reason g) GReason.twin

/-- TWN.CFG has been written: a device becomes paired, or takes no part any more. OFFLINE ends only by device reset. -/
def State.twinConfigured (s : State) : State :=
  let role := s.fld F.TWN_STAT_role
  if s.flag F.TWN_CFG_enable then
    if role = 0 then (({ s with twin := { fbkAge := s.twin.fbkAge } } : State).setFld F.TWN_STAT_role 1).twinHold.twinBat
    else s.twinBat
  else if role = 0 || role = 4 then s
  else
    let s := ({ s with twin := { fbkAge := s.twin.fbkAge } } : State).setFld F.TWN_STAT_role 0
    (s.setFlag F.TWN_STAT_act_out false).setFlag F.TWN_STAT_bat_err false

/-! ## The ledgers at a takeover (R389, R421) -/

/-- The records of the shared ledgers that the device goes on from: the later of the anchor's and the last complete set's
(DEDUCED, log 33). -/
def State.takeCursors (s : State) : State :=
  let anchor := s.anchorValid
  let base := s.pair A.LDG_ANCHOR
  let s := if anchor then { s with ldg := { s.ldg with generation := memNat s.hostMem (base + 4) 4 } } else s
  let s := s.each s.enabledCmd fun s n =>
    let a := base + 0x40 + n * 0x20
    let anc (k : Nat) : Nat := if anchor then memNat s.hostMem (a + 8 * k) 8 else 0
    let r := setRec s.twin.set (1 + n / 4)
    let q := s.freshSeq n
    let floor' (v : Nat) : Nat := if s.twin.set.isEmpty && !anchor then q else v
    let accepted := floor' (Nat.max (anc 2) (bytesAt r (16 * (n % 4)) 8))
    let final := floor' (Nat.max (anc 3) (bytesAt r (16 * (n % 4) + 8) 8))
    s.setCursor n { s.cursor n with disposed := Nat.max (anc 1) accepted, accepted := accepted, final := final }
  if anchor then
    s.each s.enabledCpl fun s m => s.setFld (F.CPL_PRODUCED_count m) (memNat s.hostMem (base + 0x240 + m * 8) 4)
  else s

/-- The completion in the next slot of ledger m, adopted when its phase matches and the records predict it (R417,
R421). -/
def State.takeOne (s : State) (m : Nat) : Option State :=
  let c := s.fld (F.CPL_PRODUCED_count m)
  let size := s.fld (F.CPL_CFG_size m)
  let d := memBytes s.hostMem (s.pair (A.CPL_BASE m) + c % 2 ^ size * 64) 64
  let n := bytesAt d 11 1
  let seq := bytesAt d 0 8
  let kind := bytesAt d 10 1
  let cur := s.cursor n
  let here := n < 16 && s.flag (F.CMD_CFG_enable n) && s.fld (F.CMD_CFG_cpl n) == m && bytesAt d 14 1 % 2 == phaseOf size c
  let s := s.wrapFld (F.CPL_PRODUCED_count m)
  if !here then none
  else if (kind = 1 || kind = 2) && seq = cur.disposed + 1 then
    some (s.setCursor n { cur with disposed := seq, accepted := if kind = 1 then seq else cur.accepted })
  else if (kind = 3 || kind = 4) && cur.final < seq && seq ≤ cur.accepted then some (s.setCursor n { cur with final := seq })
  else none

def State.takeAdopt : Nat → State → Nat → State
  | 0, s, _ => s
  | fuel + 1, s, m =>
    match s.takeOne m with
    | some s' => State.takeAdopt fuel s' m
    | none => s

/-- A REJECT of a command stands in its completion ring. -/
def State.rejectStands (s : State) (n seq : Nat) : Bool :=
  let m := s.fld (F.CMD_CFG_cpl n)
  (List.range (2 ^ s.fld (F.CPL_CFG_size m))).any fun k =>
    let d := memBytes s.hostMem (s.pair (A.CPL_BASE m) + k * 64) 64
    bytesAt d 0 8 == seq && bytesAt d 11 1 == n && bytesAt d 10 1 == 2

/-- Commands that only the old active could execute and had accepted: each ends ABORTED, a MODE_SET with MODE_FAILED, a
GROUP_SET with SUPERSEDED (R390, R421). -/
def State.takeRoleCommands (s : State) (ds : List TwinDisp) : State :=
  s.each ds fun s d =>
    let n := d.head.ledger.val
    let seq := d.head.seq.toNat
    let c := s.cursor n
    match d.cmd with
    | none => s
    | some cmd =>
      if d.kind ≠ 2 || d.reason ≠ Reason.twinRole.code || seq ≤ c.final || c.accepted < seq || s.rejectStands n seq then s
      else
        let why := match cmd with
          | .modeSet .. => Reason.modeFailed
          | _ => Reason.superseded
        let o : Outst := { ledger := n, seq := seq, cmd := cmd, fence := d.head.fence, irq := d.head.irq, begun := true,
                           final := some { kind := 4, reason := why.code, stamp := s.now, result := 0 } }
        { s with ldg := { s.ldg with outst := insertOutst o s.ldg.outst } }

/-- MODE_SET commands whose change fails with the takeover (R390). -/
def State.failedChanges (s : State) : List (Nat × Nat) :=
  s.ldg.outst.filterMap fun o => match o.cmd, o.final with
    | .modeSet t id _, some f => if f.kind = 4 && f.reason = Reason.modeFailed.code then some (t.toNat, id.toNat) else none
    | _, _ => none

/-- A pending change of the old active fails: the more restrictive mode is taken (R83, R390). -/
def State.takeFailedChange (s : State) (target id : Nat) : State :=
  let m := stricter s.cellMode target
  let s := if m = s.cellMode then s else s.enterMode m
  let s := ((s.setFld F.MODE_CELL_target target).setFld F.MODE_CELL_change_id id).setFld F.MODE_LAST_outcome 2
  let s := if modeDrives m then s else s.modeStops (if m = 7 then GReason.degraded else GReason.mode) false
  (s.countFld F.MODE_LAST_fail_cnt).tally .changeFailed .chip target 0 id

/-- The shared ledgers continue from the anchor, the mirror and what is adopted (R389, R421). The model takes this step at
T itself (log 34). -/
def State.takeLedgers (s : State) : State :=
  let ds := s.twin.disps
  let s := s.takeCursors
  let s := if s.hostUp then s.each s.enabledCpl fun s m => State.takeAdopt (2 ^ s.fld (F.CPL_CFG_size m)) s m else s
  let s := s.takeRoleCommands ds
  let failed := s.failedChanges
  let s := s.each s.enabledCmd fun s n =>
    { s with ldg := { s.ldg with outst := s.ldg.outst.filter fun o => !(o.ledger == n && o.seq ≤ (s.cursor n).final) } }
  let s := s.each failed fun s f => s.takeFailedChange f.1 f.2
  s.ledgersGo

/-! ## The takeover (R389) -/

/-- The mirrored working state goes into the VEL and POS records of a slice. -/
def State.takeLaws (s : State) (n : Nat) : State :=
  let x := setRec s.twin.set (13 + n)
  let put (s : State) (k : Nat) (r : List Byte) : State :=
    s.sramWrite (0x7E0000 + k * 0x100 + 160) (((padTo 256 r).drop 160).take 64)
  let s := match s.lawOf 2 n with
    | some k => put s k (velWith (s.lawRec k) (x.drop 16))
    | none => s
  match s.lawOf 3 n with
  | some k => put s k (posWith (s.lawRec k) ((x.drop 12).take 4))
  | none => s

/-- The pitch holdings of a group's record (R320, R389). -/
def State.takePitches (s : State) (g held : Nat) : State :=
  s.each ((List.range 64).filter held.testBit) fun s k =>
    if s.pitchHeldBy g k then s
    else
      let s := (s.setFlag (F.SPITCH_W_held k) true).setFld (F.SPITCH_W_group k) g
      s.tally .pitch (.safety (64 + k)) (s.reg (A.SPITCH_W k)).toNat

/-- A stop that the old active was carrying out goes on to OUT (log 35). -/
def State.takeStop (s : State) (g : Nat) : State :=
  if s.queueState g ≠ Queue.stopping then s
  else
    let stop : Stop := { target := 0, reason := GReason.twin, deadline := s.now + s.fld (F.GRP_STOP_time g) * 1000 }
    (s.setGrp g { s.grpOf g with stop := some stop }).setFlag (F.GRP_STATUS_stopping g) true

/-- A condition that leaves a group OUT at a takeover: a tripped slice, an inhibited bank, or one of R330. -/
def State.takeHeld (s : State) (g : Nat) : Bool :=
  ((s.groupSlices g).any fun n => s.flag (F.OC_TRIP_latched n) || s.bitFld F.SYS_FAULT_bank_inh (n / 8)) || s.safetyHold g ||
    s.stoRemains g

/-- A group takes the state of its shadow engine (R76, R389). A fault of the group in the same clock is acted on, and it
stays OUT (R390). -/
def State.takeGroup (s : State) (g : Nat) : State :=
  let st := Tab.get (fun _ => 0) s.twin.shadow g
  let r := setRec s.twin.set (5 + g)
  if st = 0 || s.faultedNow g then s
  else if s.takeHeld g then s.setFld (F.GRP_STATUS_reason g) GReason.twin
  else
    let s := (s.stoRelease g).brakesRelease g
    let s := s.setFld (F.GRP_STATUS_state g) st
    let s := s.each (List.range 16) fun s j =>
      match (s.groupSlices g)[j]? with
      | some n => if (bytesAt r 26 2).testBit j then s.takeLaws n else s
      | none => s
    let s := ((s.takePitches g (bytesAt r 32 8)).takeStop g).forgetRefs g
    (s.groupRecord g).control g Ctl.takeover

/-- Both health words of a twin record (R436). -/
def State.twinRecord (s : State) (e : TEvent) (outcome cause own peer : Nat) : State :=
  s.tally e .chip (outcome + cause * 16) (own + peer * 2 ^ 16) (s.fld F.TWN_STAT_slice)

/-- TWN.LAST. -/
def State.twinLast (s : State) (outcome cause : Nat) : State :=
  (s.setFld F.TWN_LAST_outcome outcome).setFld F.TWN_LAST_cause cause

/-- The device drives: role ACTIVE and ACT_OUT high (R377). -/
def State.twinDrive (s : State) : State :=
  let s : State := { s with twin := { s.twin with
    decision := none, hostStop := false, riseAt := none, inhibited := 0, peerRole := 0, good := 0, loss := 0 } }
  (s.setFld F.TWN_STAT_role 3).setFlag F.TWN_STAT_act_out true

/-- Tally numbering goes on 4,096 past the mirrored number, with a record of the gap (R389). -/
def State.takeTally (s : State) (cause : Nat) : State :=
  let s : State := if s.twin.set.isEmpty then s
    else { s with tly := { s.tly with next := (bytesAt s.twin.set 16 8 + 4096) % 2 ^ 64 } }
  s.twinRecord .takeoverGap 2 cause s.healthWord (s.fld F.TWN_PEER_HEALTH_word)

/-- HANDOVER: the takeover at T. After ESCALATED every group stays OUT and the cell mode is STANDBY (R387, R389). -/
def State.handover (s : State) : State :=
  match s.twin.decision with
  | none => s
  | some (cause, t) =>
    if s.fld F.TWN_STAT_role ≠ 2 then { s with twin := { s.twin with decision := none } }
    else
      let s := (s.advanceTo (t * nsUnit)).twinDrive
      let s : State := { s with twin := { s.twin with driveFrom := some s.clk.time } }
      let s := ((s.countFld F.TWN_CNT_handovers).twinLast 2 cause).takeTally cause
      let m := if cause = 5 then 3 else bytesAt s.twin.set 0 1
      let s := if s.twin.set.isEmpty && cause ≠ 5 || m < 2 || m = s.cellMode then s else s.enterMode m
      let s := if cause = 5 then s.twinHold else s.each (List.range 8) State.takeGroup
      s.takeLedgers

/-! ## Start-up and requests (R374, R387) -/

/-- The link state and the battens let a SYNCING device start to drive, and the peer is silent (R374). -/
def State.mayStart (s : State) : Bool :=
  s.fld F.TWN_STAT_role == 1 && !s.flag F.TWN_STAT_bat_err && !s.flag F.TWN_STAT_act_in &&
    s.linkState' == LState.active && s.twin.quiet ≥ s.fld F.TWN_CFG_loss && !s.twin.heard

/-- TWIN_START: a PRIMARY device that hears no peer becomes ACTIVE. -/
def State.twinStart (s : State) : State :=
  if s.mayStart && !s.flag F.TWN_CFG_prefer then s.twinDrive.takeLedgers else s

/-- CLAIM: a write of 1 to TWN.CTL.claim. -/
def State.twinClaim (s : State) (v : Nat := 2) : State :=
  s.hostGate A.TWN_CTL v fun s =>
    if s.mayStart then (s.twinDrive.twinLast 2 6).takeLedgers else s.discard .host A.TWN_CTL .state v

/-- YIELD: a write of 1 to TWN.CTL.yield on the ACTIVE device of a pair whose peer is STANDBY. -/
def State.twinYield (s : State) (v : Nat := 1) : State :=
  s.hostGate A.TWN_CTL v fun s =>
    if s.fld F.TWN_STAT_role = 3 && s.twin.peerRole = 2 then { s with twin := { s.twin with yielding := true } }
    else s.discard .host A.TWN_CTL .state v

/-- MIRROR_LOSS: no complete set for TWN.CFG.loss link cycles, with the own health word healthy (R387). -/
def State.mirrorLoss (s : State) : State :=
  if s.fld F.TWN_STAT_role = 2 && s.twin.loss ≥ s.fld F.TWN_CFG_loss && healthy s.healthWord then s.decide' 3 else s

/-- The filter time of ACT_IN: 1 us (R377). -/
def actInFilter : Moment := 1000 * nsUnit

/-- An edge of ACT_IN that its glitch filter has passed. A new level passes once it has held for the filter time, so the
edge comes at least that time after the last one; a level that does not hold so long gives no edge (R377, log 54). -/
def State.actInEdge (s : State) (level : Bool) : State :=
  let s := match s.twin.actAt with
    | some t => s.advanceTo (t + actInFilter)
    | none => s
  { (s.setFlag F.TWN_STAT_act_in level) with twin := { s.twin with actAt := some s.clk.time } }

/-- ACT_IN_FALL: the filtered ACT_IN, which TWN.STAT.act_in shows, falls (R377, R387). -/
def State.actInFall (s : State) : State :=
  if !s.flag F.TWN_STAT_act_in then s else
  let s := s.actInEdge false
  if s.fld F.TWN_STAT_role = 2 && s.twin.peerRole = 3 then s.decide' 2 else s

/-- ACT_IN_RISE: the filtered ACT_IN rises, and an ACTIVE device yields (R377, R388, R390). -/
def State.actInRise (s : State) : State :=
  if s.flag F.TWN_STAT_act_in then s else
  let s := s.actInEdge true
  if s.fld F.TWN_STAT_role = 3 && s.twin.riseAt.isNone then
    { s with twin := { s.twin with riseAt := some s.clk.time, inhibited := 0, lastInh := s.clk.time, hostStop := true } }
  else s

/-- Every slice whose counter runs is inhibited (R390). -/
def State.allInhibited (s : State) : Bool :=
  (List.range 64).all fun n =>
    s.twin.inhibited.testBit n || (s.sliceOf n).held || (s.sliceOf n).frozen.isSome || s.tclkGone

/-- YIELD_COMPLETE: 2 us after the last slice is inhibited ACT_OUT falls and the groups are OUT (R390). A device that
yielded on request is STANDBY, one that lost an arbitration OFFLINE; after any other rise the spec names no role, and a free
value says SYNCING or OFFLINE (log 36). -/
def State.yieldComplete (s : State) : State :=
  if s.fld F.TWN_STAT_role ≠ 3 || s.twin.riseAt.isNone || !s.allInhibited then s
  else
    let s := s.advanceTo (s.twin.lastInh + 2000 * nsUnit)
    let x := s.twin
    let (s, role) : State × Nat :=
      if x.yielding then (s, 2) else if x.lost then (s, 4)
      else (s.usedFree, if s.freeVal.toNat.testBit 0 then 1 else 4)
    let s := (s.setFlag F.TWN_STAT_act_out false).setFld F.TWN_STAT_role role
    let s : State := { s with
      twin := { fbkAge := x.fbkAge, peerTable := x.peerTable, snapAt := x.snapAt, coordAt := x.coordAt,
                disps := x.disps } }
    (s.setFld F.TWN_STAT_mismatch 0).failChange.twinHold.twinConfirmed

/-! ## The end of a link cycle (R375, R382, R386) -/

/-- An arbitration on both health words; `active` says which device this is (R386, R388). -/
def State.arbitrate (s : State) (active : Bool) (own peer : Nat) : State :=
  let a := if active then healthy own else healthy peer
  let b := if active then healthy peer else healthy own
  let s : State := if s.twin.decidedNow then { s with twin := { s.twin with decision := none } } else s
  let done (s : State) (outcome : Nat) : State := (s.twinLast outcome 1).twinRecord .arbitration outcome 1 own peer
  if a && !b then
    if active then done s 1
    else done ((({ s with twin := { s.twin with decision := none } } : State)).setFld F.TWN_STAT_role 4) 4
  else if !a && b then
    if active then done { s with twin := { s.twin with lost := true } } 4
    else (s.twinRecord .arbitration 2 1 own peer).decide' 1
  else done (s.enterDegraded false) 3

/-- The twin's part of the end of a link cycle; the next snapshot is taken. Both devices arbitrate at the end of the cycle
in which a confirm frame carries the count 4 that the one before did not (R386). `active`: the link state was ACTIVE in
the cycle, which counts toward the start-up of R374 only then. -/
def State.twinCycleEnd (s : State) (active : Bool) : State :=
  let role := s.fld F.TWN_STAT_role
  if role = 0 then { s with twin := { s.twin with fbkAge := Nat.min 16 (s.twin.fbkAge + 1) } }
  else
    let x := s.twin
    let own := x.sentHealth.getD s.healthWord
    let count := if role = 3 then x.peerConf.map (·.1) else x.sentCount
    let s := if x.four || count != some 4 then s
      else if role = 3 then s.arbitrate true own ((x.peerConf.map (·.2)).getD 1)
      else if role = 2 then s.arbitrate false own (x.cellHealth.getD 1)
      else s
    let some' := 0 < x.frames.length && x.frames.length < 20
    let s := if s.isStandby && some' then s.countFld F.TWN_CNT_incomplete else s
    let s : State := { s with twin := { s.twin with
      frames := [], heard := false, peerConf := none, sentHealth := none, sentCount := none, cellHealth := none,
      applied := false, four := (count.map (· == 4)).getD x.four, decidedNow := false, loss := if x.applied then 0 else x.loss + 1,
      quiet := if x.heard || !active || s.linkState' ≠ LState.active then 0 else x.quiet + 1, fbkAge := Nat.min 16 (x.fbkAge + 1) } }
    s.twinSnapshot

end Sys2Proof.Machine
end

