-- ==== Sys2Proof/Machine/Link.lean ====
section
/-!
DEFINITION. Camyel Link frames: forwarding, acceptance, delivery, sending, missing battens and the end of a link cycle
(R57, R86, R87, R321, R341, R344 to R351, R354, R356 to R362, R368 to R371).
-/

namespace Sys2Proof.Machine

/-! ## Frames (R348 to R351) -/

/-- A frame as its header and payload give it. -/
structure LFrame where
  typ : Nat
  version : Nat
  hops : Nat
  source : Nat
  ch : Nat
  batten : Nat
  length : Nat
  cycle : Nat
  delay : Nat
  payload : List Byte
  /-- length and frame check sequence agree with the bytes -/
  fcsOk : Bool
  deriving DecidableEq, Repr

def FType.normal : Nat := 1
def FType.null : Nat := 2
def FType.sync : Nat := 3
def FType.safety : Nat := 4
def FType.startup : Nat := 5

/-- The header bytes that the frame check sequence covers: hops and delay taken as 0 (R349). -/
def fcsHeader (h : List Byte) : List Byte := h.take 1 ++ [0] ++ (h.drop 2).take 9 ++ [0, 0, 0]

/-- The header CRC of a frame's bytes is good. -/
def headerGood (bs : List Byte) : Bool := 16 ≤ bs.length && headerCrc (bs.take 14) == bytesAt bs 14 2

/-- A frame's fields. -/
def parseFrame (bs : List Byte) : LFrame :=
  let p := bytesAt bs 6 2
  let payload := (bs.drop 16).take p
  { typ := bytesAt bs 0 1 % 16, version := bytesAt bs 0 1 / 16, hops := bytesAt bs 1 1, source := bytesAt bs 2 2 % 4096,
    ch := bytesAt bs 2 2 / 4096 % 2, batten := bytesAt bs 4 2 % 4096, length := p, cycle := bytesAt bs 8 3,
    delay := bytesAt bs 11 3, payload := payload,
    fcsOk := bs.length == 20 + p && p % 4 == 0 && p ≤ 256 &&
      frameCheck (fcsHeader bs ++ payload) == bytesAt bs (16 + p) 4 }

/-- The bytes of a frame. -/
def frameBytes (typ source ch batten cycle : Nat) (payload : List Byte) : List Byte :=
  let h := toBytes 1 (typ + 16) ++ toBytes 1 0 ++ toBytes 2 (source + ch * 4096) ++ toBytes 2 batten ++
    toBytes 2 payload.length ++ toBytes 3 cycle ++ toBytes 3 0
  h ++ toBytes 2 (headerCrc h) ++ payload ++ toBytes 4 (frameCheck (fcsHeader h ++ payload))

/-- A forwarded frame: one hop more, the delay added, the header CRC anew (R345). -/
def forwardBytes (bs : List Byte) (added : Nat) : List Byte :=
  let h := bs.take 1 ++ toBytes 1 (bytesAt bs 1 1 + 1) ++ (bs.drop 2).take 9 ++ toBytes 3 (bytesAt bs 11 3 + added)
  h ++ toBytes 2 (headerCrc h) ++ bs.drop 16

/-! ## Deviation (R356, R363, R371), in 1/32 ns -/

/-- The sender's transmit instant of a frame by this node's link time: /S/ was seen `fine` sixteenths of a count after
now. -/
def State.transmitAt (s : State) (ch p fine : Nat) (f : LFrame) : Int :=
  (s.clk.time / 2 ^ 27 : Nat) + 5 * (fine : Int) + 32 * s.clk.tracked - 8 * ((f.delay : Int) + s.fld (F.PORT_DELAY_d ch p))

/-- The scheduled instant of a batten within its cycle. -/
def State.instantIn (s : State) (e : SEntry) : Int := 80 * (e.start : Int) + 32 * s.fld F.LNK_TIMING_eave

/-- The cycle in which a batten transmitted at t lies, and the deviation. -/
def State.deviation (s : State) (e : SEntry) (t : Int) : Int × Int :=
  let l : Int := 32 * (s.linkCycle : Int)
  let x := t - s.instantIn e
  let c := (x + l / 2) / l
  (c, x - c * l)

/-- The deviation lies within the acceptance window (check 3). -/
def State.inWindow (s : State) (d : Int) : Bool := d.natAbs ≤ 32 * s.fld F.LNK_TIMING_prec

/-! ## Forwarding (R344, R345) -/

/-- The entry in use that a frame names. -/
def State.frameEntry (s : State) (ch : Nat) (f : LFrame) : Option SEntry :=
  if f.batten < s.schedCount ch then some (s.sentry ch f.batten) else none

/-- The node lets a frame with a good header pass (R344). A channel without a checked schedule only repeats: it has no
window (R353). -/
def State.forwards (s : State) (ch : Nat) (f : LFrame) (t : Int) : Bool :=
  let st := s.linkState'
  let window := match s.frameEntry ch f with
    | some e => s.inWindow (s.deviation e t).2
    | none => false
  f.hops < 255 && !s.openBreak ch &&
    (!(st == LState.active || st == LState.master) || !s.flag (F.CH_STAT_sched_ok ch) || window)

/-- The other ports of the channel that are up (R344). -/
def State.otherPorts (s : State) (c ch p : Nat) : List (Nat × Nat) :=
  (s.portsOf c).filter fun x => x != (ch, p) && s.portUp x.1 x.2

/-- A frame goes out on the other ports that are up; its latency is 240 ns within 4 ns, and an error that shows after its
header is counted (R344, R345). -/
def State.forward (s : State) (c ch p fine : Nat) (bad : Bool) (bs : List Byte) (f : LFrame) : State :=
  let out := s.otherPorts c ch p
  let lat := 944 + s.freeVal.toNat % 33
  let s := s.usedFree.setFld (F.PORT_LAT_lat ch p) lat
  let added := lat + s.fld (F.PORT_DELAY_d ch p)
  let start := s.clk.time + 5 * fine * 2 ^ 27 + lat * 2 ^ 30
  let s := s.each out fun s x => s.transmit x.1 x.2 start (.frame (forwardBytes bs added))
  if f.fcsOk && !bad then s else s.countFld (F.CH_CNT_DUP_crc c)

/-! ## Delivery (R357, R360 to R362, R380) -/

/-- A BATTEN token with its outcome, sent at a moment (R361); `c` is the cycle. -/
def State.battenToken (s : State) (ch n : Nat) (e : SEntry) (c outcome : Nat) (at' : Moment) : State :=
  if e.token then
    let start := ((2 * c * s.linkCycle + 5 * e.start) / 2 : Nat)
    s.send e.stall e.slot (BitVec.ofNat 32 (n + ch * 2 ^ 12 + outcome * 2 ^ 13)) Src.batten (some start) false 0 none ch at'
  else s

/-- The record of a received point reaches the device function that reads it (R87, R321, log 29). -/
def State.pointUsed (s : State) (p sender : Nat) (bs : List Byte) : State :=
  match Config.pointRole p with
  | 1 =>
    if s.fld F.MODE_XCFG_peers = 0 || bs.length < 16 || bytesAt bs 0 1 ≠ s.fld F.MODE_XCFG_domain then s
    else
      let b := bytesAt bs 1 1
      s.peerRecord sender
        { mode := b % 8, target := b / 8 % 8, pendingChange := b.testBit 6, confirmed := b.testBit 7,
          id := bytesAt bs 2 2, epoch := bytesAt bs 8 8 }
  | 2 => s.requestRecord sender bs
  | 3 => s.holderRecord sender bs
  | _ => s

/-- A fresh record has arrived at a point: the device function that reads it reads the point (R87, R360, R439). -/
def State.pointArrives (s : State) (p sender : Nat) : State :=
  if Config.pointRole p = 0 then s
  else
    match s.pointRead s (.device sender) p Kind.device with
    | (s, .done) => s.pointUsed p sender (s.pointRecord p)
    | (s, _) => s

/-- The content of a link write of the same clock, put over that of an earlier batten's that came after it in the queue: ver
has counted both (R438). -/
def State.putOver (s : State) (e : FabPut) : State :=
  let o := s.pointOffset e.point
  (s.fabWrite (o + 16) (e.record.take (4 * s.pointWords e.point))).fabWrite (o + 8) (toBytes 8 e.stamp)

/-- A link write of a point: two that arrive together take effect in batten order (R438). -/
def State.linkPut (s : State) (e : FabPut) : State :=
  let same := s.fab.puts.filter fun x => sameClock .core x.at' e.at'
  let after := same.filter fun x => e.batten < x.batten
  let later := after.filter fun x => x.point == e.point
  let s := (s.pointPut e.point e.stamp e.record).pointArrives e.point e.sender
  let s := s.each later fun s x => (s.putOver x).pointArrives x.point x.sender
  { s with fab := { s.fab with puts := same.filter (fun x => x.batten ≤ e.batten) ++ [e] ++ after } }

/-- The mapped ranges of an accepted NORMAL frame are written to their points, with the batten start as stamp (R360). -/
def State.writeMapped (s : State) (e : SEntry) (n start : Nat) (payload : List Byte) : State :=
  let ranges := e.maps.map fun i =>
    let (p, off, len) := s.mapEntry i
    (p, ((padTo (4 * e.plen) payload).drop (4 * off)).take (4 * len))
  let live := ranges.filter fun r => s.pointKind r.1 == Kind.link
  s.each live fun s r =>
    s.linkPut { at' := s.clk.time, point := r.1, batten := n, sender := e.sender, stamp := start, record := r.2 }

/-- An accepted SAFETY frame goes to the connection of its node and ID (R362). -/
def State.safetyDeliver (s : State) (source : Nat) (payload : List Byte) : State :=
  match List.find? (fun (x : Nat × SConn) => x.2.node == source && x.2.conn == bytesAt payload 0 2) s.saf.image.conns with
  | some x => s.safetyFrame x.1 payload
  | none => s

/-- The moment at which a frame of P payload bytes ends whose /S/ goes by at a moment (R341). -/
def linkFrameEnd (start : Moment) (f : LFrame) : Moment := start + (23 + f.payload.length) * 8 * nsUnit

/-- An accepted frame reaches its users (R357, R360 to R362, R383); its token goes at its end (R361). -/
def State.deliver (s : State) (ch n : Nat) (e : SEntry) (c : Nat) (f : LFrame) (stop : Moment) : State :=
  let start := ((2 * c * s.linkCycle + 5 * e.start) / 2 : Nat)
  let x := s.lchan ch
  let s := s.setLchan ch { x with got := (c, n) :: x.got }
  if f.typ = FType.null then ((s.countFld (F.CH_CNT_RX_nulls ch)).battenToken ch n e c 1 stop)
  else
    let s :=
      if f.typ = FType.normal then
        let s := if e.rx then s.writeMapped e n start f.payload else s
        match s.twinBatten ch n false with
        | some (.mirror i) => s.mirrorAccept i c f.payload
        | some .confirm => s.confirmAccept f.payload
        | none => s
      else if f.typ = FType.safety then s.safetyDeliver f.source f.payload
      else s
    s.battenToken ch n e c 0 stop

/-! ## Acceptance (R356, R368 to R371) -/

/-- A SYNC or STARTUP frame carries this node's cycle exponent's instant and schedule identifier (check 2). -/
def State.syncIdent (s : State) (e : SEntry) (c : Int) (f : LFrame) : Bool :=
  let at' : Int := (c * 32 * s.linkCycle + s.instantIn e) / 32
  bytesAt f.payload 10 2 == s.fld F.LNK_SCHED_ID_id && decide ((bytesAt f.payload 0 8 : Int) = at')

/-- Check 2 of R356, with the cycle in which the frame's batten lies. -/
def State.frameIdent (s : State) (ch : Nat) (e : SEntry) (c : Int) (f : LFrame) : Bool :=
  let allowed := match e.typ with
    | 1 => f.typ == FType.normal || f.typ == FType.null
    | 2 => f.typ == FType.sync || f.typ == FType.startup
    | 3 => f.typ == FType.safety || f.typ == FType.null
    | _ => false
  f.version == 1 && f.source == e.sender && f.ch == ch && allowed && decide (c % 2 ^ 24 = f.cycle) &&
    (e.typ != 2 || s.syncIdent e c f)

/-- A batten of which a frame is discarded after it is known. -/
def State.discarded (s : State) (ch c n : Nat) : State :=
  let x := s.lchan ch
  s.setLchan ch { x with bad := (c, n) :: x.bad }

/-- An accepted sync frame gives its deviation (R363); a SYNC frame of another node ends a cold start (R369). -/
def State.syncAccept (s : State) (f : LFrame) (d : Int) : State :=
  if f.typ ≠ FType.sync && f.typ ≠ FType.startup then s
  else
    { s with lnk := { s.lnk with
        vals := s.lnk.vals ++ [d], heardSync := s.lnk.heardSync || f.typ == FType.sync } }

/-- The checks of a node in ACTIVE, MASTER, MUTE or COLDSTART, from the second on (R356). -/
def State.acceptFrame (s : State) (ch : Nat) (f : LFrame) (t : Int) (counted : Bool) (stop : Moment) :
    State :=
  match s.frameEntry ch f with
  | none => s.countFld (F.CH_CNT_WIN_ident ch)
  | some e =>
    let (c, d) := s.deviation e t
    let n := f.batten
    if !s.frameIdent ch e c f then s.countFld (F.CH_CNT_WIN_ident ch)
    else if !s.inWindow d then (s.countFld (F.CH_CNT_WIN_window ch)).discarded ch c.toNat n
    else if f.length > 4 * e.plen || !f.fcsOk then
      (if counted && !f.fcsOk then s else s.countFld (F.CH_CNT_DUP_crc ch)).discarded ch c.toNat n
    else if (s.lchan ch).got.contains (c.toNat, n) then s.countFld (F.CH_CNT_DUP_dup ch)
    else if s.linkState' = LState.master && f.typ = FType.startup then s
    else (s.syncAccept f d).deliver ch n e c.toNat f stop

/-- A sync frame that a node in INTEGRATE uses: its deviation is a value of the cycle, and its batten has its frame (R356,
R357, R361, R363). Of a frame that names no entry in use the payload's instant gives the deviation (log 90). -/
def State.joined (s : State) (ch : Nat) (f : LFrame) (t : Int) (stop : Moment) : State :=
  let value (d : Int) : State := { s with lnk := { s.lnk with vals := s.lnk.vals ++ [d] } }
  match s.frameEntry ch f with
  | none => value (t - 32 * (bytesAt f.payload 0 8 : Int))
  | some e =>
    let (c, d) := s.deviation e t
    if e.sender ≠ f.source || (s.lchan ch).got.contains (c.toNat, f.batten) then value d
    else (value d).deliver ch f.batten e c.toNat f stop

/-- A frame at a node in LISTEN or INTEGRATE: checks 1 and 4 apply to every frame, and only SYNC and STARTUP frames are used
(R356, R367). The frame that moves the node to INTEGRATE gives it the link's time and phase, before the grid has
started; after it ridge time is the link's time but for what R42 and R364 correct (R371). -/
def State.joinFrame (s : State) (ch : Nat) (f : LFrame) (t : Int) (counted : Bool) (stop : Moment) : State :=
  let sync := f.typ == FType.sync || f.typ == FType.startup
  let most := match s.frameEntry ch f with
    | some e => 4 * e.plen
    | none => if sync then 16 else 256
  if f.length > most || !f.fcsOk then if counted && !f.fcsOk then s else s.countFld (F.CH_CNT_DUP_crc ch)
  else if !sync then s
  else if s.linkState' = LState.integrate then s.joined ch f t stop
  else if bytesAt f.payload 10 2 ≠ s.fld F.LNK_SCHED_ID_id then s
  else
    let s := s.setLink LState.integrate
    if s.flag F.RT_STATUS_grid then s.joined ch f t stop
    else
      let whole := (t - 32 * (bytesAt f.payload 0 8 : Int)) / 32
      let s : State := { s with clk := { s.clk with tracked := s.clk.tracked - whole } }
      let s : State := { s with lnk := { s.lnk with cycle := s.linkNow / s.linkCycle } }
      s.joined ch f (t - 32 * whole) stop

/-- A frame with a good header reaches the node's checks. -/
def State.checkFrame (s : State) (c : Nat) (f : LFrame) (t : Int) (bad counted : Bool) (stop : Moment) : State :=
  let st := s.linkState'
  if st = LState.off || !s.chanOn c then s
  else if st = LState.listen || st = LState.integrate then if bad then s else s.joinFrame c f t counted stop
  else if st = LState.coldstart && (bad || f.typ = FType.startup) then s.collision
  else if bad then s
  else s.acceptFrame c f t counted stop

/-- FRAME_RECEIVE: a frame arrives on a port, with a number of invalid code groups in it (R344, R345, R356, R372). -/
def State.frameReceive (s : State) (ch p fine groups : Nat) (bs : List Byte) : State :=
  if !s.portUp ch p then s
  else
    let bad := groups != 0
    let c := s.chanOfPort ch
    let st := s.linkState'
    let checks := st != LState.off && s.chanOn c
    let good := headerGood bs
    let s := s.countFld (F.PORT_ERR_code ch p) groups
    let s := if checks && (bad || !good) then s.countFld (F.PORT_ERR_hdr ch p) else s
    if !good then if st = LState.coldstart && checks then s.collision else s
    else
      let f := parseFrame bs
      let s := if st = LState.listen then { s with lnk := { s.lnk with listenFrom := s.now } } else s
      if f.source = s.node && s.node ≠ 0 then
        let s := s.countFld F.LNK_CNT2_own_cnt
        if !s.flag (F.CH_CFG_ring c) || s.flag (F.CH_STAT_closed c) then
          s.usedFree.tally .ownFrame (.link (ch * 2 + p)) s.freeVal.toNat
        else s
      else
        let t := s.transmitAt ch p fine f
        let x := s.lchan c
        let port := (s.portsOf c).idxOf (ch, p)
        let ports := setBitNat (tabNat x.seen f.batten) port true
        let s := s.setLchan c { x with seen := Tab.set (fun _ => 0) x.seen f.batten ports }
        let on := s.forwards c f t && !(s.otherPorts c ch p).isEmpty
        let s := if on then s.forward c ch p fine bad bs f else s
        s.checkFrame c f t bad on (linkFrameEnd (s.clk.time + 5 * fine * 2 ^ 27) f)

/-! ## Sending (R347, R354, R358, R359) -/

/-- The cycle of the next instance of an own batten: the present cycle's, or the next one's once it was sent or its instant
has passed. -/
def State.nextInstance (s : State) (ch n : Nat) : Nat :=
  let c := s.linkNow / s.linkCycle
  let due : Int := (2 * (c * s.linkCycle + s.fld F.LNK_TIMING_eave) + 5 * (s.sentry ch n).start : Nat) * 2 ^ 31
  let passed := decide (due < s.clk.time + s.clk.tracked * nsUnit)
  if (s.lchan ch).got.contains (c, n) || passed then c + 1 else c

/-- What the record that map entry j of a batten has read adds to its payload: none when fresh is set and the point has not
been written since it was last sent (R359, R440). -/
def State.mapTakes (s : State) (ch n j : Nat) (e : SEntry) (ver : Nat) (record payload : List Byte) :
    State × Option (List Byte) :=
  let (p, off, len) := s.mapEntry (e.mfirst + j)
  let (s, fresh) := s.sees (.batten ch n j) p ver
  (s, if fresh || !e.fresh then some (overlay payload (4 * off) (record.take (4 * len))) else none)

/-- The payload that the mapped points give now, none when a read fails, and how many reads are being repeated (R359,
R439). -/
def State.readMapped (s : State) (ch n : Nat) (e : SEntry) : State × Option (List Byte) × Nat :=
  (List.range e.maps.length).foldl (fun (a : State × Option (List Byte) × Nat) (j : Nat) =>
    let (s, acc, waits) := a
    let p := (s.mapEntry (e.mfirst + j)).1
    match s.pointRead s (.batten ch n j) p Kind.link, acc with
    | (s, .done), some bs =>
      let r := s.mapTakes ch n j e (s.pointVer p) (s.pointRecord p) bs
      (r.1, r.2, waits)
    | (s, .done), none => ((s.sees (.batten ch n j) p (s.pointVer p)).1, none, waits)
    | (s, .failed), _ => (s, none, waits)
    | (s, .waits), acc => (s, acc, waits + 1)) (s, some (toBytes (4 * e.plen) 0), 0)

/-- A batten's payload is ready, or is not (R359). -/
def State.setReady (s : State) (ch n : Nat) (data : Option (List Byte)) : State :=
  let x := s.lchan ch
  s.setLchan ch { x with ready := Tab.set (fun _ => none) x.ready n data }

/-- A repeated read of map entry j has succeeded: with the last one, if it ended in time, the payload is ready (R359,
R439). -/
def State.mapRead (s : State) (ch n j : Nat) (r : FabRead) : State :=
  match s.fab.lead.find? fun l => l.ch == ch && l.n == n with
  | none => s
  | some l =>
    let others := s.fab.lead.filter fun x => !(x.ch == ch && x.n == n)
    match s.mapTakes ch n j (s.sentry ch n) r.ver r.record l.payload with
    | (s, some bs) =>
      if (r.at' : Int) > l.till then { s with fab := { s.fab with lead := others } }
      else if l.waits ≤ 1 then ({ s with fab := { s.fab with lead := others } } : State).setReady ch n (some bs)
      else { s with fab := { s.fab with lead := others ++ [{ l with payload := bs, waits := l.waits - 1 }] } }
    | (s, none) => { s with fab := { s.fab with lead := others } }

/-- The repeated reads that have ended, but for those of coordinates, which a tick takes (R439). -/
def State.readsEnd (s : State) : State :=
  let mine (r : FabReader) : Bool := match r with
    | .coord _ => false
    | _ => true
  s.triesEnd mine fun s t r =>
    match t.reader with
    | .coord _ => s
    | .batten ch n j => s.mapRead ch n j r
    | .host => s.windowTakes r
    | .device sender => s.pointUsed t.point sender r.record

/-- LEAD_READ: LNK.LEAD.lead us before the start of an own NORMAL batten its points are read; a read that does not end
1 us before the start leaves it not ready (R359). -/
def State.leadRead (s : State) (ch n : Nat) : State :=
  let e := s.sentry ch n
  if !s.chanOn ch || n ≥ s.schedCount ch || e.typ ≠ 1 || e.sender ≠ s.node || s.node = 0 then s
  else
    let c := s.nextInstance ch n
    let start : Int := (c * s.linkCycle * 2 + 5 * e.start : Nat) * 2 ^ 31 - s.clk.tracked * nsUnit
    let s := s.advanceTo (start - (s.fld F.LNK_LEAD_lead : Int) * 1000 * nsUnit).toNat
    let inTime := decide ((s.clk.time : Int) ≤ start - 1000 * nsUnit)
    let s : State := { s with fab := { s.fab with lead := s.fab.lead.filter fun l => !(l.ch == ch && l.n == n) } }
    match s.twinBatten ch n true with
    | some b =>
      let r := s.twinPayload b
      r.1.setReady ch n (if inTime then r.2 else none)
    | none =>
      let (s, data, waits) := s.readMapped ch n e
      if waits = 0 then s.setReady ch n (if inTime then data else none)
      else
        let s := s.setReady ch n none
        match data with
        | some bs =>
          { s with fab := { s.fab with
              lead := s.fab.lead ++ [{ ch := ch, n := n, payload := bs, waits := waits, till := start - 1000 * nsUnit }] } }
        | none => s

/-- What a node sends in an own batten: frame type and payload, and whether it stands for data that was not ready (R350,
R358, R359). -/
def State.ownFrame (s : State) (ch n : Nat) (e : SEntry) (instant : Nat) : Option (Nat × List Byte × Bool) :=
  let st := s.linkState'
  let sync := toBytes 8 instant ++ toBytes 1 st ++ toBytes 1 (s.fld F.LNK_CYCLE_n) ++ toBytes 2 (s.fld F.LNK_SCHED_ID_id) ++
    toBytes 4 0
  if st = LState.coldstart then if e.typ = 2 then some (FType.startup, sync, false) else none
  else if st ≠ LState.active && st ≠ LState.master then none
  else if e.typ = 2 then some (FType.sync, sync, false)
  else if e.typ = 1 then
    match Tab.get (fun _ => none) (s.lchan ch).ready n with
    | some bs => some (FType.normal, bs, false)
    | none =>
      let silent := match s.twinBatten ch n true with
        | some (.mirror _) => s.fld F.TWN_STAT_role != 3
        | some .confirm => !s.isStandby
        | none => false
      some (FType.null, [], !silent)
  else none

/-- Forwarded frames that a port is still sending at an instant are ended (R347). -/
def State.truncate (s : State) (ch port p : Nat) (at' : Moment) : State :=
  let hit (w : Wire) : Bool := match w.sent with
    | .frame bs =>
      w.ch == port && w.port == p && !w.cut && bytesAt bs 2 2 % 4096 != s.node && w.start ≤ at' &&
        at' < w.start + (bs.length + 3) * 8 * nsUnit
    | _ => false
  if s.lnk.wire.any hit then
    ({ s with lnk := { s.lnk with wire := s.lnk.wire.map fun w => if hit w then { w with cut := true } else w } } :
      State).countFld (F.CH_CNT_TX_trunc ch)
  else s

/-- BATTEN_SEND: at an own batten's start plus E the node sends its frame on every port of the channel that is up
(R354, R358, R361). -/
def State.battenSend (s : State) (ch n : Nat) : State :=
  let e := s.sentry ch n
  if !s.chanOn ch || n ≥ s.schedCount ch || e.sender ≠ s.node || s.node = 0 then s
  else
    let c := s.nextInstance ch n
    let start2 := 2 * (c * s.linkCycle + s.fld F.LNK_TIMING_eave) + 5 * e.start
    let at' := ((start2 * 2 ^ 31 : Nat) - s.clk.tracked * nsUnit : Int).toNat
    let s := (s.advanceTo at').readsEnd
    match s.ownFrame ch n e (start2 / 2) with
    | none => s
    | some (typ, payload, late) =>
      let bs := frameBytes typ s.node ch n (c % 2 ^ 24) payload
      let s := if late then s.countFld (F.CH_CNT_TX_notready ch) else s
      let s := s.each ((s.portsOf ch).filter fun x => s.portUp x.1 x.2) fun s x =>
        (s.truncate ch x.1 x.2 at').transmit x.1 x.2 at' (.frame bs)
      let x := s.lchan ch
      let s := s.setLchan ch { x with got := (c, n) :: x.got, ready := Tab.set (fun _ => none) x.ready n none }
      let s := if typ = FType.sync then { s with lnk := { s.lnk with sentSync := true } } else s
      let s := match s.twinBatten ch n true with
        | some b => if typ = FType.normal then s.twinSent b payload else s
        | none => s
      s.battenToken ch n e c (if typ = FType.null then 5 else 4) (at' + (23 + payload.length) * 8 * nsUnit)

/-! ## Missing battens (R357) -/

/-- MISSING: the end of a batten of another sender in which no frame was accepted (R357, R361). A frame that a node in
LISTEN or INTEGRATE does not use is not an accepted one (DEDUCED, log 90). -/
def State.missing (s : State) (ch n : Nat) : State :=
  let e := s.sentry ch n
  let c := s.linkNow / s.linkCycle
  let x := s.lchan ch
  if !s.chanOn ch || n ≥ s.schedCount ch || e.sender = s.node || x.got.contains (c, n) ||
      x.missed.contains (c, n) then s
  else
    let stop := ((c * s.linkCycle * 2 + 5 * (e.start + e.len) : Nat) * 2 ^ 31 - s.clk.tracked * nsUnit : Int)
    let s := (s.advanceTo stop.toNat).countFld (F.CH_CNT_RX_missing ch)
    let s := s.setLchan ch { x with
      missed := (c, n) :: x.missed, missing := Tab.set (fun _ => 0) x.missing e.sender (tabNat x.missing e.sender + 1) }
    s.battenToken ch n e c (if x.bad.contains (c, n) then 3 else 2) s.clk.time

/-! ## The end of a link cycle -/

/-- The break node watches for battens that arrive on one port only (R346). -/
def State.watchRing (s : State) (ch : Nat) : State :=
  let x := s.lchan ch
  let one := s.openBreak ch && x.seen.any fun e => e.2 == 1 || e.2 == 2
  let k := if one then x.oneSided + 1 else 0
  let s := s.setLchan ch { x with oneSided := k, seen := [] }
  if k ≥ 2 then s.ringCloses ch else s

/-- Ten or more missing battens of one sender give a record (R357); what belongs to past cycles is forgotten. -/
def State.closeChannel (s : State) (ch c : Nat) : State :=
  let x := s.lchan ch
  let s := s.each (x.missing.filter fun e => e.2 ≥ 10) fun s e => s.tally .missing (.link (4 + ch)) e.1 e.2
  let keep (l : List (Nat × Nat)) : List (Nat × Nat) := l.filter fun e => c ≤ e.1
  s.setLchan ch { s.lchan ch with missing := [], got := keep x.got, bad := keep x.bad, missed := keep x.missed }

/-- The mode-status record of this device (R86). A change that has succeeded counts as confirmed until the next one. -/
def State.modeStatus (s : State) : List Byte :=
  let pending := s.mode.change.isSome
  let confirmed := match s.mode.change with
    | some c => c.confirming && s.groupsConfirmed c.participants
    | none => s.fld F.MODE_LAST_outcome == 1
  toBytes 1 (s.fld F.MODE_XCFG_domain) ++
    toBytes 1 (s.cellMode + s.fld F.MODE_CELL_target * 8 + (if pending then 64 else 0) + (if confirmed then 128 else 0)) ++
    toBytes 2 (s.fld F.MODE_CELL_change_id) ++ toBytes 4 0 ++ toBytes 8 (s.pair A.MODE_EPOCH)

/-- The points that the device itself writes in every link cycle (R86, R321). -/
def State.publishCycle (s : State) : State :=
  let s := if s.fld F.MODE_XCFG_peers > 0 then s.devicePut (s.fld F.MODE_XPOINT_point) s.modeStatus else s
  let i := s.saf.image
  if !s.imageOk then s
  else
    let s := if i.pitchReq ≠ 0 then s.devicePut i.pitchReq s.ownRequests else s
    if i.pitchHold ≠ 0 then s.devicePut i.pitchHold s.ownHoldings else s

/-- What is counted in link cycles (R57, R87, R321, R384). -/
def State.ageCycle (s : State) : State :=
  let s := s.each (List.range 16) fun s n =>
    if s.coordSource n = 3 then s.setCoord n { s.coordOf n with stale := (s.coordOf n).stale + 1 } else s
  let s := s.expectPeers
  { s with
    mode := { s.mode with peers := s.mode.peers.map fun p => (p.1, { p.2 with age := p.2.age + 1 }) }
    saf := { s.saf with homeAge := (s.saf.homeAge.map fun e => (e.1, e.2 + 1)).filter fun e => e.2 < 4 }
    ldg := { s.ldg with twinWait := s.ldg.twinWait.map fun w => (w.1, w.2 + 1) } }

/-- LINK_CYCLE_END: the end of a channel A cycle (R363, R386). -/
def State.linkCycleEnd (s : State) : State :=
  let now := s.linkNow / s.linkCycle
  let c := if s.lnk.cycle < now then now else now + 1
  let stop : Int := (c * s.linkCycle * nsUnit : Nat) - s.clk.tracked * nsUnit
  let s := s.advanceTo stop.toNat
  let s := (s.watchRing 0).watchRing 1
  let active := s.linkState' == LState.active
  let s := ((s.closeChannel 0 c).closeChannel 1 c).syncCycle
  let s := ((s.ageCycle).publishCycle).twinCycleEnd active
  { s with lnk := { s.lnk with cycle := s.linkNow / s.linkCycle } }

end Sys2Proof.Machine
end

