-- ==== Sys2Proof/Machine/HostRegs.lean ====
section
/-!
DEFINITION. Host register accesses: widths, pairs and holding copies (R7, R8), routing by block, and what an applied
write does besides storing its fields (the register maps of every chapter, R34 to R37).
-/

namespace Sys2Proof.Machine

/-! ## Counters that a write of 1 to a CLR register clears -/

/-- The registers that a CLR register sets to 0, and the fields of registers it sets to 0. -/
def cleared (r : RegDesc) (i : Nat) : List Nat × List Fld :=
  if r.addr = A.DL_CLR 0 then ([A.DL_LATE i], [F.DL_STAT_full_cnt i])
  else if r.addr = A.CMP_CLR then ([A.CMP_CNT1, A.CMP_CNT2], [])
  else if r.addr = A.CV_CLR 0 then ([A.CV_CNT i, A.CV_CNT2 i], [])
  else if r.addr = A.FB_CLR 0 then ([A.FB_CNT i, A.FB_CNT2 i], [])
  else if r.addr = A.LC_CLR 0 then ([A.LC_FCNT i, A.LC_ISSUED i, A.LC_STALLED i, A.LC_FAULT i], [])
  else if r.addr = A.LNK_CLR then ([A.LNK_CNT, A.LNK_CNT2], [])
  else if r.addr = A.CH_CLR 0 then
    ([A.CH_CNT_WIN i, A.CH_CNT_RX i, A.CH_CNT_TX i, A.CH_CNT_DUP i, A.PORT_ERR i 0, A.PORT_ERR i 1, A.PORT_DOWN i 0,
      A.PORT_DOWN i 1], [])
  else if r.addr = A.TWN_CLR then ([A.TWN_CNT], [])
  else if r.addr = A.TLY_CLR then ([A.TLY_MERGED], [F.TLY_OCC_max])
  else if r.addr = A.MEM_CLR then ([A.MEM_DECC, A.MEM_SECC], [F.MEM_RET_STAT_corrected])
  else ([], [])

/-- A write of 1 to a CLR register. -/
def State.clearCounters (s : State) (r : RegDesc) (i : Nat) : State :=
  let c := cleared r i
  (s.each c.1 fun s a => s.setReg a 0).each c.2 fun s f => s.setFld f 0

/-! ## Writes that the state of their object refuses (R64, R412, R425) -/

/-- The ring that a BASE or CFG register belongs to holds outstanding commands or unread completions. -/
def State.ringBusy (s : State) (r : RegDesc) (i : Nat) : Bool :=
  if r.addr = A.CMD_BASE 0 || r.addr = A.CMD_CFG 0 then s.outstanding i != 0
  else if r.addr = A.CPL_BASE 0 || r.addr = A.CPL_CFG 0 then
    ringHeld (s.fld (F.CPL_PRODUCED_count i)) (s.fld (F.CPL_CONSUMED_count i)) != 0
  else if r.addr = A.TAL_BASE 0 || r.addr = A.TAL_CFG 0 then
    ringHeld (s.fld (F.TAL_PRODUCED_count i)) (s.fld (F.TAL_CONSUMED_count i)) != 0
  else false

/-- The bits of a ring's BASE or CFG register that R425 keeps while it is in use: all of BASE; enable and size of CFG. -/
def ringBits (r : RegDesc) (w : Nat) : Nat :=
  if r.addr = A.CMD_CFG 0 || r.addr = A.CPL_CFG 0 || r.addr = A.TAL_CFG 0 then bitsOf w 0 1 + bitsOf w 4 5 * 2 else w

/-- The windows of all enabled command ledgers when CFG of ledger n holds `w` (R412). -/
def State.windowSum (s : State) (n w : Nat) : Nat :=
  ((List.range 16).map fun k =>
    let c := if k = n then w else (s.reg (A.CMD_CFG k)).toNat
    if c.testBit 0 then bitsOf c 16 11 else 0).foldl (· + ·) 0

/-- Why a write that its fields allow is refused for the state of its object. A list holds an entry until its token is
delivered, so an entry that has fired counts (R64, log 73). -/
def State.objectRefuses (s : State) (r : RegDesc) (i old new : Nat) : Option Discard :=
  if r.addr = A.CMD_CFG 0 && s.windowSum i new > 2048 && s.windowSum i new > s.windowSum i old then some .range
  else if ringBits r old != ringBits r new && s.ringBusy r i then some .state
  else if (r.addr = A.FAB_PSEL || r.addr = A.FAB_PDATA 0 || r.addr = A.FAB_PCTL) && s.hostReads then some .state
  else if r.addr = A.DL_CFG 0 && i != 0 && (!(s.dlist i).entries.isEmpty || !(s.dlist i).due.isEmpty) then some .state
  else none

/-! ## Effects -/

/-- A completion ledger that becomes enabled starts from count 0 (R417). -/
def State.freshCpl (s : State) (m : Nat) : State :=
  let s := ((s.setReg (A.CPL_PRODUCED m) 0).setReg (A.CPL_CONSUMED m) 0).setCplSide m {}
  (s.refreshFull m).ledgersGo

/-- A tally ledger that becomes enabled starts from count 0. -/
def State.freshTal (s : State) (k : Nat) : State :=
  let s := ((s.setReg (A.TAL_PRODUCED k) 0).setReg (A.TAL_CONSUMED k) 0).setTalSide k {}
  s.refreshTalFull k

/-- MODE.SLICEMAP: a slice that changes its group drives no more until its next COMMIT; the groups' joint counts follow
(R79, R92, R136). -/
def State.sliceMapWritten (s : State) (k old new : Nat) : State :=
  let s := s.each (List.range 8) fun s j =>
    if bitsOf old (4 * j) 4 = bitsOf new (4 * j) 4 then s else s.undrive (8 * k + j)
  s.each (List.range 8) fun s g => s.setFld (F.GRP_STATUS_joints g) (s.jointCount g)

/-- MODE.BANK: a changed rate waits for the next multiple of 125 us (R90). -/
def State.bankRatesWritten (s : State) (old new : Nat) : State :=
  s.each (List.range 8) fun s b =>
    if bitsOf old (2 * b) 2 = bitsOf new (2 * b) 2 then s else s.setBank b { s.bankOf b with rateWait := true }

/-- A changed channel empties the entry's filter and clears its result (R172). -/
def State.channelWritten (s : State) (c e : Nat) : State :=
  let x := s.convOf c
  (s.setConv c (x.setEntry e { x.entry e with filter := [] })).setReg (A.CV_RES c e) 0

/-- A write to a schedule, its count, a map entry or the cycle clears sched_ok (R353). -/
def State.scheduleWritten (s : State) (chs : List Nat) : State :=
  (s.each chs fun s ch => s.setFlag (F.CH_STAT_sched_ok ch) false).twinBat

/-- What an applied write that changes the register does besides. -/
def State.changedEffect (s : State) (r : RegDesc) (i j old new : Nat) : State :=
  let flip (b : Nat) : Bool := old.testBit b != new.testBit b
  if r.addr = A.MODE_SLICEMAP 0 then s.sliceMapWritten i old new
  else if r.addr = A.MODE_BANK then s.bankRatesWritten old new
  else if r.addr = A.RT_CTRL then
    let s := if flip 0 then s.standaloneSet else s
    if new.testBit 1 then s else s.setFlag F.RT_STATUS_pps_lost false
  else if r.addr = A.MG_FF 0 then if new.testBit 0 then s else s.setFld (F.MG_FFSTAT_state i) 0
  else if r.addr = A.CV_SEQ_CFG 0 0 then if old % 16 = new % 16 then s else s.channelWritten i j
  else if r.addr = A.FB_CFG 0 then if old % 8 = new % 8 then s else s.portModeChanged i
  else if r.addr = A.ST_CFG 0 then
    (if flip 0 then s.enableChanged i (new.testBit 0) else s.wakeIfCovered i).resolveStopped.levelsDeepen
  else if r.addr = A.ST_CORES 0 then s.resolveRunnable
  else if r.addr = A.LNK_CFG then s.linkRefresh.twinBat
  else if r.addr = A.TWN_CFG then s.twinConfigured
  else if r.addr = A.TWN_BAT || r.addr = A.TWN_BAT2 then s.twinBat
  else if r.addr = A.CMD_CFG 0 then if flip 0 && new.testBit 0 then s.freshCmd i else s
  else if r.addr = A.CPL_CFG 0 then if flip 0 && new.testBit 0 then s.freshCpl i else s.refreshFull i
  else if r.addr = A.TAL_CFG 0 then if flip 0 && new.testBit 0 then s.freshTal i else s.refreshTalFull i
  else if r.addr = A.MSIX_CTRL 0 then s.sendPending
  else if r.addr = A.FAB_HOST_BASE then
    if new = 0 then { s with fab := { s.fab with due := [] } } else s
  else s

/-- What an applied write does besides, whether or not it changes the register. -/
def State.writtenEffect (s : State) (r : RegDesc) (i v : Nat) : State :=
  let bit (b : Nat) (f : State → State) (s : State) : State := if v.testBit b then f s else s
  if r.addr = A.SYS_FAULT_STICKY then s.setReg A.SYS_FAULT_STICKY (s.reg A.SYS_FAULT_STICKY ||| s.reg A.SYS_FAULT)
  else if r.addr = A.SYS_BANKCLR then s.bankRetestRequest (v % 256) v
  else if r.addr = A.OC_TRIP 0 then bit 8 (fun s => s.usedFree.tripClear i { ia := s.freeVal.setWidth 32, ib := (s.freeVal >>> 32).setWidth 32 } v) s
  else if r.addr = A.FB_CFG 0 then s.portModeWritten i
  else if r.addr = A.FB_CTL 0 then bit 1 (·.preset i v) (bit 0 (·.indexArm i v) s)
  else if r.addr = A.ST_CTL 0 then bit 0 (·.arm i v) s
  else if r.addr = A.HC_CTL 0 then bit 0 (·.retest i v) s
  else if r.addr = A.CH_CTL 0 then bit 1 (·.reopen i v) (bit 0 (fun s => (s.scheduleCommit i v).twinBat) s)
  else if r.addr = A.TWN_CTL then bit 1 (·.twinClaim v) (bit 0 (·.twinYield v) s)
  else if r.addr = A.FAB_PCTL then bit 1 (·.pctlWrite v) (bit 0 (·.pctlRead v) s)
  else if r.addr = A.SEC_BOOT_CTL then bit 0 (·.bootRetry) s
  else if r.addr = A.SEC_PROV then bit 3 (·.provision v) s
  else if r.addr = A.SEC_DBG then bit 5 (·.debugRelock v) (bit 4 (·.debugUnlock v) s)
  else if r.addr = A.SEC_ROLL_ADV then s.rollbackAdvance (v % 4) (bitsOf v 8 8) v
  else if r.addr = A.SEC_KPROG then bit 5 (·.keyRevoke v) (bit 4 (·.keyProgram v) s)
  else if r.addr = A.MEM_CTL then bit 0 (·.memStart v) s
  else if r.addr = A.LNK_CYCLE || r.addr = A.MAP_POINT 0 || r.addr = A.MAP_RANGE 0 then s.scheduleWritten [0, 1]
  else if r.addr = A.CH_SCHED_N 0 || r.addr = A.SCHED_START 0 0 || r.addr = A.SCHED_LEN 0 0 || r.addr = A.SCHED_KIND 0 0 ||
      r.addr = A.SCHED_MAP 0 0 then s.scheduleWritten [i]
  else if r.addr = A.ST_CLR 0 then bit 0 (·.hawkerClr (A.ST_CLR i)) s
  else if r.addr = A.HWK_CLR then bit 0 (·.hawkerClr A.HWK_CLR) s
  else bit 0 (·.clearCounters r i) s

/-- A command bit in a write of KPROG or PROV that its rule discards: the whole write is discarded (R12, R457, R458). -/
def State.commandRefused (s : State) (r : RegDesc) (v : Nat) : Option Discard :=
  if r.addr = A.SEC_KPROG then
    if v.testBit 4 && s.keyProgramBad (v % 16) || v.testBit 5 && keySlotBad (v % 16) then some .access else none
  else if r.addr = A.SEC_PROV then
    if !v.testBit 3 then none
    else if s.cellMode ≠ 2 then some .access
    else if s.flag F.SEC_PROV_provisioned || s.flag F.SEC_PROV_busy then some .state
    else none
  else none

/-! ## One register -/

/-- The present value of a register or pair as a write finds it. -/
def State.liveOf (s : State) (r : RegDesc) (off : Nat) : Nat :=
  (s.liveWord off).toNat + if r.pair then (s.liveWord (off + 4)).toNat * 2 ^ 32 else 0

/-- The stored value of a register or pair. -/
def State.storedOf (s : State) (r : RegDesc) (off : Nat) : Nat :=
  if r.addr = A.FAB_DENT_LO || r.addr = A.FAB_DENT_HI then s.liveOf r off
  else if r.pair then s.pair off else (s.reg off).toNat

/-- A register, pair or directory word takes its new value. -/
def State.storeReg (s : State) (r : RegDesc) (off new : Nat) : State :=
  let p := s.fld F.FAB_DSEL_point
  let e := s.dirEntry p
  let dir (x : Word × Word) : State := s.dramWrite (s.dirPlace p) (toBytes 4 x.1.toNat ++ toBytes 4 x.2.toNat)
  if r.addr = A.FAB_DENT_LO then dir (BitVec.ofNat 32 new, e.2)
  else if r.addr = A.FAB_DENT_HI then dir (e.1, BitVec.ofNat 32 new)
  else if r.pair then s.setPair off new
  else s.setReg off (BitVec.ofNat 32 new)

/-- A write of a register that no other unit handles. -/
def State.plainWrite (s : State) (r : RegDesc) (is : List Nat) (off v : Nat) : State :=
  let i := is.getD 0 0
  let old := s.storedOf r off
  match s.prepare r is old (s.liveOf r off) (s.raisedNow off) v with
  | .error why => s.discard .host off why (v % 2 ^ 32)
  | .ok new =>
    match (s.objectRefuses r i old new).or (s.commandRefused r v) with
    | some why => s.discard .host off why (v % 2 ^ 32)
    | none =>
      if r.addr = A.EMU_CFG 0 then
        (s.storeReg r off (setBitNat new 0 (old.testBit 0))).emuEnable i (new.testBit 0)
      else
        let s := s.storeReg r off new
        let s := if old = new then s else s.changedEffect r i (is.getD 1 0) old new
        s.writtenEffect r i v

/-- A write of a core's DBG register: discarded while debug is locked (R294). -/
def State.dbgWrite (s : State) (c off v : Nat) : State :=
  s.debugGate off v fun s =>
    let s := s.setReg off (BitVec.ofNat 32 (bitsOf v 3 1 * 8))
    let s := if v.testBit 0 then s.dbgHalt c else s
    let s := if v.testBit 1 then s.dbgResume c else s
    if v.testBit 2 then s.dbgStep c else s

/-- A write of LC.RHALT: discarded while debug is locked (R294, R295). -/
def State.rhaltWrite (s : State) (v : Nat) : State :=
  s.debugGate A.LCR_RHALT v fun s =>
    let s := if v.testBit 0 then s.motionHalt else s
    if v.testBit 1 then s.motionResume else s

/-- Reason RANGE covers a write that BOOT discards when its value is out of range (R493). -/
def State.bootRange (s : State) (r : RegDesc) (is : List Nat) (off v : Nat) : Bool :=
  match s.prepare r is (s.storedOf r off) (s.liveOf r off) 0 v with
  | .error .range => true
  | _ => false

/-- A host write of one register or pair, complete (R7, R8, R12, R35). In BOOT all but a few are discarded; the reason is
ACCESS only where no other of the list covers the write (R451, R493). -/
def State.hostWhole (s : State) (off v : Nat) : State :=
  match findReg off with
  | none => s.discard .host off .unoccupied (v % 2 ^ 32)
  | some (r, is) =>
    let i := is.getD 0 0
    if 0x280000 ≤ off && off < 0x2C0000 then s.discard .host off .safety (v % 2 ^ 32)
    else if s.cellMode = 1 && s.bootRange r is off v then s.discard .host off .range (v % 2 ^ 32)
    else s.hostGate off (v % 2 ^ 32) fun s =>
      if inPwm off then s.pwmWrite .host off (BitVec.ofNat 32 v)
      else if r.addr = A.MODE_REQ then s.modeReqWrite (v % 8) (v % 2 ^ 32)
      else if r.addr = A.RT_CIVIL_OFS then s.civilSet .ofs (BitVec.ofNat 64 v)
      else if r.addr = A.RT_CIVIL_REF then s.civilSet .ref (BitVec.ofNat 64 v)
      else if r.addr = A.RT_CIVIL_RATE then s.civilSet .rate (BitVec.ofNat 64 v)
      else if r.addr = A.LC_DBG 0 then s.dbgWrite i off v
      else if r.addr = A.LC_DREG 0 0 then s.dregWrite i (is.getD 1 0) (BitVec.ofNat 32 v)
      else if r.addr = A.LCR_RHALT then s.rhaltWrite v
      else s.plainWrite r is off v

/-! ## Widths and pairs (R7, R8) -/

/-- A 32-bit write: of a pair, the lower word is held and the upper one completes the write (R8). -/
def State.hostWrite32 (s : State) (off v : Nat) : State :=
  match findReg off with
  | none => s.hostWhole off v
  | some (r, _) =>
    if !r.pair then s.hostWhole off v
    else if (off - r.addr) % 8 = 0 then
      { s with holdWrite := Tab.set (fun _ => none) s.holdWrite (holdKey 0 off) (some (BitVec.ofNat 32 v)) }
    else
      let lo := match Tab.get (fun _ => none) s.holdWrite (holdKey 0 (off - 4)) with
        | some w => w.toNat
        | none => (s.liveWord (off - 4)).toNat
      let s : State := { s with holdWrite := Tab.set (fun _ => none) s.holdWrite (holdKey 0 (off - 4)) none }
      s.hostWhole (off - 4) (lo + v * 2 ^ 32)

/-- A 64-bit write: both words of a pair in one step, else two writes (R7, R8). A lower word held for the pair is dropped
by it; a 64-bit read leaves a holding copy as it is (DESIGN CHOICE, log 68). -/
def State.hostWrite64 (s : State) (off v : Nat) : State :=
  let two (s : State) : State := (s.hostWrite32 off (v % 2 ^ 32)).hostWrite32 (off + 4) (v / 2 ^ 32)
  match findReg off with
  | none => two s
  | some (r, _) =>
    if r.pair && (off - r.addr) % 8 == 0 then
      ({ s with holdWrite := Tab.set (fun _ => none) s.holdWrite (holdKey 0 off) none } : State).hostWhole off v
    else two s

/-- A write of BAR2: a doorbell, or an offset that none occupies (R35, R36, R397, R398). -/
def State.bar2Write (s : State) (off v : Nat) : State :=
  let k := off % 0x1000 / 0x100
  if off % 0x100 ≠ 0 || off ≥ 0x2400 then s.discard .host off .unoccupied v
  else if off < 0x1000 then s.doorbellWrite k v
  else if off < 0x2000 then s.consumerWrite (.completion (Fin.ofNat 16 k)) v
  else s.consumerWrite (.tally (Fin.ofNat 4 k)) v

/-- REGISTER_WRITE: a host write of `n` bytes (R7, R8, R35, R36). -/
def State.registerWrite (s : State) (bar2 : Bool) (off n : Nat) (data : BitVec 64) : State :=
  let s := s.readsEnd
  let v := data.toNat % 2 ^ (8 * n)
  let ok := (n = 4 ∧ off % 4 = 0) ∨ (n = 8 ∧ off % 8 = 0 ∧ bar2 = false)
  if ¬ok then s.discard .host off .width (v % 2 ^ 32)
  else if bar2 then s.bar2Write off v
  else if n = 4 then s.hostWrite32 off v
  else s.hostWrite64 off v

/-- A 32-bit read of BAR2: a command doorbell shows the last producer count applied (R397), the others the consumer
count (R35, R36, log 16). An aligned 64-bit read is one of two such words (R7). -/
def State.bar2Read (s : State) (off : Nat) : Nat :=
  let k := off % 0x1000 / 0x100
  if off % 0x100 ≠ 0 || off ≥ 0x2400 then 0
  else if off < 0x1000 then (s.cursor k).producer
  else if off < 0x2000 then s.fld (F.CPL_CONSUMED_count k)
  else s.fld (F.TAL_CONSUMED_count k)

/-- REGISTER_READ: a host read of `n` bytes; its data stand in hostRead (R7, R8, R35, log 12). -/
def State.registerRead (s : State) (bar2 : Bool) (off n : Nat) : State :=
  let s := s.readsEnd
  let give (s : State) (v : BitVec 64) : State := { s with hostRead := v }
  if n = 4 ∧ off % 4 = 0 then
    if bar2 then give s (BitVec.ofNat 64 (s.bar2Read off))
    else
      let r := s.read32 0 off
      give r.1 (r.2.setWidth 64)
  else if n = 8 ∧ off % 8 = 0 then
    if bar2 then give s (BitVec.ofNat 64 (s.bar2Read off + s.bar2Read (off + 4) * 2 ^ 32))
    else
      let r := s.read64 0 off
      give r.1 r.2
  else give s 0

/-! ## The rows that are writes of one field -/

/-- STANDALONE: a host write of RT.CTRL with that bit, the other fields as they stand (R43). -/
def State.standaloneWrite (s : State) (on : Bool) : State :=
  s.hostWhole A.RT_CTRL (setBitNat (s.reg A.RT_CTRL).toNat 0 on)

/-- CHANNEL_ENABLE: a host write of LNK.CFG with ena_a and ena_b, the other fields as they stand (R372). -/
def State.channelEnable (s : State) (a b : Bool) : State :=
  s.hostWhole A.LNK_CFG (setBitNat (setBitNat (s.reg A.LNK_CFG).toNat 12 a) 13 b)

end Sys2Proof.Machine
end

