-- ==== Sys2Proof/Machine/EventsLink.lean ====
section
/-!
DEFINITION. The commands of Camyel Link, the twin pair, the signal fabric and the host's registers (R7, R8, R342 to R372,
R373 to R392, R437 to R443).
-/

namespace Sys2Proof.Machine

/-- Channel A is 0 and B is 1 (R372). -/
def chanNum : Chan → Nat
  | .A => 0
  | .B => 1

/-- Port UP is 0 and DN is 1 (R372). -/
def portNum : PortSide → Nat
  | .up => 0
  | .dn => 1

/-- FRAME_RECEIVE (R344 to R361). -/
def execFrameReceive (ch : Chan) (p : PortSide) (fine : Fin 16) (bad : BitVec 16) (bytes : List Byte) (s : State) : Answer :=
  .next (s.frameReceive (chanNum ch) (portNum p) fine.val bad.toNat bytes)

/-- PROBE (R342). -/
def execProbe (ch : Chan) (p : PortSide) (s : State) : Answer :=
  .next (s.probe (chanNum ch) (portNum p))

/-- PROBE_ANSWER (R342). -/
def execProbeAnswer (ch : Chan) (p : PortSide) (clear : Bool) (s : State) : Answer :=
  .next (s.probeAnswer (chanNum ch) (portNum p) clear)

/-- ECHO (R342). -/
def execEcho (ch : Chan) (p : PortSide) (trip : BitVec 24) (s : State) : Answer :=
  .next (s.echo (chanNum ch) (portNum p) trip.toNat)

/-- PORT_UP (R342). -/
def execPortUp (ch : Chan) (p : PortSide) (s : State) : Answer :=
  .next (s.portRises (chanNum ch) (portNum p))

/-- PORT_DOWN (R342, R346). -/
def execPortDown (ch : Chan) (p : PortSide) (s : State) : Answer :=
  .next (s.portFalls (chanNum ch) (portNum p))

/-- REOPEN (R346). -/
def execReopen (ch : Chan) (s : State) : Answer :=
  .next (s.reopen (chanNum ch))

/-- SCHEDULE_COMMIT (R353). -/
def execScheduleCommit (ch : Chan) (s : State) : Answer :=
  .next ((s.scheduleCommit (chanNum ch)).twinBat)

/-- LEAD_READ (R359). -/
def execLeadRead (ch : Chan) (n : Fin 4096) (s : State) : Answer :=
  .next (s.leadRead (chanNum ch) n.val)

/-- BATTEN_SEND (R359). -/
def execBattenSend (ch : Chan) (n : Fin 4096) (s : State) : Answer :=
  .next (s.battenSend (chanNum ch) n.val)

/-- MISSING (R360). -/
def execMissing (ch : Chan) (n : Fin 4096) (s : State) : Answer :=
  .next (s.missing (chanNum ch) n.val)

/-- LINK_CYCLE_END (R364 to R371, R375 to R388). -/
def execLinkCycleEnd (s : State) : Answer :=
  .next (s.linkCycleEnd)

/-- LISTEN_TIMEOUT (R368). -/
def execListenTimeout (s : State) : Answer :=
  .next (s.listenTimeout)

/-- STANDALONE (R43). -/
def execStandalone (on : Bool) (s : State) : Answer :=
  .next (s.standaloneWrite on)

/-- CHANNEL_ENABLE (R367). -/
def execChannelEnable (a b : Bool) (s : State) : Answer :=
  .next (s.channelEnable a b)

/-- TWIN_START (R374). -/
def execTwinStart (s : State) : Answer :=
  .next (s.twinStart)

/-- CLAIM (R374). -/
def execClaim (s : State) : Answer :=
  .next (s.twinClaim)

/-- YIELD (R387). -/
def execYield (s : State) : Answer :=
  .next (s.twinYield)

/-- MIRROR_LOSS (R387). -/
def execMirrorLoss (s : State) : Answer :=
  .next (s.mirrorLoss)

/-- ACT_IN_FALL (R387). -/
def execActInFall (s : State) : Answer :=
  .next (s.actInFall)

/-- ACT_IN_RISE (R388). -/
def execActInRise (s : State) : Answer :=
  .next (s.actInRise)

/-- YIELD_COMPLETE (R390). -/
def execYieldComplete (s : State) : Answer :=
  .next (s.yieldComplete)

/-- HANDOVER (R389). -/
def execHandover (s : State) : Answer :=
  .next (s.handover)

/-- PCTL_READ (R442). -/
def execPctlRead (s : State) : Answer :=
  .next s.readsEnd.pctlRead

/-- PCTL_WRITE (R442). -/
def execPctlWrite (s : State) : Answer :=
  .next s.readsEnd.pctlWrite

/-- MIRROR_COPY (R443). -/
def execMirrorCopy (point : BitVec 17) (s : State) : Answer :=
  .next (s.mirrorCopy point.toNat)

/-- REGISTER_WRITE (R7 to R12, R35). -/
def execRegisterWrite (bar2 : Bool) (off : BitVec 22) (bytes : Fin 9) (data : BitVec 64) (s : State) : Answer :=
  .next ((s.votesNow.bridged bar2 off.toNat).registerWrite bar2 off.toNat bytes.val data)

/-- REGISTER_READ (R7, R8, R11, R35). -/
def execRegisterRead (bar2 : Bool) (off : BitVec 22) (bytes : Fin 9) (s : State) : Answer :=
  .next ((s.votesNow.bridged bar2 off.toNat).registerRead bar2 off.toNat bytes.val)

end Sys2Proof.Machine
end

