-- ==== Sys2Proof/Machine/EventsSafety.lean ====
section
/-!
DEFINITION. The commands of the safety region (R296 to R339).
-/

namespace Sys2Proof.Machine

/-- SEPARATION_CYCLE (R331). -/
def execSeparationCycle (s : State) : Answer :=
  .next (s.separationCycle)

/-- SAFETY_FRAME (R362). -/
def execSafetyFrame (conn : Fin 16) (bytes : List Byte) (s : State) : Answer :=
  .next (s.safetyFrame conn.val bytes)

/-- CONNECTION_LOST (R306). -/
def execConnectionLost (conn : Fin 16) (s : State) : Answer :=
  .next (s.connectionLost conn.val)

/-- SAFE_INPUT (R328). -/
def execSafeInput (k : Fin 16) (a b : ChanLevel) (s : State) : Answer :=
  .next (s.safeInput k.val a b)

/-- DISCREPANCY (R328). -/
def execDiscrepancy (k : Fin 16) (s : State) : Answer :=
  .next (s.discrepancy k.val)

/-- STO_TEST (R327). -/
def execStoTest (badA badB : BitVec 8) (badBrake : BitVec 64) (s : State) : Answer :=
  .next (s.stoTest badA.toNat badB.toNat badBrake.toNat)

/-- READBACK_FAULT (R327). -/
def execReadbackFault (g : Fin 8) (_ch : Fin 2) (brake : Option (Fin 64)) (s : State) : Answer :=
  .next (s.readbackFault g.val (brake.map Fin.val))

/-- PITCH_HOLD_LOST (R321). -/
def execPitchHoldLost (k : Fin 64) (s : State) : Answer :=
  .next (s.pitchHoldLost k.val)

end Sys2Proof.Machine
end

