-- ==== Sys2Proof/Machine/EventsSlice.lean ====
section
/-!
DEFINITION. The commands of the slices, banks and converters (R88 to R90, R131 to R179) and of the feedback ports and
emulation (R185 to R208).
-/

namespace Sys2Proof.Machine

/-- BANK_RATE_APPLY (R90). -/
def execBankRateApply (s : State) : Answer :=
  .next (s.bankRateApply)

/-- CARRIER (R145). -/
def execCarrier (n : Fin 64) (pulseGood : Bool) (s : State) : Answer :=
  .next (s.carrier n.val pulseGood)

/-- RELOAD (R131). -/
def execReload (n : Fin 64) (s : State) : Answer :=
  .next (s.reload n.val)

/-- OUTPUT_EDGE (R133). -/
def execOutputEdge (n : Fin 64) (x : Fin 4) (s : State) : Answer :=
  .next (s.outputEdge n.val x.val)

/-- COMMIT (R138): a host write of 1 to COMMIT. -/
def execCommit (n : Fin 64) (s : State) : Answer :=
  .next (s.hostGate (A.S_COMMIT n.val) 1 fun s => s.pwmWrite .host (A.S_COMMIT n.val) 1)

/-- CALIBRATION (R143). -/
def execCalibration (n : Fin 64) (line : Fin 5) (taps : BitVec 7) (good : Bool) (s : State) : Answer :=
  .next (s.calibrate n.val line.val taps.toNat good)

/-- ADC_TRIGGER (R165). -/
def execAdcTrigger (c : Fin 25) (e : Fin 16) (s : State) : Answer :=
  .next (s.adcTrigger c.val e.val)

/-- CONVERSION_END (R162). -/
def execConversionEnd (c : Fin 25) (volts : Option (BitVec 32)) (s : State) : Answer :=
  .next (s.conversionEnd c.val volts)

/-- CONVERTER_FAILURE (R172). -/
def execConverterFailure (c : Fin 25) (s : State) : Answer :=
  .next (s.converterFailure c.val)

/-- COMPARATOR_SELFTEST (R177). -/
def execComparatorSelftest (b : Fin 8) (s : State) : Answer :=
  .next (s.comparatorSelftest b.val)

/-- COMPARATOR_TEST_END (R177). -/
def execComparatorTestEnd (b : Fin 8) (pass : Bool) (s : State) : Answer :=
  .next (s.comparatorTestEnd b.val pass)

/-- TRIP_CLEAR (R176). -/
def execTripClear (n : Fin 64) (volts : PhaseVolts) (s : State) : Answer :=
  .next (s.tripClear n.val volts)

/-- CM_CONVERSION (R179). -/
def execCmConversion (codes : List (BitVec 12)) (s : State) : Answer :=
  .next (s.cmConversion codes)

/-- FEEDBACK_EDGE (R185). -/
def execFeedbackEdge (n : Fin 64) (lines : LineLevels) (s : State) : Answer :=
  .next (s.feedbackEdge n.val lines.level.toNat lines.held.toNat)

/-- LATCH (R197). -/
def execLatch (n : Fin 64) (s : State) : Answer :=
  .next (s.latch n.val)

/-- FRAME_END (R192, R194). -/
def execFrameEnd (n : Fin 64) (nbits : Fin 128) (bits : BitVec 128) (ack : Bool) (d : BitVec 16) (start : BitVec 8)
    (s : State) : Answer :=
  .next (s.frameEnd n.val nbits.val bits.toNat ack d.toNat start.toNat)

/-- INDEX_ARM (R189). -/
def execIndexArm (n : Fin 64) (s : State) : Answer :=
  .next (s.indexArm n.val)

/-- PRESET (R190). -/
def execPreset (n : Fin 64) (s : State) : Answer :=
  .next (s.preset n.val)

/-- STANDSTILL_TIMEOUT (R203). -/
def execStandstillTimeout (n : Fin 64) (s : State) : Answer :=
  .next (s.standstillTimeout n.val)

/-- EMU_CHANGE (R207). -/
def execEmuChange (b : Fin 8) (s : State) : Answer :=
  .next (s.emuChange b.val)

/-- EMU_ENABLE (R209). -/
def execEmuEnable (b : Fin 8) (on : Bool) (s : State) : Answer :=
  .next (s.emuEnable b.val on)

end Sys2Proof.Machine
end

