-- ==== Sys2Proof/Machine/EventsTime.lean ====
section
/-!
DEFINITION. The commands of the tick, the coordinates, the compare unit, the delay lists and the time inputs (R47 to
R64, R120 to R124), and of the motion programs and steppers (R99, R114 to R118, R126 to R129).
-/

namespace Sys2Proof.Machine

/-- COORDINATE_TICK (R50). -/
def execCoordinateTick (s : State) : Answer :=
  .next (s.coordinateTick)

/-- CMP_LATE (R122). -/
def execCmpLate (s : State) : Answer :=
  .next (s.cmpLateEvent)

/-- COMPARE_OUTPUT_ACTION (R124). -/
def execCompareOutputAction (s : State) : Answer :=
  .next (s.compareOutput)

/-- COMPARE_PULSE_END (R124). -/
def execComparePulseEnd (n : Fin 64) (s : State) : Answer :=
  .next (s.comparePulseEnd n.val)

/-- DL_ENTRY_FIRE (R62). -/
def execDlEntryFire (m : Fin 5) (s : State) : Answer :=
  .next (s.dlEntryFire m.val)

/-- PITCH_TIMEOUT (R114). -/
def execPitchTimeout (g : Fin 8) (s : State) : Answer :=
  .next (s.pitchTimeout g.val)

/-- PPS_EDGE (R48). -/
def execPpsEdge (rising : Bool) (s : State) : Answer :=
  .next (s.ppsEdge rising)

/-- PPS_LOST (R48). -/
def execPpsLost (s : State) : Answer :=
  .next (s.ppsLost)

/-- CIVIL_SET (R49). -/
def execCivilSet (reg : CivilReg) (value : BitVec 64) (s : State) : Answer :=
  .next (s.civilSet reg value)

/-- COORD_LOST (R57). -/
def execCoordLost (n : Fin 16) (s : State) : Answer :=
  .next (s.coordLost n.val)

/-- PHASE_EDGE (R58). -/
def execPhaseEdge (rising : Bool) (s : State) : Answer :=
  .next (s.phaseEdge rising)

/-- PHASE_UNLOCK (R58). -/
def execPhaseUnlock (s : State) : Answer :=
  .next (s.phaseUnlock)

/-- SEGMENT_FETCH (R99). -/
def execSegmentFetch (g : Fin 8) (bad : Bool) (s : State) : Answer :=
  .next ((if s.fetchDue g.val then s.grant 4 else s).segmentFetch g.val bad)

/-- FF_POST (R116). -/
def execFfPost (g : Fin 8) (s : State) : Answer :=
  .next (s.ffPost g.val)

/-- FF_MISS (R118). -/
def execFfMiss (g : Fin 8) (s : State) : Answer :=
  .next (s.ffMiss g.val)

/-- STEP_TIMER (R126). -/
def execStepTimer (n : Fin 64) (s : State) : Answer :=
  .next (s.stepTimer n.val)

end Sys2Proof.Machine
end

