-- ==== Sys2Proof/Machine/Dispatch.lean ====
section
/-!
DEFINITION. The meaning of each command: one arm per constructor of `Instr`, each a direct call.
-/

namespace Sys2Proof.Machine

def exec (i : Instr) (s : State) : Host.Outcome State Fault Refusal :=
  match i with
  | .registerWrite bar2 off bytes data => Sys2Proof.Machine.execRegisterWrite bar2 off bytes data s
  | .sliceTrip n src err => Sys2Proof.Machine.execSliceTrip n src err s
  | .bankFault b cause => Sys2Proof.Machine.execBankFault b cause s
  | .bankRetestRequest mask => Sys2Proof.Machine.execBankRetestRequest mask s
  | .bankRetest b found => Sys2Proof.Machine.execBankRetest b found s
  | .escalated => Sys2Proof.Machine.execEscalated s
  | .tclkLost => Sys2Proof.Machine.execTclkLost s
  | .safetyFault cause => Sys2Proof.Machine.execSafetyFault cause s
  | .coordinateTick => Sys2Proof.Machine.execCoordinateTick s
  | .cmpLate => Sys2Proof.Machine.execCmpLate s
  | .compareOutputAction => Sys2Proof.Machine.execCompareOutputAction s
  | .comparePulseEnd n => Sys2Proof.Machine.execComparePulseEnd n s
  | .dlEntryFire m => Sys2Proof.Machine.execDlEntryFire m s
  | .pitchTimeout g => Sys2Proof.Machine.execPitchTimeout g s
  | .ppsEdge rising => Sys2Proof.Machine.execPpsEdge rising s
  | .ppsLost => Sys2Proof.Machine.execPpsLost s
  | .civilSet reg value => Sys2Proof.Machine.execCivilSet reg value s
  | .coordLost n => Sys2Proof.Machine.execCoordLost n s
  | .phaseEdge rising => Sys2Proof.Machine.execPhaseEdge rising s
  | .phaseUnlock => Sys2Proof.Machine.execPhaseUnlock s
  | .modeSet h target id epoch => Sys2Proof.Machine.execModeSet h target id epoch s
  | .modeReqSubmit target => Sys2Proof.Machine.execModeReqSubmit target s
  | .epoch => Sys2Proof.Machine.execEpoch s
  | .groupConfirm g => Sys2Proof.Machine.execGroupConfirm g s
  | .changeFailed => Sys2Proof.Machine.execChangeFailed s
  | .peerTimeout node => Sys2Proof.Machine.execPeerTimeout node s
  | .groupSet h group st => Sys2Proof.Machine.execGroupSet h group st s
  | .loopsRunning g => Sys2Proof.Machine.execLoopsRunning g s
  | .lawStartTimeout g => Sys2Proof.Machine.execLawStartTimeout g s
  | .stopTimeout g => Sys2Proof.Machine.execStopTimeout g s
  | .bankRateApply => Sys2Proof.Machine.execBankRateApply s
  | .segAppend h group count addr len => Sys2Proof.Machine.execSegAppend h group count addr len s
  | .segSkip h group => Sys2Proof.Machine.execSegSkip h group s
  | .segFlush h group => Sys2Proof.Machine.execSegFlush h group s
  | .segmentFetch g bad => Sys2Proof.Machine.execSegmentFetch g bad s
  | .ffPost g => Sys2Proof.Machine.execFfPost g s
  | .ffMiss g => Sys2Proof.Machine.execFfMiss g s
  | .payloadSet h group link mass com inertia => Sys2Proof.Machine.execPayloadSet h group link mass com inertia s
  | .compareAdd h entry => Sys2Proof.Machine.execCompareAdd h entry s
  | .compareRemove h tag => Sys2Proof.Machine.execCompareRemove h tag s
  | .stepTimer n => Sys2Proof.Machine.execStepTimer n s
  | .carrier n pulseGood => Sys2Proof.Machine.execCarrier n pulseGood s
  | .reload n => Sys2Proof.Machine.execReload n s
  | .outputEdge n x => Sys2Proof.Machine.execOutputEdge n x s
  | .commit n => Sys2Proof.Machine.execCommit n s
  | .calibration n line taps good => Sys2Proof.Machine.execCalibration n line taps good s
  | .motionHalt => Sys2Proof.Machine.execMotionHalt s
  | .motionResume => Sys2Proof.Machine.execMotionResume s
  | .adcTrigger c e => Sys2Proof.Machine.execAdcTrigger c e s
  | .conversionEnd c volts => Sys2Proof.Machine.execConversionEnd c volts s
  | .converterFailure c => Sys2Proof.Machine.execConverterFailure c s
  | .comparatorSelftest b => Sys2Proof.Machine.execComparatorSelftest b s
  | .comparatorTestEnd b pass => Sys2Proof.Machine.execComparatorTestEnd b pass s
  | .tripClear n volts => Sys2Proof.Machine.execTripClear n volts s
  | .cmConversion codes => Sys2Proof.Machine.execCmConversion codes s
  | .feedbackEdge n lines => Sys2Proof.Machine.execFeedbackEdge n lines s
  | .latch n => Sys2Proof.Machine.execLatch n s
  | .frameEnd n nbits bits ack d start => Sys2Proof.Machine.execFrameEnd n nbits bits ack d start s
  | .indexArm n => Sys2Proof.Machine.execIndexArm n s
  | .preset n => Sys2Proof.Machine.execPreset n s
  | .standstillTimeout n => Sys2Proof.Machine.execStandstillTimeout n s
  | .emuChange b => Sys2Proof.Machine.execEmuChange b s
  | .emuEnable b on => Sys2Proof.Machine.execEmuEnable b on s
  | .lawParam h stall offset length addr => Sys2Proof.Machine.execLawParam h stall offset length addr s
  | .token => Sys2Proof.Machine.execToken s
  | .dispatch => Sys2Proof.Machine.execDispatch s
  | .deadlineMiss n => Sys2Proof.Machine.execDeadlineMiss n s
  | .stallEnable n on => Sys2Proof.Machine.execStallEnable n on s
  | .arm n => Sys2Proof.Machine.execArm n s
  | .coreSelftest => Sys2Proof.Machine.execCoreSelftest s
  | .selftestEnd c pass => Sys2Proof.Machine.execSelftestEnd c pass s
  | .retest c => Sys2Proof.Machine.execRetest c s
  | .counterClr off => Sys2Proof.Machine.execCounterClr off s
  | .attention c => Sys2Proof.Machine.execAttention c s
  | .sharedLoadReturn c => Sys2Proof.Machine.execSharedLoadReturn c s
  | .cmtgArrival c => Sys2Proof.Machine.execCmtgArrival c s
  | .nop c => Sys2Proof.Machine.execNop c s
  | .mov c rd rs => Sys2Proof.Machine.execMov c rd rs s
  | .movi c rd imm => Sys2Proof.Machine.execMovi c rd imm s
  | .movhi c rd imm => Sys2Proof.Machine.execMovhi c rd imm s
  | .ld c r p mode off => Sys2Proof.Machine.execLd c r p mode off s
  | .st c r p mode off => Sys2Proof.Machine.execSt c r p mode off s
  | .ldd c d p mode off => Sys2Proof.Machine.execLdd c d p mode off s
  | .std c d p mode off => Sys2Proof.Machine.execStd c d p mode off s
  | .add c rd rs rt => Sys2Proof.Machine.execAdd c rd rs rt s
  | .sub c rd rs rt => Sys2Proof.Machine.execSub c rd rs rt s
  | .addi c rd rs imm => Sys2Proof.Machine.execAddi c rd rs imm s
  | .neg c rd rs => Sys2Proof.Machine.execNeg c rd rs s
  | .abs c rd rs => Sys2Proof.Machine.execAbs c rd rs s
  | .min c rd rs rt => Sys2Proof.Machine.execMin c rd rs rt s
  | .max c rd rs rt => Sys2Proof.Machine.execMax c rd rs rt s
  | .clp c rd rs rt => Sys2Proof.Machine.execClp c rd rs rt s
  | .and c rd rs rt => Sys2Proof.Machine.execAnd c rd rs rt s
  | .or c rd rs rt => Sys2Proof.Machine.execOr c rd rs rt s
  | .xor c rd rs rt => Sys2Proof.Machine.execXor c rd rs rt s
  | .andi c rd rs imm => Sys2Proof.Machine.execAndi c rd rs imm s
  | .ori c rd rs imm => Sys2Proof.Machine.execOri c rd rs imm s
  | .shl c rd rs rt => Sys2Proof.Machine.execShl c rd rs rt s
  | .shr c rd rs rt => Sys2Proof.Machine.execShr c rd rs rt s
  | .sar c rd rs rt => Sys2Proof.Machine.execSar c rd rs rt s
  | .shli c rd rs sh => Sys2Proof.Machine.execShli c rd rs sh s
  | .shri c rd rs sh => Sys2Proof.Machine.execShri c rd rs sh s
  | .sari c rd rs sh => Sys2Proof.Machine.execSari c rd rs sh s
  | .cmp c rs rt => Sys2Proof.Machine.execCmp c rs rt s
  | .cmpi c rs imm => Sys2Proof.Machine.execCmpi c rs imm s
  | .norm c rd rs => Sys2Proof.Machine.execNorm c rd rs s
  | .mul c rd rs rt => Sys2Proof.Machine.execMul c rd rs rt s
  | .sel c rd rs rt cond => Sys2Proof.Machine.execSel c rd rs rt cond s
  | .mpy c ax ds dt => Sys2Proof.Machine.execMpy c ax ds dt s
  | .mac c ax ds dt => Sys2Proof.Machine.execMac c ax ds dt s
  | .msu c ax ds dt => Sys2Proof.Machine.execMsu c ax ds dt s
  | .mac2 c q ds dt du dv => Sys2Proof.Machine.execMac2 c q ds dt du dv s
  | .macl c ax ds dt dl p post => Sys2Proof.Machine.execMacl c ax ds dt dl p post s
  | .msul c ax ds dt dl p post => Sys2Proof.Machine.execMsul c ax ds dt dl p post s
  | .aclr c ax => Sys2Proof.Machine.execAclr c ax s
  | .aset c ax ds sh => Sys2Proof.Machine.execAset c ax ds sh s
  | .aadd c ax ay => Sys2Proof.Machine.execAadd c ax ay s
  | .asub c ax ay => Sys2Proof.Machine.execAsub c ax ay s
  | .ext c dd ax sh => Sys2Proof.Machine.execExt c dd ax sh s
  | .dstep c ax ds => Sys2Proof.Machine.execDstep c ax ds s
  | .padd c p imm => Sys2Proof.Machine.execPadd c p imm s
  | .b c cond off => Sys2Proof.Machine.execB c cond off s
  | .call c off => Sys2Proof.Machine.execCall c off s
  | .jr c p => Sys2Proof.Machine.execJr c p s
  | .rep c n => Sys2Proof.Machine.execRep c n s
  | .repr c ds => Sys2Proof.Machine.execRepr c ds s
  | .blk c n lenLess1 => Sys2Proof.Machine.execBlk c n lenLess1 s
  | .blkr c ds lenLess1 => Sys2Proof.Machine.execBlkr c ds lenLess1 s
  | .take c => Sys2Proof.Machine.execTake c s
  | .done c rearm => Sys2Proof.Machine.execDone c rearm s
  | .post c dA dB => Sys2Proof.Machine.execPost c dA dB s
  | .postg c dA dB => Sys2Proof.Machine.execPostg c dA dB s
  | .cmtg c ds => Sys2Proof.Machine.execCmtg c ds s
  | .dli c dK dA dB => Sys2Proof.Machine.execDli c dK dA dB s
  | .dlc c dA => Sys2Proof.Machine.execDlc c dA s
  | .sync c => Sys2Proof.Machine.execSync c s
  | .bkpt c => Sys2Proof.Machine.execBkpt c s
  | .dbgHalt c => Sys2Proof.Machine.execDbgHalt c s
  | .dbgResume c => Sys2Proof.Machine.execDbgResume c s
  | .dbgStep c => Sys2Proof.Machine.execDbgStep c s
  | .dregWrite c k data => Sys2Proof.Machine.execDregWrite c k data s
  | .separationCycle => Sys2Proof.Machine.execSeparationCycle s
  | .safetyFrame conn bytes => Sys2Proof.Machine.execSafetyFrame conn bytes s
  | .connectionLost conn => Sys2Proof.Machine.execConnectionLost conn s
  | .safeInput k a b => Sys2Proof.Machine.execSafeInput k a b s
  | .discrepancy k => Sys2Proof.Machine.execDiscrepancy k s
  | .stoTest badA badB badBrake => Sys2Proof.Machine.execStoTest badA badB badBrake s
  | .readbackFault g ch brake => Sys2Proof.Machine.execReadbackFault g ch brake s
  | .pitchHoldLost k => Sys2Proof.Machine.execPitchHoldLost k s
  | .safetyLoad h addr len => Sys2Proof.Machine.execSafetyLoad h addr len s
  | .frameReceive ch p fine bad bytes => Sys2Proof.Machine.execFrameReceive ch p fine bad bytes s
  | .probe ch p => Sys2Proof.Machine.execProbe ch p s
  | .probeAnswer ch p clear => Sys2Proof.Machine.execProbeAnswer ch p clear s
  | .echo ch p trip => Sys2Proof.Machine.execEcho ch p trip s
  | .portUp ch p => Sys2Proof.Machine.execPortUp ch p s
  | .portDown ch p => Sys2Proof.Machine.execPortDown ch p s
  | .reopen ch => Sys2Proof.Machine.execReopen ch s
  | .scheduleCommit ch => Sys2Proof.Machine.execScheduleCommit ch s
  | .leadRead ch n => Sys2Proof.Machine.execLeadRead ch n s
  | .battenSend ch n => Sys2Proof.Machine.execBattenSend ch n s
  | .missing ch n => Sys2Proof.Machine.execMissing ch n s
  | .linkCycleEnd => Sys2Proof.Machine.execLinkCycleEnd s
  | .listenTimeout => Sys2Proof.Machine.execListenTimeout s
  | .standalone on => Sys2Proof.Machine.execStandalone on s
  | .channelEnable a b => Sys2Proof.Machine.execChannelEnable a b s
  | .twinStart => Sys2Proof.Machine.execTwinStart s
  | .claim => Sys2Proof.Machine.execClaim s
  | .yield => Sys2Proof.Machine.execYield s
  | .mirrorLoss => Sys2Proof.Machine.execMirrorLoss s
  | .actInFall => Sys2Proof.Machine.execActInFall s
  | .actInRise => Sys2Proof.Machine.execActInRise s
  | .yieldComplete => Sys2Proof.Machine.execYieldComplete s
  | .handover => Sys2Proof.Machine.execHandover s
  | .mirrorConfirmTimeout n => Sys2Proof.Machine.execMirrorConfirmTimeout n s
  | .doorbell n count => Sys2Proof.Machine.execDoorbell n count s
  | .completionDoorbell r count => Sys2Proof.Machine.execCompletionDoorbell r count s
  | .descriptorFetch n ok => Sys2Proof.Machine.execDescriptorFetch n ok s
  | .nopCmd h => Sys2Proof.Machine.execNopCmd h s
  | .dlInsert h list dir stall slot data key => Sys2Proof.Machine.execDlInsert h list dir stall slot data key s
  | .dlCancel h list stall slot => Sys2Proof.Machine.execDlCancel h list stall slot s
  | .stallToken h stall slot data => Sys2Proof.Machine.execStallToken h stall slot data s
  | .coordStep h coord delta duration => Sys2Proof.Machine.execCoordStep h coord delta duration s
  | .overrideSet h coord factor => Sys2Proof.Machine.execOverrideSet h coord factor s
  | .imageLoadLoop h group addr len => Sys2Proof.Machine.execImageLoadLoop h group addr len s
  | .imageLoadFirmware h addr len => Sys2Proof.Machine.execImageLoadFirmware h addr len s
  | .attest h addr len nonce => Sys2Proof.Machine.execAttest h addr len nonce s
  | .status h => Sys2Proof.Machine.execStatus h s
  | .abort h seq => Sys2Proof.Machine.execAbort h seq s
  | .ledgerFull m => Sys2Proof.Machine.execLedgerFull m s
  | .moderationTimeout r => Sys2Proof.Machine.execModerationTimeout r s
  | .linkState c => Sys2Proof.Machine.execLinkState c s
  | .tallyTake k => Sys2Proof.Machine.execTallyTake k s
  | .pctlRead => Sys2Proof.Machine.execPctlRead s
  | .pctlWrite => Sys2Proof.Machine.execPctlWrite s
  | .mirrorCopy point => Sys2Proof.Machine.execMirrorCopy point s
  | .brownout => Sys2Proof.Machine.execBrownout s
  | .deviceReset cause kept => Sys2Proof.Machine.execDeviceReset cause kept s
  | .bootFetch ok => Sys2Proof.Machine.execBootFetch ok s
  | .bootVerify => Sys2Proof.Machine.execBootVerify s
  | .bootComplete => Sys2Proof.Machine.execBootComplete s
  | .bootRetry => Sys2Proof.Machine.execBootRetry s
  | .memStart => Sys2Proof.Machine.execMemStart s
  | .trainingDone failed => Sys2Proof.Machine.execTrainingDone failed s
  | .retrain => Sys2Proof.Machine.execRetrain s
  | .scrub mem addr uncorrectable => Sys2Proof.Machine.execScrub mem addr uncorrectable s
  | .loopAreaWrite => Sys2Proof.Machine.execLoopAreaWrite s
  | .loopAreaReadback bad => Sys2Proof.Machine.execLoopAreaReadback bad s
  | .firmwareSwitched => Sys2Proof.Machine.execFirmwareSwitched s
  | .serviceWatchdog => Sys2Proof.Machine.execServiceWatchdog s
  | .rollbackAdvance cls value => Sys2Proof.Machine.execRollbackAdvance cls value s
  | .keyProgram => Sys2Proof.Machine.execKeyProgram s
  | .keyProgrammed same => Sys2Proof.Machine.execKeyProgrammed same s
  | .keyRevoke => Sys2Proof.Machine.execKeyRevoke s
  | .provision => Sys2Proof.Machine.execProvision s
  | .provisioned healthy => Sys2Proof.Machine.execProvisioned healthy s
  | .debugUnlock => Sys2Proof.Machine.execDebugUnlock s
  | .debugRelock => Sys2Proof.Machine.execDebugRelock s
  | .timingClockReturn => Sys2Proof.Machine.execTimingClockReturn s
  | .resetRelease => Sys2Proof.Machine.execResetRelease s
  | .safetyRegionResetRelease => Sys2Proof.Machine.execSafetyRegionResetRelease s
  | .alwaysOnSourceSwitch vddioAbove => Sys2Proof.Machine.execAlwaysOnSourceSwitch vddioAbove s
  | .pcieFundamentalReset => Sys2Proof.Machine.execPcieFundamentalReset s
  | .registerRead bar2 off bytes => Sys2Proof.Machine.execRegisterRead bar2 off bytes s
  | .storeTakesEffect c posts => Sys2Proof.Machine.execStoreTakesEffect c posts s
  | .postgCheck c => Sys2Proof.Machine.execPostgCheck c s
  | .dliOutcome c => Sys2Proof.Machine.execDliOutcome c s
  | .imageVerified => Sys2Proof.Machine.execImageVerified s

end Sys2Proof.Machine
end

