-- ==== Sys2Proof/Safety.lean ====
section
/-!
DEFINITION. What counts as a safe state of the block, and the vocabulary of the statements: when a loop core may issue,
what an issue leaves in the registers and what it leaves alone, and the frames of the block's other commands.
-/

namespace Sys2Proof.Safety

open Sys2Proof.Machine

/-! ## Memories -/

/-- Every byte memory and the register table are in canonical form. -/
def memoryOk (s : State) : Bool :=
  Tab.wf resetWord s.regs && Tab.wf (fun _ => (0 : Byte)) s.sram && Tab.wf (fun _ => (0 : Byte)) s.dram &&
    Tab.wf (fun _ => (0 : Byte)) s.localMem && Tab.wf (fun _ => (0 : Byte)) s.hostMem &&
    Tab.wf (fun _ => ([] : List Byte)) s.prog

/-! ## Issue of a loop-core instruction -/

/-- The core issues, and nothing about the place of the instruction raises a core fault: it runs and takes no attention
first (R278), its address is that of a word of program memory, in no area that is being loaded, and the word there is an
instruction (R269, R289, R452, R454), the placement rules allow it (R270), and its run is shorter than 256 (R279). -/
def mayIssue (s : State) (c : Nat) (p : Place) : Bool :=
  let x := s.atIssue c
  (s.coreOf c).issues && !s.areaBusy x.pc && decide (x.pc < 0x10000 ∧ x.pc % 4 = 0) && !s.wordIllegal x.pc &&
    !x.misplaced p && decide (x.runLen < 256)

/-- The last entry of a list for a key. -/
def lastFor {α : Type} (es : List (Nat × α)) (k : Nat) : Option α := (es.reverse.find? fun e => e.1 == k).map Prod.snd

/-- A register after an issue that writes `rs`: the load that was pending lands last (R268); sr holds no reserved bit
(R263). -/
def regAfter (x : LCore) (rs : List (Nat × Word)) (k : Nat) : Word :=
  match lastFor (rs ++ x.pend) k with
  | some w => if k = 51 then w &&& 0x37F else w
  | none => x.getR k

/-- An accumulator after an issue that writes `as'`. -/
def accAfter (x : LCore) (as' : List (Nat × BitVec 72)) (k : Nat) : BitVec 72 := (lastFor as' k).getD (x.getA k)

/-- What an issue does to the machine outside the issuing core: the other cores and every BAR0 register but the core's
count of issues stay, and that count rises by one (R295). -/
def countedOnly (s t : State) (c : Nat) : Prop :=
  (∀ k, k ≠ c → t.coreOf k = s.coreOf k) ∧ (∀ a, a ≠ A.LC_ISSUED c → t.reg a = s.reg a) ∧
    t.reg (A.LC_ISSUED c) = s.reg (A.LC_ISSUED c) + 1

/-- What an issue leaves in the issuing core, `x` before and `y` after: the register and accumulator results with the
pending load over them (R267, R268), the load pending from now on, the accumulators an EXT may not read next, the run's
length (R279), a step that is over (R294). Counters of active loop levels are left to the statements on loops. -/
def resultsIn (x y : LCore) (rs : List (Nat × Word)) (as' : List (Nat × BitVec 72)) (load : List (Nat × Word))
    (accBy : List Nat) : Prop :=
  (∀ k, k < 48 ∨ (k = 51 ∧ x.levels ≤ 3) ∨ x.levels = 0 → y.getR k = regAfter x rs k) ∧
    (∀ k, y.getA k = accAfter x as' k) ∧
    y.pend = load ∧ y.accBy = accBy ∧ y.runLen = x.runLen + 1 ∧ y.step = false ∧ y.haltReq = (x.haltReq || x.step)

/-- Outside loops and delay slots the core goes on at the next word. -/
def goesOn (x y : LCore) : Prop :=
  x.levels = 0 → x.branch = none → y.pc = x.pc + 4 ∧ y.levels = 0 ∧ y.branch = none

/-- The part of a core that an issue of an instruction does not touch: its status, stall and execution, its queues of
stores and posts, its attentions but a halt that ends a step, and its accounts of time. -/
def fixedPart (x : LCore) : LCore :=
  { x with r := [], a := [], pc := 0, lstart := [], lend := [], lrep := [], levels := 0, branch := none, pend := [],
           accBy := [], iterEnd := false, runLen := 0, step := false, haltReq := false }

/-- Everything of a core but what an issue may change. -/
def sameRest (x y : LCore) : Prop := fixedPart y = fixedPart x

/-- Everything of the state but the loop cores and the BAR0 registers is as it was: memories, slices, groups, ledgers,
tally, hawker and all other units. -/
def coresOnly (s t : State) : Prop := { t with core := s.core, regs := s.regs } = s

/-- An instruction whose only effect is on its core's registers, and a load that is pending from now on. -/
def completes (s t : State) (c : Nat) (rs : List (Nat × Word)) (as' : List (Nat × BitVec 72)) (accBy : List Nat)
    (load : List (Nat × Word) := []) : Prop :=
  coresOnly s t ∧ countedOnly s t c ∧ resultsIn (s.atIssue c) (t.coreOf c) rs as' load accBy ∧
    goesOn (s.atIssue c) (t.coreOf c) ∧ sameRest (s.atIssue c) (t.coreOf c)

/-- An instruction that leaves its core in a stall of the pipeline, or with one more output queued: of the rest of the
core only the status, the queues and the accounts of time may differ. -/
def queues (s t : State) (c : Nat) (rs : List (Nat × Word)) (as' : List (Nat × BitVec 72)) (accBy : List Nat) : Prop :=
  let idle (x : LCore) : LCore :=
    { fixedPart x with status := .off, holdFrom := 0, busyAcc := 0, busyFrom := 0, stores := [], posts := [], order := 0 }
  coresOnly s t ∧ countedOnly s t c ∧ resultsIn (s.atIssue c) (t.coreOf c) rs as' [] accBy ∧
    goesOn (s.atIssue c) (t.coreOf c) ∧ idle (t.coreOf c) = idle (s.atIssue c)

/-- An instruction that may not issue yet holds its core: nothing else happens, and of the core only its status and its
accounts of time differ (R284). -/
def holds (s t : State) (c : Nat) (w : Waiting) : Prop :=
  let still (x : LCore) : LCore := { x with status := .off, holdFrom := 0, busyAcc := 0, busyFrom := 0 }
  coresOnly s t ∧ t.regs = s.regs ∧ (∀ k, k ≠ c → t.coreOf k = s.coreOf k) ∧ still (t.coreOf c) = still (s.coreOf c) ∧
    (t.coreOf c).status = .stalled w ∧ (t.coreOf c).holdFrom = s.now

/-- The little-endian word at a place of a byte memory (R1). -/
def wordAt (m : Tab Byte) (k : Nat) : Word := memByte m (k + 3) ++ memByte m (k + 2) ++ memByte m (k + 1) ++ memByte m k

/-- Byte i of a word (R1). -/
def byteOf (w : Word) (i : Nat) : Byte := w.extractLsb' (8 * i) 8

/-- A memory operand whose offset is 0 in the modes that have none (R290). -/
def formOk (a : Addr) : Prop := a.mode = 2 ∨ a.off = 0

/-! ## Results under R271 and R272 -/

/-- A value lies outside the signed range of n bits. -/
def offRange (n : Nat) (v : Int) : Bool := v < -(2 ^ (n - 1)) || 2 ^ (n - 1) ≤ v

/-- A result of n bits: the nearer limit of the signed range when it saturates, else the low n bits. -/
def bounded (n : Nat) (sat : Bool) (v : Int) : BitVec n :=
  BitVec.ofInt n (if sat then max (-(2 ^ (n - 1))) (min (2 ^ (n - 1) - 1) v) else v)

/-- sr after results of which some saturated: sv is set (R263). -/
def stickySr (sr : Word) (saturated : Bool) : Word := if saturated then sr ||| 0x40 else sr

/-! ## Frames of the other commands -/

/-- Nothing but BAR0 registers differs, and of these only the ones listed; which W1C bits the clock has set is noted with
them (R13). -/
def regsOnly (s t : State) (as' : List Nat) : Prop :=
  { t with regs := s.regs, raised := s.raised } = s ∧ ∀ a, a ∉ as' → t.reg a = s.reg a

/-- Records enter the tally: no reset waits for its RESET record, and the supply monitor has not warned of a brownout
(R435). -/
def recording (s : State) : Prop := s.pwr.held = false ∧ s.flag F.PIN_SUPPLY_warn = false

/-- A record stands in the tally of t, where s is one in which records enter. -/
def logged (s t : State) : Prop := recording s → t.tly.ring ≠ []

/-- A record of class `cls` and code `code` stands in the tally of t, where s is one in which records enter. -/
def loggedAs (s t : State) (cls code : Nat) : Prop := recording s → ∃ r ∈ t.tly.ring, r.cls = cls ∧ r.code = code

/-- Nothing happens but a tally record (R430, R432), if records enter: no register changes but the tally's count of merges
and its largest occupancy. -/
def onlyRecorded (s t : State) : Prop :=
  logged s t ∧ { t with regs := s.regs, tly := s.tly } = s ∧
    ∀ a, a ≠ A.TLY_MERGED → a ≠ A.TLY_OCC → t.reg a = s.reg a

/-- No comparison of votes has ended, and no repeated read of a point is on its way: a command finds the state as it stands
(R254, R439). -/
def settled (s : State) : Prop := (∀ v ∈ s.hwk.votes, s.clk.time < v.2) ∧ s.fab.tries = []

/-- A token reaches the matching store's input queue, or stays with its source while the queue holds 64 or an earlier token
still waits for room (R241). -/
def putTok (h : Hwk) (t : Tok) : Hwk :=
  if h.held.isEmpty && h.tokens.length < 64 then { h with tokens := tokInsert t h.tokens }
  else { h with held := h.held ++ [t] }

/-- The byte memories are as they were: shared SRAM, DRAM, the cores' local data and program memory. -/
def memoriesStay (s t : State) : Prop :=
  t.sram = s.sram ∧ t.dram = s.dram ∧ t.localMem = s.localMem ∧ t.prog = s.prog

/-- Command c with this header is the next descriptor of its ledger, is disposed of now, passes every check of R403 with
the buffer `bs`, waits for no other device, and begins at once: every command before it has begun, and with FENCE none of
its ledger is outstanding (R410 to R412). -/
def acceptsNow (s : State) (h : CmdHead) (c : HostCmd) (bs : List Byte) : Prop :=
  let n := h.ledger.val
  s.canDispose n = true ∧ h.seq.toNat = (s.cursor n).disposed + 1 ∧ s.checkCmd (descrOf h c) c = .ok bs ∧
    s.mirrorWaits n h.seq.toNat = false ∧ s.hostOut = true ∧
    (∀ o ∈ s.ldg.outst, o.begun = true ∧ (o.ledger ≠ n ∨ o.seq ≠ h.seq.toNat)) ∧
    (h.fence = true → ∀ o ∈ s.ldg.outst, o.ledger ≠ n)

/-- A command has been accepted: its ledger's cursors and its count of consumed descriptors have moved (R396, R406). -/
def accepted (s t : State) (h : CmdHead) : Prop :=
  let n := h.ledger.val
  (t.cursor n).disposed = h.seq.toNat ∧ (t.cursor n).accepted = h.seq.toNat ∧
    t.fld (F.CMD_CONSUMED_count n) = (s.fld (F.CMD_CONSUMED_count n) + 1) % 2 ^ 32

/-- Completion ledger m is free to take `k` descriptors now, and nothing else writes to host memory with them: no earned
final completion waits, the ledgers are restored, host memory may be written, the anchor is off. -/
def ringOpen (s : State) (m k : Nat) : Prop :=
  s.postsCompletions = true ∧ (∀ o ∈ s.ldg.outst, o.final = none) ∧ s.flag F.LDG_STAT_ready = true ∧ s.hostOut = true ∧ s.flag F.LDG_CFG_anchor_en = false ∧
    s.flag (F.CPL_CFG_enable m) = true ∧
    ringHeld (s.fld (F.CPL_PRODUCED_count m)) (s.fld (F.CPL_CONSUMED_count m)) + k ≤ 2 ^ s.fld (F.CPL_CFG_size m)

/-- The descriptor `i` places after the last one posted on completion ledger m of s, as host memory of t holds it. -/
def descriptorAt (s t : State) (m i : Nat) : List Byte :=
  memBytes t.hostMem (s.pair (A.CPL_BASE m) + (s.fld (F.CPL_PRODUCED_count m) + i) % 2 ^ s.fld (F.CPL_CFG_size m) * 64) 64

/-- The phase of that descriptor (R399). -/
def phaseAt (s : State) (m i : Nat) : Nat :=
  phaseOf (s.fld (F.CPL_CFG_size m)) ((s.fld (F.CPL_PRODUCED_count m) + i) % 2 ^ 32)

/-- Every group is OUT. -/
def allOut (t : State) : Prop := ∀ g, g < 8 → t.groupState g = 0

/-- Both STO channels of a group are asserted (R325). -/
def stoOn (t : State) (g : Nat) : Prop := t.bitFld F.SAF_STO_a g = false ∧ t.bitFld F.SAF_STO_b g = false

end Sys2Proof.Safety
end

