-- ==== Sys2Proof/Certificates/Slice0/Obligations.lean ====
section
/-!
DEFINITION. The statements about the model, each a proposition that a prover proves.
-/

open Sys2Proof Sys2Proof.Machine Sys2Proof.Safety

/-! ## The queue of commands -/

/-- A step takes the command at the front of the queue and carries it out on the state with the queue's rest; an empty
queue lets one timing count pass (the model's choice, log 1). -/
def Obligations.StepRunsFrontCommand : Prop :=
  (∀ (s : State) (i : Instr) (rest : List Instr),
      step { s with pending := i :: rest } = exec i { s with pending := rest }) ∧
    ∀ s : State, s.pending = [] → step s = .next s.countTick

/-! ## Loop cores: results -/

/-- ADD, SUB, ADDI, NEG, ABS, MUL, SHL and SHLI complete. R271: the data instructions that saturate write the exact
result bounded to 32 bits, and set sv when it was out of range and sr.sat is set. -/
def Obligations.SaturatingDataInstructions : Prop :=
  ∀ (s : State) (c : Fin 12) (rd rs rt : Fin 16) (imm : BitVec 16) (sh : BitVec 6),
    mayIssue s c .plain →
    let x := s.atIssue c
    let sat := x.sr.getLsbD 8
    ∀ p ∈ [(Instr.add c rd rs rt, (x.d rs).toInt + (x.d rt).toInt),
           (Instr.sub c rd rs rt, (x.d rs).toInt - (x.d rt).toInt),
           (Instr.addi c rd rs imm, (x.d rs).toInt + imm.toInt),
           (Instr.neg c rd rs, -(x.d rs).toInt),
           (Instr.abs c rd rs, |(x.d rs).toInt|),
           (Instr.mul c rd rs rt, (x.d rs).toInt * (x.d rt).toInt),
           (Instr.shl c rd rs rt, (x.d rs).toInt * 2 ^ ((x.d rt).toNat % 64)),
           (Instr.shli c rd rs sh, (x.d rs).toInt * 2 ^ sh.toNat)],
      ∃ t, exec p.1 s = .next t ∧
        completes s t c [(rd, bounded 32 sat p.2), (51, stickySr x.sr (sat && offRange 32 p.2))] [] []

/-- MOVI, MOVHI, MIN, MAX, CLP, AND, OR, XOR, ANDI, ORI, SHR, SHRI, SAR, SARI and NORM complete. R271, R291, R292: the
data instructions that never saturate write one d register; NORM writes the number of leading bits equal to bit 31,
less one. -/
def Obligations.PlainDataInstructions : Prop :=
  (∀ (s : State) (c : Fin 12) (rd rs rt : Fin 16) (imm : BitVec 16) (sh : BitVec 6),
     mayIssue s c .plain →
     let x := s.atIssue c
     let a := x.d rs
     let b := x.d rt
     ∀ p ∈ [(Instr.movi c rd imm, BitVec.ofInt 32 imm.toInt),
            (Instr.movhi c rd imm, (imm ++ BitVec.ofNat 16 (x.d rd).toNat : Word)),
            (Instr.min c rd rs rt, BitVec.ofInt 32 (min a.toInt b.toInt)),
            (Instr.max c rd rs rt, BitVec.ofInt 32 (max a.toInt b.toInt)),
            (Instr.clp c rd rs rt, BitVec.ofInt 32 (min (max a.toInt (-(max b.toInt 0))) (max b.toInt 0))),
            (Instr.and c rd rs rt, a &&& b), (Instr.or c rd rs rt, a ||| b), (Instr.xor c rd rs rt, a ^^^ b),
            (Instr.andi c rd rs imm, a &&& BitVec.ofNat 32 imm.toNat),
            (Instr.ori c rd rs imm, a ||| BitVec.ofNat 32 imm.toNat),
            (Instr.shr c rd rs rt, BitVec.ofNat 32 (a.toNat / 2 ^ (b.toNat % 64))),
            (Instr.shri c rd rs sh, BitVec.ofNat 32 (a.toNat / 2 ^ sh.toNat)),
            (Instr.sar c rd rs rt, BitVec.ofInt 32 (a.toInt / 2 ^ (b.toNat % 64))),
            (Instr.sari c rd rs sh, BitVec.ofInt 32 (a.toInt / 2 ^ sh.toNat))],
       ∃ t, exec p.1 s = .next t ∧ completes s t c [(rd, p.2)] [] []) ∧
  (∀ (s : State) (c : Fin 12) (rd rs : Fin 16), mayIssue s c .plain →
     ∃ (t : State) (n : Nat), exec (.norm c rd rs) s = .next t ∧ completes s t c [(rd, BitVec.ofNat 32 n)] [] [] ∧
       n ≤ 31 ∧
       (∀ k, k ≤ n → ((s.atIssue c).d rs).getLsbD (31 - k) = ((s.atIssue c).d rs).getLsbD 31) ∧
       (n < 31 → ((s.atIssue c).d rs).getLsbD (30 - n) ≠ ((s.atIssue c).d rs).getLsbD 31))

/-- NOP, MOV, SEL, CMP and CMPI complete. R262, R291, R292: NOP changes no register; MOV copies any register 0 to 51,
and cid reads the core's number; SEL chooses by its condition code, read from the flags as the table of R291 says.
R263, R292: CMP and CMPI set z, n, c and v from the subtraction and change no other bit of sr. -/
def Obligations.MovesSelectAndCompares : Prop :=
  (∀ (s : State) (c : Fin 12), mayIssue s c .plain →
     let x := s.atIssue c
     let z := x.sr.getLsbD 0
     let n := x.sr.getLsbD 1
     let cc := x.sr.getLsbD 2
     let v := x.sr.getLsbD 3
     (∃ t, exec (.nop c) s = .next t ∧ completes s t c [] [] []) ∧
     (∀ rd rs : Fin 64, rd.val ≤ 51 → rs.val ≤ 52 →
       ∃ t, exec (.mov c rd rs) s = .next t ∧
         completes s t c [(rd, if rs.val = 52 then BitVec.ofNat 32 c else x.getR rs)] [] []) ∧
     ∀ rd rs rt : Fin 16, ∀ k ∈ [(Cond.AL, true), (.EQ, z), (.NE, !z), (.LT, n != v), (.GE, n == v), (.LE, z || n != v),
         (.GT, !z && n == v), (.LO, !cc), (.HS, cc), (.MI, n), (.PL, !n), (.VS, v), (.VC, !v),
         (.GS, x.sr.getLsbD 4), (.GC, !x.sr.getLsbD 4), (.DF, x.sr.getLsbD 5)],
       ∃ t, exec (.sel c rd rs rt k.1) s = .next t ∧
         completes s t c [(rd, if k.2 then x.d rs else x.d rt)] [] []) ∧
  ∀ (s : State) (c : Fin 12) (rs rt : Fin 16) (imm : BitVec 16), mayIssue s c .plain →
    let x := s.atIssue c
    ∀ p ∈ [(Instr.cmp c rs rt, x.d rt), (Instr.cmpi c rs imm, BitVec.ofInt 32 imm.toInt)],
      let a := x.d rs
      ∃ (t : State) (w : Word), exec p.1 s = .next t ∧ completes s t c [(51, w)] [] [] ∧
        w.getLsbD 0 = decide (a = p.2) ∧ w.getLsbD 1 = decide ((a - p.2).toInt < 0) ∧
        w.getLsbD 2 = decide (p.2.toNat ≤ a.toNat) ∧ w.getLsbD 3 = offRange 32 (a.toInt - p.2.toInt) ∧
        ∀ i, 4 ≤ i → i < 32 → w.getLsbD i = x.sr.getLsbD i

/-- MPY, MAC, MSU, ACLR, ASET, AADD and ASUB complete. R268, R272: the accumulator class writes the exact result
limited to 72 bits, sets sv when it was out of range and sr.asat is set, and marks the accumulator as written by this
instruction. ASET shifts by 40 at most. -/
def Obligations.AccumulatorInstructions : Prop :=
  ∀ (s : State) (c : Fin 12) (ax ay : Fin 4) (ds dt : Fin 16) (sh : BitVec 6), sh.toNat ≤ 40 → mayIssue s c .plain →
    let x := s.atIssue c
    let a := (x.getA ax).toInt
    let asat := x.sr.getLsbD 9
    let product := (x.d ds).toInt * (x.d dt).toInt
    ∀ p ∈ [(Instr.mpy c ax ds dt, product), (Instr.mac c ax ds dt, a + product), (Instr.msu c ax ds dt, a - product),
           (Instr.aclr c ax, 0), (Instr.aset c ax ds sh, (x.d ds).toInt * 2 ^ sh.toNat),
           (Instr.aadd c ax ay, a + (x.getA ay).toInt), (Instr.asub c ax ay, a - (x.getA ay).toInt)],
      ∃ t, exec p.1 s = .next t ∧
        completes s t c [(51, stickySr x.sr (asat && offRange 72 p.2))] [(ax, bounded 72 asat p.2)] [ax]

/-- MAC2 and EXT complete. R268, R271, R272: MAC2 accumulates two products into a pair of accumulators; EXT shifts an
accumulator right, rounding toward minus infinity, and delivers it under R271 unless the instruction before wrote that
accumulator. -/
def Obligations.PairAccumulateAndExtract : Prop :=
  ∀ (s : State) (c : Fin 12), mayIssue s c .plain →
    let x := s.atIssue c
    let asat := x.sr.getLsbD 9
    let sat := x.sr.getLsbD 8
    (∀ (q : Fin 2) (ds dt du dv : Fin 16),
      let v := (x.getA (2 * q.val)).toInt + (x.d ds).toInt * (x.d dt).toInt
      let w := (x.getA (2 * q.val + 1)).toInt + (x.d du).toInt * (x.d dv).toInt
      ∃ t, exec (.mac2 c q ds dt du dv) s = .next t ∧
        completes s t c [(51, stickySr x.sr (asat && (offRange 72 v || offRange 72 w)))]
          [(2 * q.val, bounded 72 asat v), (2 * q.val + 1, bounded 72 asat w)] [2 * q.val, 2 * q.val + 1]) ∧
    ∀ (dd : Fin 16) (ax : Fin 4) (sh : BitVec 6), ax.val ∉ x.accBy →
      let v := (x.getA ax).toInt / 2 ^ sh.toNat
      ∃ t, exec (.ext c dd ax sh) s = .next t ∧
        completes s t c [(dd, bounded 32 sat v), (51, stickySr x.sr (sat && offRange 32 v))] [] []

/-- DSTEP completes. R273: DSTEP is one step of unsigned restoring division; 32 steps divide a 32-bit dividend by any
divisor from 1 to 2^32 - 1, and a divisor of 0 makes every quotient bit 1 and leaves the shifted dividend as the
remainder. -/
def Obligations.DivisionSteps : Prop :=
  (∀ (s : State) (c : Fin 12) (ax : Fin 4) (ds : Fin 16), mayIssue s c .plain →
    let a := (s.atIssue c).getA ax
    let d := (s.atIssue c).d ds
    ∃ t, exec (.dstep c ax ds) s = .next t ∧ completes s t c [] [(ax, divStep a d)] [ax] ∧
      divStep a d = if d.toNat ≤ (a <<< 1).toNat / 2 ^ 32 then ((a <<< 1) - (d.setWidth 72 <<< 32)) ||| 1 else a <<< 1) ∧
  ∀ n d : Word,
    let r := (fun a => divStep a d)^[32] (n.setWidth 72)
    (d ≠ 0 → r.toNat % 2 ^ 32 = n.toNat / d.toNat ∧ r.toNat / 2 ^ 32 % 2 ^ 32 = n.toNat % d.toNat) ∧
    (d = 0 → r.toNat % 2 ^ 32 = 2 ^ 32 - 1 ∧ r.toNat / 2 ^ 32 % 2 ^ 32 = n.toNat)

/-! ## Loop cores: addresses and memory -/

/-- R274: PADD adds without circular correction; a post-modify adds mN, and in a circular buffer (lN not 0, the steps
no longer than it, pN inside it and the buffer inside the address space) it stays in the buffer at the place pN + mN
modulo its length. -/
def Obligations.AddressUpdates : Prop :=
  (∀ (s : State) (c : Fin 12) (p : Fin 8) (imm : BitVec 16), mayIssue s c .plain →
    ∃ t, exec (.padd c p imm) s = .next t ∧
      completes s t c [(16 + p.val, (s.atIssue c).getR (16 + p) + BitVec.ofInt 32 imm.toInt)] [] []) ∧
  (∀ (x : LCore) (p : Fin 8) (off : BitVec 12),
    x.address ⟨p, 0, off⟩ = ((x.getR (16 + p)).toNat, []) ∧
    x.address ⟨p, 1, off⟩ = ((x.getR (16 + p)).toNat, [(16 + p.val, x.postModify p)]) ∧
    x.address ⟨p, 2, off⟩ = ((x.getR (16 + p) + BitVec.ofInt 32 off.toInt).toNat, []) ∧
    x.address ⟨p, 3, off⟩ = ((x.getR (16 + p) + x.getR (24 + p)).toNat, []) ∧
    (x.getR (40 + p) = 0 → x.postModify p = x.getR (16 + p) + x.getR (24 + p))) ∧
  ∀ (x : LCore) (p : Fin 8),
    let pn := (x.getR (16 + p)).toNat
    let b := (x.getR (32 + p)).toNat
    let l := (x.getR (40 + p)).toNat
    let m := (x.getR (24 + p)).toInt
    l ≠ 0 → |m| ≤ l → b ≤ pn → pn < b + l → b + l ≤ 2 ^ 32 →
      b ≤ (x.postModify p).toNat ∧ (x.postModify p).toNat < b + l ∧
        (((x.postModify p).toNat : Int) - b) % l = ((pn : Int) + m - b) % l

/-- R264, R267, R274: LD and LDD from local data memory make their words pending, to be written after the next
instruction, and post-modify the address register; MACL and MSUL accumulate and load at once. R265: a word with a
single-bit error, here of LD, is counted as corrected. -/
def Obligations.LocalLoads : Prop :=
  ∀ (s : State) (c : Fin 12) (a : Addr), mayIssue s c .plain →
    let x := s.atIssue c
    let at' := (x.address a).1
    let key := c.val * 2 ^ 16 + at'
    at' < 0x10000 →
    (∀ r : Fin 64, r.val ≤ 51 → formOk a → at' % 4 = 0 → key ∉ s.localBad →
      (key ∉ s.localSoft → ∃ t, exec (.ld c r a.p a.mode a.off) s = .next t ∧
        completes s t c (x.address a).2 [] [] [(r, wordAt s.localMem key)]) ∧
      (key ∈ s.localSoft → ∃ t, exec (.ld c r a.p a.mode a.off) s = .next t ∧ coresOnly s t ∧
        (t.coreOf c).pend = [(r.val, wordAt s.localMem key)] ∧
        t.fld (F.LC_FCNT_ecc_corr c) = satCount (F.LC_FCNT_ecc_corr c).width (s.fld (F.LC_FCNT_ecc_corr c) + 1))) ∧
    (∀ d : Fin 64, d.val < 16 → d.val % 2 = 0 → formOk a → at' % 8 = 0 → key ∉ s.localBad → key + 4 ∉ s.localBad →
      key ∉ s.localSoft → key + 4 ∉ s.localSoft →
      ∃ t, exec (.ldd c d a.p a.mode a.off) s = .next t ∧
        completes s t c (x.address a).2 [] [] [(d.val, wordAt s.localMem key), (d.val + 1, wordAt s.localMem (key + 4))]) ∧
    ∀ (post : Bool), a = ⟨a.p, if post then 1 else 0, 0⟩ → at' % 4 = 0 → key ∉ s.localBad → key ∉ s.localSoft →
      ∀ (ax : Fin 4) (ds dt dl : Fin 16),
        let asat := x.sr.getLsbD 9
        let product := (x.d ds).toInt * (x.d dt).toInt
        ∀ q ∈ [(Instr.macl c ax ds dt dl a.p post, (x.getA ax).toInt + product),
               (Instr.msul c ax ds dt dl a.p post, (x.getA ax).toInt - product)],
          ∃ t, exec q.1 s = .next t ∧
            completes s t c ((51, stickySr x.sr (asat && offRange 72 q.2)) :: (x.address a).2)
              [(ax, bounded 72 asat q.2)] [ax] [(dl, wordAt s.localMem key)]

/-- R264, R274: ST and STD to local data memory store the bytes of one or two registers at the address of the operand,
little-endian, change no other byte of any memory and nothing of the state but the core's registers. -/
def Obligations.LocalStores : Prop :=
  ∀ (s : State) (c : Fin 12) (a : Addr), mayIssue s c .plain → formOk a →
    let x := s.atIssue c
    let at' := (x.address a).1
    let key := c.val * 2 ^ 16 + at'
    let value (r : Nat) : Word := if r = 52 then BitVec.ofNat 32 c else x.getR r
    let stored (t : State) (ws : List Word) : Prop :=
      { t with core := s.core, regs := s.regs, localMem := s.localMem, localBad := s.localBad,
               localSoft := s.localSoft } = s ∧
      countedOnly s t c ∧ resultsIn x (t.coreOf c) (x.address a).2 [] [] [] ∧ goesOn x (t.coreOf c) ∧
      sameRest x (t.coreOf c) ∧ (∀ w ∈ t.localBad, w ∈ s.localBad) ∧ (∀ w ∈ t.localSoft, w ∈ s.localSoft) ∧
      (∀ j i, j < ws.length → i < 4 → memByte t.localMem (key + 4 * j + i) = byteOf (ws.getD j 0) i) ∧
      ∀ k, k < key ∨ key + 4 * ws.length ≤ k → memByte t.localMem k = memByte s.localMem k
    at' < 0x10000 →
    (∀ r : Fin 64, r.val ≤ 52 → at' % 4 = 0 →
      ∃ t, exec (.st c r a.p a.mode a.off) s = .next t ∧ stored t [value r]) ∧
    ∀ d : Fin 64, d.val < 16 → d.val % 2 = 0 → at' % 8 = 0 →
      ∃ t, exec (.std c d a.p a.mode a.off) s = .next t ∧ stored t [value d.val, value (d.val + 1)]

/-- R264, R266: a load from shared SRAM, and a one-word load through the register window, holds the pipeline from its
issue: the core waits for the data, its post-modify and its accumulator result are already written, and nothing
outside the core changes but its count of issues. -/
def Obligations.SharedAndWindowLoadsHold : Prop :=
  ∀ (s : State) (c : Fin 12) (a : Addr), mayIssue s c .plain →
    let x := s.atIssue c
    let at' := (x.address a).1
    let shared := 0x10000000 ≤ at' ∧ at' < 0x10800000
    let window := 0x20000000 ≤ at' ∧ at' < 0x20400000
    let waits (t : State) (w : Bool) (regs : List Nat) : Prop :=
      (t.coreOf c).status = .stalled (.load w (at' - if w then 0x20000000 else 0x10000000) regs) ∧
        (t.coreOf c).holdFrom = s.now
    (∀ (w : Bool), (if w then window else shared) → at' % 4 = 0 → ∀ r : Fin 64, r.val ≤ 51 → formOk a →
      ∃ t, exec (.ld c r a.p a.mode a.off) s = .next t ∧ queues s t c (x.address a).2 [] [] ∧ waits t w [r]) ∧
    (shared → at' % 8 = 0 → ∀ d : Fin 64, d.val < 16 → d.val % 2 = 0 → formOk a →
      ∃ t, exec (.ldd c d a.p a.mode a.off) s = .next t ∧ queues s t c (x.address a).2 [] [] ∧
        waits t false [d.val, d.val + 1]) ∧
    ∀ (w post : Bool), (if w then window else shared) → a = ⟨a.p, if post then 1 else 0, 0⟩ → at' % 4 = 0 →
      ∀ (ax : Fin 4) (ds dt dl : Fin 16),
        let asat := x.sr.getLsbD 9
        let product := (x.d ds).toInt * (x.d dt).toInt
        ∀ q ∈ [(Instr.macl c ax ds dt dl a.p post, (x.getA ax).toInt + product),
               (Instr.msul c ax ds dt dl a.p post, (x.getA ax).toInt - product)],
          ∃ t, exec q.1 s = .next t ∧
            queues s t c ((51, stickySr x.sr (asat && offRange 72 q.2)) :: (x.address a).2)
              [(ax, bounded 72 asat q.2)] [ax] ∧ waits t w [dl]

/-- R264, R266, R284: outside a dual execution a store to shared SRAM or through the register window joins the core's
store queue, in program order with its other stores and posts; with the queue full the core holds until there is room.
-/
def Obligations.StoresJoinTheQueue : Prop :=
  ∀ (s : State) (c : Fin 12) (a : Addr) (w : Bool), mayIssue s c .plain → formOk a →
    let x := s.atIssue c
    let at' := (x.address a).1
    let value (r : Nat) : Word := if r = 52 then BitVec.ofNat 32 c else x.getR r
    let op (ws : List Word) : StoreOp :=
      { window := w, addr := at' - if w then 0x20000000 else 0x10000000, words := ws, order := x.order }
    let queued (t : State) (ws : List Word) : Prop :=
      queues s t c (x.address a).2 [] [] ∧ (t.coreOf c).order = x.order + 1 ∧ (t.coreOf c).posts = x.posts ∧
        if x.stores.length < 8 then (t.coreOf c).stores = x.stores ++ [op ws] ∧ (t.coreOf c).status = x.status
        else (t.coreOf c).stores = x.stores ∧ (t.coreOf c).status = .stalled (.storeRoom (op ws))
    s.inDual x = false →
    (if w then 0x20000000 ≤ at' ∧ at' < 0x20400000 else 0x10000000 ≤ at' ∧ at' < 0x10800000) →
    (∀ r : Fin 64, r.val ≤ 52 → at' % 4 = 0 →
      ∃ t, exec (.st c r a.p a.mode a.off) s = .next t ∧ queued t [value r]) ∧
    ∀ d : Fin 64, w = false → d.val < 16 → d.val % 2 = 0 → at' % 8 = 0 →
      ∃ t, exec (.std c d a.p a.mode a.off) s = .next t ∧ queued t [value d.val, value (d.val + 1)]

/-- R26, R27, R266, R284: SHARED_LOAD_RETURN of a load from shared SRAM that the interconnect grants: the data comes
back, the core runs again and the loaded word is pending: the word of the core's own latest queued store to that
address, else the word in shared SRAM. A load that is not granted yet waits on. A window load reads the register
named. R254: what votes that have ended decide comes before it. -/
def Obligations.LoadDataReturns : Prop :=
  ∀ (s : State) (c : Fin 12) (off r : Nat),
    let x := s.coreOf c
    settled s →
    let back (t : State) (w : Word) : Prop :=
      (t.coreOf c).status = .running ∧ (t.coreOf c).pend = [(r, w)] ∧ (t.coreOf c).r = x.r ∧ (t.coreOf c).pc = x.pc ∧
        (t.coreOf c).stores = x.stores ∧ t.sram = s.sram
    (x.status = .stalled (.load false off [r]) → s.sramGranted c = false →
      exec (.sharedLoadReturn c) s = .next s) ∧
    (x.status = .stalled (.load false off [r]) → s.sramGranted c = true → off ∉ s.sramBad → s.inDual x = false →
      ∃ t, exec (.sharedLoadReturn c) s = .next t ∧
        (x.stores = [] → back t (wordAt s.sram off)) ∧
        ∀ (os : List StoreOp) (w : Word) (k : Nat),
          x.stores = os ++ [{ window := false, addr := off, words := [w], order := k }] → back t w) ∧
    (x.status = .stalled (.load true off [r]) →
      ∃ t, exec (.sharedLoadReturn c) s = .next t ∧ back t (s.windowLoad c off).2)

/-- R26, R27, R265, R284, R287: STORE_TAKES_EFFECT: the oldest queued store takes effect once the interconnect grants
it: its bytes stand in shared SRAM below the law records, no other byte of it changes, and the queue is one shorter; a
store through the window outside the PWM block is discarded with a record. The oldest entry of the post queue takes
effect once every earlier shared store has: a POST's token reaches the matching store's input queue, or is held while
that is full, with the core's stall as sender. -/
def Obligations.QueuedOutputsTakeEffect : Prop :=
  (∀ (s : State) (c : Fin 12) (o : StoreOp) (os : List StoreOp),
     let x := s.coreOf c
     settled s → x.stores = o :: os → x.status = .running →
     (o.window = false → s.sramGranted c = false → exec (.storeTakesEffect c false) s = .next s) ∧
     (o.window = false → s.sramGranted c = true → o.addr + 4 * o.words.length ≤ 0x7E0000 → s.faults = [] →
       ∃ t, exec (.storeTakesEffect c false) s = .next t ∧ t.coreOf c = { x with stores := os } ∧
         (∀ j i, j < o.words.length → i < 4 →
           memByte t.sram (o.addr + 4 * j + i) = byteOf (o.words.getD j 0) i) ∧
         (∀ k, k < o.addr ∨ o.addr + 4 * o.words.length ≤ k → memByte t.sram k = memByte s.sram k) ∧
         (∀ a, t.reg a = s.reg a) ∧ t.localMem = s.localMem ∧ t.dram = s.dram ∧ t.hostMem = s.hostMem) ∧
     (o.window = true → inPwm o.addr = false →
       ∃ t, exec (.storeTakesEffect c false) s = .next t ∧ t.coreOf c = { x with stores := os } ∧
         (∀ a, a ≠ A.TLY_MERGED → a ≠ A.TLY_OCC → t.reg a = s.reg a) ∧ t.sram = s.sram)) ∧
  (∀ (s : State) (c : Fin 12) (o : PostOp) (os : List PostOp) (st slot : Nat) (d : Word),
     let x := s.coreOf c
     let tok : Tok := { stall := st, slot := slot, data := d, source := 9, sender := o.sender, stamp := none,
                        late := false, sent := s.clk.time, cmd := none }
     settled s → x.posts = o :: os → x.status = .running → o.out = .post st slot d → st ≠ 0 →
     ∃ t, exec (.storeTakesEffect c true) s = .next t ∧
       (x.postReady o = false → t = s) ∧
       (x.postReady o = true →
         t.coreOf c = { x with posts := os } ∧
         (∀ k, k ≠ c.val → t.coreOf k = s.coreOf k) ∧
         t.hwk = putTok s.hwk tok ∧
         { t with core := s.core, hwk := s.hwk } = s))

/-! ## Loop cores: control flow -/

/-- R269: B, CALL and JR issue and leave two delay slots; CALL writes its address plus 12 to p7. Outside loops, a
branch and the two instructions after it lead to the target when the branch is taken, and to the third word after the
branch when it is not. -/
def Obligations.BranchesAndTheirSlots : Prop :=
  (∀ (s : State) (c : Fin 12), mayIssue s c .branch →
     let x := s.atIssue c
     let branches (t : State) (rs : List (Nat × Word)) (goal : Option Nat) : Prop :=
       coresOnly s t ∧ countedOnly s t c ∧ resultsIn x (t.coreOf c) rs [] [] [] ∧ sameRest x (t.coreOf c) ∧
         (t.coreOf c).pc = x.pc + 4 ∧ (t.coreOf c).levels = x.levels ∧
         (t.coreOf c).branch = some { target := goal, slots := 2 }
     let place (off : BitVec 16) : Nat := (BitVec.ofInt 32 ((x.pc : Int) + 4 * off.toInt)).toNat
     (∀ (k : Cond) (off : BitVec 16), ∃ t, exec (.b c k off) s = .next t ∧
       branches t [] (if condHolds x.sr k then some (place off) else none)) ∧
     (∀ off : BitVec 16, ∃ t, exec (.call c off) s = .next t ∧
       branches t [(23, BitVec.ofNat 32 (x.pc + 12))] (some (place off))) ∧
     ∀ p : Fin 8,
       let goal := (x.getR (16 + p)).toNat
       goal % 4 = 0 → goal < 0x10000 → ∃ t, exec (.jr c p) s = .next t ∧ branches t [] (some goal)) ∧
  (∀ (s : State) (c : Fin 12) (k : Cond) (off : BitVec 16), mayIssue s c .branch → s.sec.job = none →
     let x := s.atIssue c
     x.levels = 0 → x.pc + 8 < 0x10000 → x.runLen ≤ 253 →
     s.wordIllegal (x.pc + 4) = false → s.wordIllegal (x.pc + 8) = false →
     ∃ t, Sys2Proof.core.run 3 { s with pending := [.b c k off, .nop c, .nop c] } = .next t ∧
       (t.coreOf c).pc = if condHolds x.sr k then (BitVec.ofInt 32 ((x.pc : Int) + 4 * off.toInt)).toNat else x.pc + 12)

/-- R275, R276: REP, REPR, BLK and BLKR with a count of 0 skip their body and enter no level; with another count they
enter the next level with that count, over the body that follows. R268: a load pending for that level's counter takes
the count's place. -/
def Obligations.LoopsEnterOrSkip : Prop :=
  ∀ (s : State) (c : Fin 12) (n8 : BitVec 8) (n16 : BitVec 16) (ds : Fin 16) (len : BitVec 8),
    let x := s.atIssue c
    ∀ q ∈ [(Instr.rep c n8, true, n8.toNat, 1), (Instr.repr c ds, true, (x.d ds).toNat, 1),
           (Instr.blk c n16 len, false, n16.toNat, len.toNat + 1),
           (Instr.blkr c ds len, false, (x.d ds).toNat, len.toNat + 1)],
      let n := q.2.2.1
      mayIssue s c (if q.2.1 then .rep else .blk) → n ≤ (if q.2.1 then 255 else 65535) →
      (n = 0 → ∃ t, exec q.1 s = .next t ∧ coresOnly s t ∧ countedOnly s t c ∧
        resultsIn x (t.coreOf c) [] [] [] [] ∧ sameRest x (t.coreOf c) ∧
        (x.levels = 0 → (t.coreOf c).pc = x.pc + 4 + 4 * q.2.2.2 ∧ (t.coreOf c).levels = 0)) ∧
      (n ≠ 0 → x.levels < 3 → ∃ t, exec q.1 s = .next t ∧ coresOnly s t ∧ countedOnly s t c ∧
        sameRest x (t.coreOf c) ∧ (t.coreOf c).pc = x.pc + 4 ∧ (t.coreOf c).levels = x.levels + 1 ∧
        tabNat (t.coreOf c).lstart x.levels = x.pc + 4 ∧
        tabNat (t.coreOf c).lend x.levels = x.pc + 4 * q.2.2.2 ∧ (t.coreOf c).isRep x.levels = q.2.1 ∧
        ∀ k, (t.coreOf c).getR k = regAfter x [(48 + x.levels, BitVec.ofNat 32 n)] k)

/-- R275, R276: REP #n and n repeats of the instruction that follows, and BLK #n, #len and n times len issues of its
body, leave the loop with the core at the word after it and no level active; before, the core is inside the body with
the rest of the count. (R268: no load is pending for the counter.) -/
def Obligations.LoopsRepeatTheirBodies : Prop :=
  (∀ (s : State) (c : Fin 12) (n : BitVec 8) (k : Nat), mayIssue s c .rep → s.sec.job = none → n ≠ 0 → k ≤ n.toNat →
     let x := s.atIssue c
     (∀ e ∈ x.pend, e.1 ≠ 48) → x.levels = 0 → x.pc + 4 < 0x10000 → s.wordIllegal (x.pc + 4) = false → x.runLen + n.toNat ≤ 255 →
     ∃ t, Sys2Proof.core.run (k + 1) { s with pending := .rep c n :: List.replicate k (.nop c) } = .next t ∧
       if k < n.toNat then
         (t.coreOf c).pc = x.pc + 4 ∧ (t.coreOf c).levels = 1 ∧ (t.coreOf c).getR 48 = BitVec.ofNat 32 (n.toNat - k)
       else (t.coreOf c).pc = x.pc + 8 ∧ (t.coreOf c).levels = 0) ∧
  (∀ (s : State) (c : Fin 12) (n : BitVec 16) (len : BitVec 8) (k : Nat), mayIssue s c .blk → s.sec.job = none →
     let x := s.atIssue c
     let words := len.toNat + 1
     n ≠ 0 → (∀ e ∈ x.pend, e.1 ≠ 48) → x.runLen + words ≤ 255 → k ≤ n.toNat * words → x.levels = 0 → x.pc + 4 * words < 0x10000 →
     x.haltReq = false → x.preempt = false → x.step = false →
     (∀ j, 1 ≤ j → j ≤ words → s.wordIllegal (x.pc + 4 * j) = false) →
     ∃ t, Sys2Proof.core.run (k + 1) { s with pending := .blk c n len :: List.replicate k (.nop c) } = .next t ∧
       if k < n.toNat * words then
         (t.coreOf c).pc = x.pc + 4 + 4 * (k % words) ∧ (t.coreOf c).levels = 1 ∧
           (t.coreOf c).getR 48 = BitVec.ofNat 32 (n.toNat - k / words)
       else (t.coreOf c).pc = x.pc + 4 + 4 * words ∧ (t.coreOf c).levels = 0)

/-! ## Loop cores: stalls, posts and outcomes -/

/-- R245, R284: TAKE waits for work from the moment it issues; SYNC issues at once when no store and no post of the
core is outstanding and holds the core, without issuing, otherwise; BKPT asks for a halt when debug is open and
enabled for the core (R294), and is a NOP otherwise. R237, R245, R284: DONE of a stall that is not dual issues and
ends the execution once every store and post of it has taken effect, and holds the core, without issuing, until then:
the stall's runs rise by one, a stall that does not re-arm is IDLE, and the core goes on at its idle address with no
stall and no loop level. R210, R212: with the execution, the run of the library law that an enabled record of the
stall names ends too, and its count of runs rises by one. R219, R221, R231: what such a run does with skips, an
integrator and a ramped reference. TAKE, SYNC, BKPT and DONE complete. -/
def Obligations.TakeSyncBreakpointAndDone : Prop :=
  (∀ (s : State) (c : Fin 12),
     let x := s.atIssue c
     (mayIssue s c .take → x.withdraw = false →
       ∃ t, exec (.take c) s = .next t ∧ coresOnly s t ∧ countedOnly s t c ∧ resultsIn x (t.coreOf c) [] [] [] [] ∧
         (t.coreOf c).status = .take ∧ (t.coreOf c).takeSince = s.now ∧ (t.coreOf c).preempt = false) ∧
     (mayIssue s c .plain → ∃ t, exec (.sync c) s = .next t ∧
       if x.stores = [] ∧ x.posts = [] then completes s t c [] [] []
       else holds s t c .sync) ∧
     (mayIssue s c .bkpt → ∃ t, exec (.bkpt c) s = .next t ∧
       if s.debugOpen && s.flag (F.LC_DBG_bkpt_en c) then
         coresOnly s t ∧ countedOnly s t c ∧ sameRest x (t.coreOf c) ∧ (t.coreOf c).haltReq = true
       else completes s t c [] [] [])) ∧
  (∀ r : List Byte, r.length = 256 →
     let consec := min (bytesAt r 226 2 + 1) 65535
     let skipped := lawSkips true r
     (lawState r ≠ Law.idle →
       bytesAt skipped.1 226 2 = consec ∧ bytesAt skipped.1 228 4 = min (bytesAt r 228 4 + 1) (2 ^ 32 - 1) ∧
       skipped.2 = (if bytesAt r 5 1 ≤ consec ∧ lawState r ≠ Law.fault then some 3 else none)) ∧
     ∀ skip : Bool, skip = false ∨ lawState r = Law.idle →
       bytesAt (lawSkips skip r).1 226 2 = 0 ∧ (lawSkips skip r).2 = none) ∧
  (∀ i inc unsat satd lim : Int, 0 ≤ lim → lim < 2 ^ 31 →
     integrate i inc unsat satd lim =
       if satd < unsat ∧ 0 < inc ∨ unsat < satd ∧ inc < 0 then i else max (-lim) (min lim (i + inc))) ∧
  (∀ r x soft : Int, 0 < soft → -(2 ^ 31) ≤ r → r < 2 ^ 31 → -(2 ^ 31) ≤ x → x < 2 ^ 31 →
     ramped r x soft = if soft < x - r then r + soft else if soft < r - x then r - soft else x) ∧
  ∀ (s : State) (c : Fin 12) (rearm : Bool), mayIssue s c .done →
    let x := s.atIssue c
    let n := x.stall
    n < 256 → (s.stallOf n).dual = false →
    ∃ t, exec (.done c rearm) s = .next t ∧
      ((x.stores ≠ [] ∨ x.posts ≠ []) →
        holds s t c (.done rearm)) ∧
      (x.stores = [] → x.posts = [] → (∀ w ∈ s.hwk.lawWait, w.1 ≠ n) → 1 ≤ s.lawByte n 0 → s.lawByte n 0 ≤ 4 →
        (s.lawByte n 2).testBit 0 = true → (s.stallOf n).snapFresh.testBit 7 = false →
        wordAt t.sram (0x7E0000 + n * 0x100 + 252) = wordAt s.sram (0x7E0000 + n * 0x100 + 252) + 1) ∧
      (x.stores = [] → x.posts = [] → s.flag (F.ST_CFG_enable n) = true → (s.stallOf n).wasOff = false →
        (∀ w ∈ s.hwk.lawWait, w.1 ≠ n) → s.lawByte n 0 = 0 ∨ 4 < s.lawByte n 0 →
        (∀ g, g < 8 → (s.grpOf g).ffStart = none ∨ s.fld (F.MG_FF_stall g) ≠ n) →
        (t.coreOf c).stall = 0 ∧ (t.coreOf c).status = .running ∧ (t.coreOf c).levels = 0 ∧
          (t.coreOf c).pc = s.fld (F.HC_IDLE_addr c) ∧
          t.fld (F.ST_RUNS_runs n) = min (s.fld (F.ST_RUNS_runs n) + 1) (2 ^ 32 - 1) ∧
          (rearm = false → t.stallState n = 4) ∧
          (rearm = true → (s.freshBits n &&& s.fld (F.ST_CFG_mask n)) ≠ s.fld (F.ST_CFG_mask n) → t.stallState n = 1))

/-- R284, R286, R287: outside a dual execution POST and DLC join the core's post queue with the fields of their
operands, the running stall as sender, in program order; with the queue full the core holds. DLC of a list above 4
does not. -/
def Obligations.PostsJoinTheQueue : Prop :=
  ∀ (s : State) (c : Fin 12) (dA dB : Fin 16), mayIssue s c .token →
    let x := s.atIssue c
    let a := (x.d dA).toNat
    s.inDual x = false →
    ∀ q ∈ [(Instr.post c dA dB, Held.post (a % 256) (a / 256 % 8) (x.d dB), true),
           (Instr.dlc c dA, Held.dlc (a / 2 ^ 12 % 8) (a % 256) (a / 256 % 8), decide (a / 2 ^ 12 % 8 ≤ 4))],
      q.2.2 = true →
      let op : PostOp := { out := q.2.1, sender := x.stall, order := x.order }
      ∃ t, exec q.1 s = .next t ∧ queues s t c [] [] [] ∧ (t.coreOf c).order = x.order + 1 ∧
        (t.coreOf c).stores = x.stores ∧
        if x.posts.length < 8 then (t.coreOf c).posts = x.posts ++ [op] ∧ (t.coreOf c).status = x.status
        else (t.coreOf c).posts = x.posts ∧ (t.coreOf c).status = .stalled (.postRoom op)

/-- R285 to R287: outside a dual execution POSTG, CMTG and DLI hold the pipeline with the fields of their operands
until their outcome returns; the load that was pending stays pending. -/
def Obligations.GuardedOperationsHold : Prop :=
  ∀ (s : State) (c : Fin 12) (dK dA dB ds : Fin 16), mayIssue s c .token →
    let x := s.atIssue c
    let a := (x.d dA).toNat
    let m := a / 2 ^ 12 % 8
    let dir := if m = 0 then 0 else a / 2 ^ 16 % 4
    let key := (x.d dK).toNat + (x.getR (dK.val + 1)).toNat * 2 ^ 32
    s.inDual x = false →
    ∀ q ∈ [(Instr.postg c dA dB, Waiting.postg (a / 2 ^ 16 % 64) (a % 256) (a / 256 % 8) (x.d dB), true),
           (Instr.cmtg c ds, Waiting.cmtg ((x.d ds).toNat % 64), true),
           (Instr.dli c dK dA dB, Waiting.dli m dir (a % 256) (a / 256 % 8) (x.d dB) key,
             decide (dK.val % 2 = 0 ∧ m ≤ 4 ∧ dir ≠ 3))],
      q.2.2 = true →
      ∃ t, exec q.1 s = .next t ∧ coresOnly s t ∧ countedOnly s t c ∧ (t.coreOf c).status = .stalled q.2.1 ∧
        (t.coreOf c).holdFrom = s.now ∧ (t.coreOf c).pend = x.pend ∧ (∀ k, k < 48 → (t.coreOf c).getR k = x.getR k) ∧
        (t.coreOf c).a = x.a ∧ goesOn x (t.coreOf c)

/-- CMTG_ARRIVAL, POSTG_CHECK and DLI_OUTCOME complete. R251, R285 to R287: the request of a CMTG reaches its slice
once no window store of the core is outstanding, and g says whether it committed; the check of a POSTG comes once no
shared store and no post is outstanding, and the token leaves when the slice's carrier start is at least 16 counts
away; the outcome of a DLI is dlf, 1 when the list was full. -/
def Obligations.GuardedOutcomesReturn : Prop :=
  (∀ (s : State) (c : Fin 12) (n : Nat),
     let x := s.coreOf c
     x.status = .stalled (.cmtg n) → (∀ o ∈ x.stores, o.window = false) →
     ∃ t, exec (.cmtgArrival c) s = .next t ∧ (t.coreOf c).status = .running ∧ (t.coreOf c).pend = [] ∧
       (x.pend = [] → (t.coreOf c).sr.getLsbD 4 = (decide (16 ≤ s.rem n) && !s.quietMode n)) ∧
       (s.rem n < 16 → t.slice = s.slice ∧ ∀ a, a ≠ A.LC_STALLED c → t.reg a = s.reg a) ∧
       (16 ≤ s.rem n → t.slice = (s.commitSlice n).slice)) ∧
  (∀ (s : State) (c : Fin 12) (n st slot : Nat) (d : Word),
     let x := s.coreOf c
     x.status = .stalled (.postg n st slot d) → x.posts = [] → (∀ o ∈ x.stores, o.window = true) →
     s.inDual x = false → st ≠ 0 →
     ∃ t, exec (.postgCheck c) s = .next t ∧ (t.coreOf c).status = .running ∧
       (x.pend = [] → (t.coreOf c).sr.getLsbD 4 = decide (16 ≤ s.rem n)) ∧
       t.hwk = if 16 ≤ s.rem n then
           putTok s.hwk { stall := st, slot := slot, data := d, source := 9, sender := x.stall, stamp := none, late := false,
                          sent := s.clk.time, cmd := none }
         else s.hwk) ∧
  (∀ (s : State) (c : Fin 12) (m dir st slot : Nat) (d : Word) (key : Nat),
     let x := s.coreOf c
     x.status = .stalled (.dli m dir st slot d key) →
     ∃ t, exec (.dliOutcome c) s = .next t ∧ (t.coreOf c).status = .running ∧
       (x.pend = [] → (t.coreOf c).sr.getLsbD 5 = s.dlFull m) ∧
       (s.dlFull m = false → t.dl = (s.dlInsertEntry m dir st slot d key none).dl) ∧
       (s.dlFull m = true → t.dl = (s.dlRefuse m st slot).dl))

/-! ## Loop cores: faults, attentions, debug -/

/-- R293: what raises each core fault outside a stall, and what follows: cause, stall and address are recorded, the
faults are counted, and the core is OFF. In an execution that is not dual, here OPERAND of a DLI that names a list
above 4, the stall is IDLE and the core goes on at its idle address with no stall. -/
def Obligations.CoreFaults : Prop :=
  (∀ (s : State) (c : Fin 12) (i : Instr) (code : Nat),
     let x := s.atIssue c
     let at' (p : Fin 8) : Nat := (x.getR (16 + p)).toNat
     (s.coreOf c).issues = true → x.stall = 0 → s.areaBusy x.pc = false →
     (i = .nop c ∧ code = 7 ∧ 0x10000 ≤ x.pc ∨ i = .nop c ∧ code = 8 ∧ x.pc < 0x10000 ∧ x.pc % 4 ≠ 0 ∨
      i = .nop c ∧ code = 1 ∧ x.pc < 0x10000 ∧ x.pc % 4 = 0 ∧ s.wordIllegal x.pc = true ∨
       x.pc < 0x10000 ∧ x.pc % 4 = 0 ∧ s.wordIllegal x.pc = false ∧
         ((∃ rd rs : Fin 64, i = .mov c rd rs ∧ (51 < rd.val ∨ 52 < rs.val) ∧ code = 1) ∨
          (∃ (k : Cond) (off : BitVec 16), i = .b c k off ∧ x.inSlot = true ∧ code = 2) ∨
          (i = .post c 0 0 ∧ code = 2) ∨
          (∃ (dd : Fin 16) (ax : Fin 4) (sh : BitVec 6), i = .ext c dd ax sh ∧ x.runLen < 256 ∧ ax.val ∈ x.accBy ∧ code = 3) ∨
          (i = .nop c ∧ 256 ≤ x.runLen ∧ code = 4) ∨
          (∃ ds : Fin 16, i = .repr c ds ∧ mayIssue s c .rep ∧ 255 < (x.d ds).toNat ∧ code = 5) ∨
          (∃ (n : BitVec 16) (len : BitVec 8), i = .blk c n len ∧ mayIssue s c .blk ∧ n ≠ 0 ∧ 3 ≤ x.levels ∧ code = 6) ∨
          (∃ (r : Fin 64) (p : Fin 8), i = .ld c r p 0 0 ∧ mayIssue s c .plain ∧ r.val ≤ 51 ∧
            0x20400000 ≤ at' p ∧ code = 7) ∨
          (∃ (r : Fin 64) (p : Fin 8), i = .st c r p 0 0 ∧ mayIssue s c .plain ∧ r.val ≤ 52 ∧
            at' p < 0x10000 ∧ at' p % 4 ≠ 0 ∧ code = 8) ∨
          (∃ (r : Fin 64) (p : Fin 8), i = .ld c r p 0 0 ∧ mayIssue s c .plain ∧ r.val ≤ 51 ∧
            at' p < 0x10000 ∧ at' p % 4 = 0 ∧ c.val * 2 ^ 16 + at' p ∈ s.localBad ∧ code = 10))) →
     ∃ t, exec i s = .next t ∧ t.fld (F.LC_FAULT_cause c) = code ∧ t.fld (F.LC_FAULT_stall c) = 0 ∧
       t.fld (F.LC_FAULT_PC_addr c) = x.pc % 2 ^ 16 ∧
       t.fld (F.LC_FCNT_faults c) = min (s.fld (F.LC_FCNT_faults c) + 1) 65535 ∧
       (t.coreOf c).status = .off ∧ (∀ k, (t.coreOf c).getR k = regAfter x [] k) ∧ (t.coreOf c).a = x.a ∧
       t.localMem = s.localMem ∧ t.sram = s.sram ∧ t.reg (A.LC_ISSUED c) = s.reg (A.LC_ISSUED c)) ∧
  (∀ (s : State) (c : Fin 12) (dK dA dB : Fin 16), mayIssue s c .token →
     let x := s.atIssue c
     let n := x.stall
     n < 256 → (s.stallOf n).dual = false → s.flag (F.ST_CFG_enable n) = true → (s.stallOf n).wasOff = false →
     (∀ w ∈ s.hwk.lawWait, w.1 ≠ n) → dK.val % 2 = 0 → 4 < (x.d dA).toNat / 2 ^ 12 % 8 →
     ∃ t, exec (.dli c dK dA dB) s = .next t ∧ t.fld (F.LC_FAULT_cause c) = 9 ∧ t.fld (F.LC_FAULT_stall c) = n ∧
       t.fld (F.LC_FAULT_PC_addr c) = x.pc % 2 ^ 16 ∧ t.stallState n = 4 ∧ (t.coreOf c).stall = 0 ∧
       (t.coreOf c).status = .running ∧ (t.coreOf c).pc = s.fld (F.HC_IDLE_addr c) ∧ (t.coreOf c).stores = x.stores ∧
       (t.coreOf c).posts = x.posts ∧ t.dl = s.dl)

/-- ATTENTION completes. R246, R280, R283: a core that stands at an attention point takes a halt attention first and
holds its context; else a preempt attention saves the context for the stall, which is READY again, and the core waits
in TAKE. Inside a run no attention is taken. R280, R284: so it is of a core that holds before a SYNC or DONE that may
not issue yet: its stores and posts stay on their way. -/
def Obligations.AttentionsAreTaken : Prop :=
  (∀ (s : State) (c : Fin 12),
    let x := s.coreOf c
    x.status = .running → x.ctx = none →
    (x.atPoint = true → x.haltReq = true →
      ∃ t, exec (.attention c) s = .next t ∧ coresOnly s t ∧ t.regs = s.regs ∧
        (t.coreOf c).ctx = some x.context ∧ (t.coreOf c).haltReq = false ∧ (t.coreOf c).status = .running) ∧
    (x.atPoint = true → x.haltReq = false → x.preempt = true → x.stall ≠ 0 → x.stall < 256 → x.withdraw = false →
      ∃ t, exec (.attention c) s = .next t ∧ (t.coreOf c).status = .take ∧ (t.coreOf c).stall = 0 ∧
        (t.stallOf x.stall).saved = some x.context ∧ t.stallState x.stall = 2 ∧
        ∃ b, { stall := x.stall, exec := x.exec, ready := (s.stallOf x.stall).ready, restore := true, asked := b } ∈
          t.hwk.queue) ∧
    (x.atPoint = false → exec (.attention c) s = .next s)) ∧
  ∀ (s : State) (c : Fin 12) (w : Waiting), w = .sync ∨ w = .done true ∨ w = .done false →
    let x := s.coreOf c
    x.status = .stalled w → x.ctx = none →
    (x.atPoint = true → x.haltReq = true →
      ∃ t, exec (.attention c) s = .next t ∧ coresOnly s t ∧ (∀ a, a ≠ A.LC_STALLED c → t.reg a = s.reg a) ∧
        (t.coreOf c).ctx.isSome = true ∧ (t.coreOf c).haltReq = false ∧ (t.coreOf c).stores = x.stores ∧
        (t.coreOf c).posts = x.posts) ∧
    (x.atPoint = false → exec (.attention c) s = .next s)

/-- DBG_HALT, DBG_RESUME, DBG_STEP and DREG_WRITE complete. R294, R295: with debug open and outside BOOT, DBG.halt
asks a running core for a halt; a halted core resumes from its context, with another halt asked for after a step; a
DREG write changes one word of a halted core's context. With debug closed each of these is discarded: no core changes.
-/
def Obligations.DebugCommands : Prop :=
  ∀ (s : State) (c : Fin 12) (k : Fin 96) (w : Word), s.cellMode ≠ 1 →
    let x := s.coreOf c
    (s.debugOpen = false → ∀ i ∈ [Instr.dbgHalt c, .dbgResume c, .dbgStep c, .dregWrite c k w],
      ∃ t, exec i s = .next t ∧ t.core = s.core ∧ logged s t ∧
        ∀ a, a ≠ A.TLY_MERGED → a ≠ A.TLY_OCC → t.reg a = s.reg a) ∧
    (s.debugOpen = true →
      (x.ctx = none → ∃ t, exec (.dbgHalt c) s = .next t ∧ coresOnly s t ∧ t.regs = s.regs ∧
        t.coreOf c = { x with haltReq := true }) ∧
      (∀ ws : List Word, x.ctx = some ws → x.withdraw = false → x.haltedInTake = false →
        (∃ t, exec (.dbgResume c) s = .next t ∧ coresOnly s t ∧ t.regs = s.regs ∧ (t.coreOf c).ctx = none ∧
          (t.coreOf c).status = .running ∧ (t.coreOf c).step = false ∧
          (t.coreOf c).pc = (ws.getD 71 0).toNat ∧ ∀ j, j < 16 → (t.coreOf c).getR j = ws.getD j 0) ∧
        (∃ t, exec (.dbgStep c) s = .next t ∧ coresOnly s t ∧ t.regs = s.regs ∧ (t.coreOf c).ctx = none ∧
          (t.coreOf c).status = .running ∧ (t.coreOf c).step = true ∧
          (t.coreOf c).pc = (ws.getD 71 0).toNat) ∧
        ∃ t, exec (.dregWrite c k w) s = .next t ∧ coresOnly s t ∧ t.regs = s.regs ∧
          (t.coreOf c).ctx = some (ws.set k w)))

/-! ## Slices, banks and faults -/

/-- R174, R484: a comparator asserts its output for every input more than 6 codes beyond its threshold, and for none
more than 6 codes inside it; an output that is asserted goes back for every input more than 10 codes inside.
SLICE_TRIP completes. R18, R19, R174, R175: a comparator side that is enabled, that its threshold lets an input pass
and that has stayed asserted for CFG.filt counts, or a reported feedback error of ERRCFG.trip, sets the trip latch of
its slice with every side present, counts the trip and inhibits the slice, and the group that owns the slice is OUT;
no other group changes state. TRIP_CLEAR completes. R16, R176: a host write of 1 to TRIP.clr clears the latch and its
sources when the slice is unassigned or its group OUT, nothing that trips it is present and no restriction of its bank
or of the chip stands; otherwise the write is discarded with a record. -/
def Obligations.TripsLatchAndClear : Prop :=
  let onSide (s : State) (n : Nat) (v : PhaseVolts) (i : Nat) : Bool :=
    s.flag (if i < 2 then F.OC_CFG_ia_en n else F.OC_CFG_ib_en n) &&
      decide (if i % 2 = 0 then s.fld (F.OC_TH_high n (i / 2)) < 4095 else 0 < s.fld (F.OC_TH_low n (i / 2))) &&
      sideOn (i % 2 == 0) (if i % 2 = 0 then s.fld (F.OC_TH_high n (i / 2)) else s.fld (F.OC_TH_low n (i / 2)))
        (Config.comparatorError (4 * n + i)) ((s.sliceOf n).sides.testBit i) (if i < 2 then v.ia else v.ib).toInt
  (∀ (above on : Bool) (th err : Nat) (nv : Int),
     let beyond := (if above then 1 else -1) * ((nv - 750000000) * 4096 - ((th : Int) - 2048) * 1500000000)
     (6 * 1500000000 < beyond → sideOn above th err on nv = true) ∧
       (beyond < -((if on then 10 else 6) * 1500000000) → sideOn above th err on nv = false)) ∧
  (∀ (s : State) (n : Fin 64) (src : SideLevels) (err : BitVec 8),
     let sides := ((List.range 4).map fun i => if onSide s n src.volts i then 2 ^ i else 0).sum
     let errs := err.toNat &&& s.fld (F.FB_ERRCFG_trip n)
     (∃ i, i < 4 ∧ onSide s n src.volts i = true ∧ s.fld (F.OC_CFG_filt n) ≤ src.held.toNat / 2 ^ (5 * i) % 32) ∨
       errs ≠ 0 →
     s.flag (F.OC_TRIP_latched n) = false →
     ∃ t, exec (.sliceTrip n src err) s = .next t ∧ t.flag (F.OC_TRIP_latched n) = true ∧
       t.fld (F.OC_TRIP_src n) = sides ∧ (errs ≠ 0 → t.flag (F.OC_TRIP_fbk n) = true) ∧ (t.sliceOf n).drive = false ∧
       t.fld (F.OC_CNT_trips n) = min (s.fld (F.OC_CNT_trips n) + 1) (2 ^ (F.OC_CNT_trips n).width - 1) ∧
       (∀ g, s.sliceGroup n = some g → t.groupState g = 0) ∧
       (∀ g, g < 8 → s.sliceGroup n ≠ some g → t.groupState g = s.groupState g) ∧ memoriesStay s t) ∧
  (∀ (s : State) (n : Fin 64) (volts : PhaseVolts), s.cellMode ≠ 1 →
     let seen := s.setSides n (s.sidesOf n volts)
     let present := (∃ i, i < 4 ∧ onSide s n volts i = true) ∨
       s.fld (F.FB_ERR_src n) &&& s.fld (F.FB_ERRCFG_trip n) ≠ 0
     let free := (∀ g, s.sliceGroup n = some g → s.groupState g = 0) ∧
       s.bitFld F.SYS_FAULT_bank_inh (n.val / 8) = false ∧ s.cellMode ≠ 7
     (free → ¬ present → ∃ t, exec (.tripClear n volts) s = .next t ∧ regsOnly seen t [A.OC_TRIP n] ∧
       t.flag (F.OC_TRIP_latched n) = false ∧ t.fld (F.OC_TRIP_src n) = 0 ∧ t.flag (F.OC_TRIP_fbk n) = false) ∧
     (¬ free ∨ present → ∃ t, exec (.tripClear n volts) s = .next t ∧ onlyRecorded seen t))

/-- BANK_FAULT completes. R20, R37: a bank fault sets the bank's bit of SYS.FAULT and of SYS.FAULT_STICKY, inhibits
its eight slices and takes every group that owns one of them to OUT. BANK_RETEST_REQUEST and BANK_RETEST complete.
R16, R21: a retest may be asked of a bank that is inhibited, has no retest running and whose groups are OUT, outside
DEGRADED; a pass clears the bank's fault and puts every comparator back into service, and a failing check leaves the
fault and sets failed; with no retest running nothing happens. -/
def Obligations.BankFaultsAndRetests : Prop :=
  (∀ (s : State) (b : Fin 8) (cause : Fin 5),
     ∃ t, exec (.bankFault b cause) s = .next t ∧ (t.reg A.SYS_FAULT).getLsbD b = true ∧
       (t.reg A.SYS_FAULT_STICKY).getLsbD b = true ∧ (∀ k, k < 8 → (t.sliceOf (8 * b.val + k)).drive = false) ∧
       (∀ g, g < 8 → (∃ k, k < 8 ∧ s.sliceGroup (8 * b.val + k) = some g) → t.groupState g = 0) ∧
       (∀ g, g < 8 → (∀ k, k < 8 → s.sliceGroup (8 * b.val + k) ≠ some g) → t.groupState g = s.groupState g) ∧
       memoriesStay s t) ∧
  ((∀ (s : State) (mask : BitVec 8), s.cellMode ≠ 1 →
     let fit (b : Nat) : Prop := s.bitFld F.SYS_FAULT_bank_inh b = true ∧ s.bitFld F.SYS_BANKCLR_busy b = false ∧
       s.cellMode ≠ 7 ∧ ∀ g ∈ s.bankGroups b, s.groupState g = 0 ∧ (s.grpOf g).start = none
     ((∀ b, b < 8 → mask.getLsbD b = true → fit b) →
       ∃ t, exec (.bankRetestRequest mask) s = .next t ∧ regsOnly s t [A.SYS_BANKCLR] ∧
         ∀ b, b < 8 → t.bitFld F.SYS_BANKCLR_busy b = (mask.getLsbD b || s.bitFld F.SYS_BANKCLR_busy b)) ∧
     ((∀ b, b < 8 → mask.getLsbD b = true → ¬ fit b) → mask ≠ 0 →
       ∃ t, exec (.bankRetestRequest mask) s = .next t ∧ onlyRecorded s t)) ∧
   ∀ (s : State) (b : Fin 8) (found : RetestResult),
     (s.bitFld F.SYS_BANKCLR_busy b = false → exec (.bankRetest b found) s = .next s) ∧
     (s.bitFld F.SYS_BANKCLR_busy b = true →
     ∃ t, exec (.bankRetest b found) s = .next t ∧ t.bitFld F.SYS_BANKCLR_busy b = false ∧
       (found.conv = 0 → found.comp = 0 → found.sync = false → found.trip = 0 →
         (t.reg A.SYS_FAULT).getLsbD b = false ∧ t.bitFld F.SYS_BANKCLR_failed b = false ∧ (t.bankOf b).compOut = 0) ∧
       (found.conv ≠ 0 ∨ found.comp ≠ 0 ∨ found.sync = true ∨ found.trip ≠ 0 →
         (t.reg A.SYS_FAULT).getLsbD b = (s.reg A.SYS_FAULT).getLsbD b ∧ t.bitFld F.SYS_BANKCLR_failed b = true)))

/-- ESCALATED, TCLK_LOST, SAFETY_FAULT and TIMING_CLOCK_RETURN complete. R22, R24, R37, R70, R151, R298: an open fault
that has stood for SYS.ESCALATE.time takes a cell that is out of BOOT to DEGRADED, after that time; with none nothing
happens. The loss of the timing clock and a fault of the safety region take such a cell to DEGRADED and assert STO at
once on every group; what is lost or at fault already stays so. A code of SAFETY_FAULT that names no fault of the
region changes nothing (the model's choice, log 82). The return of the timing clock ends its fault. -/
def Obligations.EscalationDegradesTheCell : Prop :=
  ∀ (s : State), 2 ≤ s.cellMode →
    let degraded (t : State) : Prop := t.cellMode = 7 ∧ (t.reg A.SYS_FAULT).getLsbD 12 = true ∧ memoriesStay s t
    (∀ f : OpenFault, s.faults.find? (fun f => !f.escalated) = some f →
      ∃ t, exec .escalated s = .next t ∧ degraded t ∧
        (s.tclkGone = false → (f.since + s.fld ⟨A.SYS_ESCALATE, 0, 16⟩ * 1000) * nsUnit < t.clk.time)) ∧
    ((∀ f ∈ s.faults, f.escalated = true) → exec .escalated s = .next s) ∧
    (s.tclkGone = true → exec .tclkLost s = .next s) ∧
    (∀ cause : BitVec 4, s.flag F.SAF_STATUS_fault = true → exec (.safetyFault cause) s = .next s) ∧
    (s.tclkGone = false → exec .timingClockReturn s = .next s) ∧
    (s.tclkGone = false → ∃ t, exec .tclkLost s = .next t ∧ degraded t ∧ t.tclkGone = true ∧ allOut t ∧
      (∀ g, g < 8 → stoOn t g) ∧ (t.reg A.SYS_FAULT).getLsbD 11 = true ∧ t.flag F.PIN_CLK_ref_ok = false) ∧
    (∀ cause : BitVec 4, cause = 0 ∨ 7 ≤ cause.toNat → exec (.safetyFault cause) s = .next s) ∧
    (∀ cause : BitVec 4, 1 ≤ cause.toNat → cause.toNat ≤ 6 → s.flag F.SAF_STATUS_fault = false →
      ∃ t, exec (.safetyFault cause) s = .next t ∧ degraded t ∧
      allOut t ∧ (∀ g, g < 8 → stoOn t g) ∧ (t.reg A.SYS_FAULT).getLsbD 9 = true ∧ t.flag F.SAF_STATUS_fault = true ∧
      t.fld F.SAF_STATUS_fault_cause = cause.toNat) ∧
    (s.tclkGone = true → s.pwr.held = false → ∃ t, exec .timingClockReturn s = .next t ∧ t.tclkGone = false ∧
      (t.reg A.SYS_FAULT).getLsbD 11 = false ∧ t.flag F.PIN_CLK_ref_ok = true ∧ t.cellMode = s.cellMode)

/-! ## Modes and groups -/

/-- EPOCH, GROUP_CONFIRM, CHANGE_FAILED, MODE_REQ_SUBMIT and PEER_TIMEOUT complete. R81 to R83: at its epoch a change
becomes confirming, with the groups that are not OUT as participants when it leads between modes that drive or from
STANDBY to one; once every participant and every peer has confirmed, the cell takes the target and the outcome is 1;
past its deadline it fails, the outcome is 2 and the cell takes the more restrictive of the modes. R87, R92: a write
of 3 to MODE.REQ in CONFIGURE that meets every condition becomes the pending change to STANDBY at REQ_EPOCH, a write
of 2 does nothing, and one outside CONFIGURE is discarded; a peer that falls silent takes a cell with no change
pending from a drive mode to STANDBY. -/
def Obligations.CellModeChange : Prop :=
  (∀ (s : State) (c : Change), s.mode.change = some c → c.target < 8 → c.old < 8 →
     (c.confirming = false → s.cellMode ∈ [3, 4, 5, 6] → c.target ∈ [4, 5, 6] →
       (∃ g, g < 8 ∧ s.groupState g ≠ 0 ∧ s.flag (F.GRP_STATUS_confirmed g) = false) →
       ∃ (t : State) (ps : Nat), exec .epoch s = .next t ∧
         t.mode.change = some { c with confirming := true, participants := ps } ∧ t.fld F.MODE_CELL_change = 2 ∧
         t.cellMode = s.cellMode ∧ ∀ g, g < 8 → ps.testBit g = decide (s.groupState g ≠ 0)) ∧
     (∀ g : Fin 8, c.confirming = true → s.now ≤ s.changeDeadline c → c.participants.testBit g = true →
       s.fld F.MODE_XCFG_peers = 0 →
       (∀ k, k < 8 → k ≠ g.val → c.participants.testBit k = true → s.flag (F.GRP_STATUS_confirmed k) = true) →
       ∃ t, exec (.groupConfirm g) s = .next t ∧ t.cellMode = c.target ∧ t.mode.change = none ∧
         t.fld F.MODE_LAST_outcome = 1 ∧ t.fld F.MODE_CELL_change = 0) ∧
     (c.confirming = true →
       ∃ t, exec .changeFailed s = .next t ∧ t.mode.change = none ∧ t.fld F.MODE_LAST_outcome = 2 ∧
         t.fld F.MODE_CELL_change = 0 ∧ modeRank t.cellMode ≥ modeRank c.old ∧ modeRank t.cellMode ≥ modeRank c.target ∧
         modeRank t.cellMode ≥ modeRank s.cellMode)) ∧
  (∀ (s : State),
     (s.cellMode = 2 → s.isStandby = false →
       s.changeCheck 3 (s.pair A.MODE_REQ_EPOCH) (s.epochBoundary (s.pair A.MODE_REQ_EPOCH)) = none →
       ∃ t, exec (.modeReqSubmit 3) s = .next t ∧ t.cellMode = 2 ∧ t.fld F.MODE_CELL_target = 3 ∧
         t.fld F.MODE_CELL_change = 1 ∧ t.pair A.MODE_EPOCH = s.pair A.MODE_REQ_EPOCH ∧
         t.mode.change = some { id := 0, target := 3, epoch := s.pair A.MODE_REQ_EPOCH, old := 2, cmd := none }) ∧
     (s.cellMode ≠ 1 → exec (.modeReqSubmit 2) s = .next s) ∧
     (s.cellMode ≠ 1 → s.cellMode ≠ 2 → ∃ t, exec (.modeReqSubmit 3) s = .next t ∧ onlyRecorded s t) ∧
     ∀ (node : BitVec 12) (p : Peer), s.cellMode ∈ [4, 5, 6] → s.mode.change = none →
       (node.toNat, p) ∈ s.mode.peers → s.fld F.MODE_XCFG_timeout ≤ p.age →
       ∃ t, exec (.peerTimeout node) s = .next t ∧ t.cellMode = 3 ∧ memoriesStay s t)

/-- LOOPS_RUNNING, LAW_START_TIMEOUT and STOP_TIMEOUT complete. R73, R76, R233, R324: a starting group whose laws all
run is HOLD with its brakes released; one of whose laws has not run 100 ms after START is OUT still, with STO
asserted; a group whose stop has run out is OUT, a protective stop with reason SAFETY; one that the last separation
cycle found at standstill ends as it would have on reaching it, and goes on with its ramp where it leads to HOLD. -/
def Obligations.GroupHandshakes : Prop :=
  ∀ (s : State) (g : Fin 8),
    ((s.grpOf g).start ≠ none → s.lawFaulted g = false → s.lawsRunning g = true →
      ∃ t, exec (.loopsRunning g) s = .next t ∧ t.groupState g = 1 ∧ (t.grpOf g).start = none ∧
        (∀ n ∈ s.groupSlices g, t.brakeReleased n = true) ∧ memoriesStay s t) ∧
    (s.groupState g = 0 → (s.grpOf g).start ≠ none →
      ∃ t, exec (.lawStartTimeout g) s = .next t ∧ t.groupState g = 0 ∧ (t.grpOf g).start = none ∧ stoOn t g ∧
        (∀ n ∈ s.groupSlices g, t.brakeReleased n = false ∧ (t.sliceOf n).drive = false) ∧ memoriesStay s t) ∧
    (∀ x : Stop, (s.grpOf g).stop = some x → x.target ≠ 0 → s.flag (F.SG_STAT_pstop g) = true →
      s.flag (F.SG_STAT_still g) = true → exec (.stopTimeout g) s = .next (s.advanceTo (x.deadline * nsUnit))) ∧
    (∀ x : Stop, s.groupState g ≠ 0 → (s.grpOf g).stop = some x →
      x.target = 0 ∨ s.flag (F.SG_STAT_pstop g) = false ∨ s.flag (F.SG_STAT_still g) = false →
      ∃ t, exec (.stopTimeout g) s = .next t ∧ t.groupState g = 0 ∧ (t.grpOf g).stop = none ∧ stoOn t g ∧
        t.fld (F.GRP_STATUS_reason g) = (if s.flag (F.SG_STAT_pstop g) && !s.flag (F.SG_STAT_still g) then 5
          else x.reason % 16) ∧
        (∀ n ∈ s.groupSlices g, t.brakeReleased n = false ∧ (t.sliceOf n).drive = false) ∧ memoriesStay s t)

/-! ## PWM slices -/

/-- CARRIER, RELOAD, OUTPUT_EDGE and COMMIT complete. R40, R131, R133, R134, R138: once the carrier grid runs, a
carrier start sets the counter to 0, ends the hold and makes the reload due; that reload transfers the pending
shadows, with the period first and each duty limited to L = floor(P x DUTYMAX.max / 1,024), and clears the pending
flag; the trailing edge of an output ends its active time. R138, R140, R155: outside BOOT a COMMIT that falls in no
count of a carrier start or a reload makes the slice's shadows pending; in quiet stepper mode it is discarded and
STATUS.genwr is set. -/
def Obligations.CarrierReloadEdgesAndCommit : Prop :=
  (∀ (s : State) (n : Fin 64),
     let x := s.sliceOf n
     x.frozen = none →
     (s.flag F.RT_STATUS_grid = false → ∀ good, exec (.carrier n good) s = .next s) ∧
     (s.flag F.RT_STATUS_grid = true → x.carrierDue = false → x.begun = false ∨ x.carrierAt ≠ s.clk.raw → ∃ t, exec (.carrier n true) s = .next t ∧ (t.sliceOf n).held = false ∧
       (t.sliceOf n).index = 0 ∧ (t.sliceOf n).carrierDue = true ∧ (t.sliceOf n).carrierAt = t.clk.raw ∧
       (t.sliceOf n).reloadAt = t.clk.raw ∧ (t.sliceOf n).syncMiss = 0 ∧ memoriesStay s t) ∧
     (x.held = false → x.carrierDue = true → (x.early = false ∨ x.reloadAt ≠ s.clk.raw) → s.quietMode n = false →
       s.flag (F.S_STATUS_pending n) = true → x.periodOnly = false →
       let p := s.fld (F.S_PERIOD_period n)
       s.dividesCarrier n p = true →
       ∃ t, exec (.reload n) s = .next t ∧ (t.sliceOf n).carrierDue = false ∧ (t.sliceOf n).index = 0 ∧
         t.flag (F.S_STATUS_pending n) = false ∧ t.fld (F.S_ACT_PERIOD_period n) = p ∧
         ∀ o, o < 4 →
           let d := s.fld (F.S_DUTY_count n o)
           let f := s.fineOf n o (s.fld (F.S_DUTY_fine n o))
           let l := p * s.fld (F.S_DUTYMAX_max n) / 1024
           t.fld (F.S_ACT_DUTY_duty n o) = (if 64 * l < 64 * d + f then l else d + f * 2 ^ 16) % 2 ^ 22) ∧
     ∀ o : Fin 4, x.held = false → x.carrierDue = false → x.wave.testBit o = true →
       s.fld (F.S_ACT_DUTY_duty n o) % 2 ^ 16 < s.periodOf n → s.tclkGone = false → x.reloadAt ≤ s.clk.raw →
       ∃ t, exec (.outputEdge n o) s = .next t ∧ (t.sliceOf n).wave.testBit o = false ∧
         (∀ k, k ≠ o.val → (t.sliceOf n).wave.testBit k = x.wave.testBit k) ∧
         t.clk.raw = max s.clk.raw (x.reloadAt + (s.fld (F.S_ACT_DUTY_duty n o) % 2 ^ 16 * countUnit : Nat)) ∧
         memoriesStay s t) ∧
  ∀ (s : State) (n : Fin 64), s.cellMode ≠ 1 → (s.sliceOf n).wrote = [] →
    (s.quietMode n = false → s.reloadHere n = false → s.carrierHere n = false → (s.sliceOf n).wasTransfer = false →
      ∃ t, exec (.commit n) s = .next t ∧ t.flag (F.S_STATUS_pending n) = true ∧
        (t.sliceOf n).committed = ((s.sliceOf n).committed || !((s.sliceOf n).held && (s.sliceOf n).resumed)) ∧
        (∀ a, a ≠ A.S_STATUS n → t.reg a = s.reg a) ∧ memoriesStay s t) ∧
    (s.quietMode n = true → ∃ t, exec (.commit n) s = .next t ∧ t.flag (F.S_STATUS_genwr n) = true ∧
      (∀ a, a ≠ A.S_STATUS n → t.reg a = s.reg a) ∧ memoriesStay s t)

/-- CALIBRATION, MOTION_HALT, MOTION_RESUME and BANK_RATE_APPLY complete. R90, R143, R144, R151, R154: a measurement
of a bank's spare delay line in range gives its tap count, one out of range retires the line; a debug halt freezes
every slice and takes every group to OUT, and the resume holds every slice to its next carrier start and first COMMIT;
a waiting rate of a bank takes effect with its offset. -/
def Obligations.CalibrationHaltAndRates : Prop :=
  ∀ (s : State),
    (∀ (n : Fin 64) (l : Fin 5) (m : BitVec 7) (good : Bool), (s.lineOf n l).retired = false → s.tclkGone = false →
      ∃ t, exec (.calibration n l m good) s = .next t ∧ t.fld (F.BANK_CAL_taps (n.val / 8)) = m.toNat ∧
        (64 ≤ m.toNat → good = true → (s.bankOf (n.val / 8)).swap = none →
          s.lineServing n 4 = l.val ∨ s.lineServing n 4 = 5 → (t.lineOf n l).m = m.toNat ∧ (t.lineOf n l).retired = false) ∧
        (m.toNat < 64 ∨ good = false → (t.lineOf n l).retired = true ∧
          t.fld (F.BANK_CAL_failed (n.val / 8)) = min (s.fld (F.BANK_CAL_failed (n.val / 8)) + 1) 255)) ∧
    (s.cellMode ≠ 1 → s.debugOpen = true → s.motionHalted = false →
      ∃ t, exec .motionHalt s = .next t ∧ t.motionHalted = true ∧ t.flag F.LCR_RHALT_halted = true ∧ allOut t ∧
        (∀ n, n < 64 → (t.sliceOf n).frozen ≠ none) ∧ memoriesStay s t) ∧
    (s.cellMode ≠ 1 → s.debugOpen = true → s.motionHalted = true → s.tclkGone = false →
      ∃ t, exec .motionResume s = .next t ∧ t.motionHalted = false ∧ t.flag F.LCR_RHALT_halted = false ∧
        (∀ n, n < 64 → (t.sliceOf n).frozen = none ∧ (t.sliceOf n).held = true ∧ (t.sliceOf n).waitCommit = true ∧
          (t.sliceOf n).drive = false) ∧ memoriesStay s t) ∧
    ∀ b : Fin 8, (s.bankOf b).rateWait = true →
      ∃ t, exec .bankRateApply s = .next t ∧ (t.bankOf b).rateWait = false ∧
        (t.bankOf b).rate = fieldOf (s.reg A.MODE_BANK) (2 * b.val) 2 ∧ (t.bankOf b).offset = s.fld (F.BANK_OFFSET_offset b) ∧
        ∀ k, k < 8 → (s.sliceOf (8 * b.val + k)).frozen = none →
          (t.sliceOf (8 * b.val + k)).held = true ∧ (t.sliceOf (8 * b.val + k)).drive = false

/-! ## Converters -/

/-- ADC_TRIGGER, CONVERSION_END and CONVERTER_FAILURE complete. R160 to R162, R165, R168, R171, R173, R178: with the
timing clock, a due timer of an idle converter starts the sequence of its entries, at the gain and depth that its
clock found; the conversion that ends a one-entry sequence of depth 1, 1.0 us after its start, leaves its code, VALID
and a count of 1 in the entry's result, the ridge time of its sample, 0.25 us after the start, in the stamp, and the
converter idle, and channels 9 and 10 stand at 0.75 V and 0 V; a conversion that never ends is a fault of the bank, or
of the service region for CM. -/
def Obligations.ConversionsRun : Prop :=
  ∀ (s : State) (c : Fin 25),
    (∀ (e : Fin 16) (m : Int), ((s.convOf c).entry e).due.head? = some m → (s.convOf c).run = none →
      s.tclkGone = false → (∀ k, k < 16 → k ≠ e.val → ((s.convOf c).entry k).due.head? ≠ some m) →
      let u := s.advanceRaw m
      let gain := u.clockFld (F.CV_SEQ_CFG_gain c e)
      let depth := u.clockFld (F.CV_SEQ_CFG_depth c e)
      ∃ t, exec (.adcTrigger c e) s = .next t ∧ t.flag (F.CV_STATUS_busy c) = true ∧ t.clk = u.clk ∧
        (t.convOf c).run = some { entries := [(e.val, gain, depth)], convs := 0, start := m,
                                  stamp := u.ridgeAt (m + 250 * 2 ^ 32) / 2 ^ 32 } ∧
        ((t.convOf c).entry e).due = ((s.convOf c).entry e).due.drop 1 ∧ ∀ a, a ≠ A.CV_STATUS c → t.reg a = s.reg a) ∧
    (∀ (e : Fin 16) (g : Nat) (volts : BitVec 32) (r : CvRun),
      (s.convOf c).run = some r → r.entries = [(e.val, g, 0)] → r.convs = 0 → (s.convOf c).pendingTrig = none →
      ((s.convOf c).entry e).skip = 0 → ((s.convOf c).entry e).depth = 0 → ((s.convOf c).entry e).filter.length ≤ 1 →
      s.fld (F.CV_SEQ_DEST_stall c e) = 0 → s.tclkGone = false →
      let ch := s.fld (F.CV_SEQ_CFG_channel c e)
      let nv : Int := if ch = 9 then 750000000 else if ch = 10 then 0 else volts.toInt
      let v := 2048 + 4096 * 2 ^ ((s.convOf c).entry e).gain * (nv - 750000000) / 1500000000
      let code := (max 0 (min 4095 v)).toNat
      ∃ t, exec (.conversionEnd c (some volts)) s = .next t ∧ (t.convOf c).run = none ∧
        t.flag (F.CV_STATUS_busy c) = false ∧
        t.pair (A.CV_STAMP c e) = r.stamp % 2 ^ 64 ∧ t.clk = (s.advanceRaw (r.start + 1000 * 2 ^ 32)).clk ∧
        t.reg (A.CV_RES c e) = BitVec.ofNat 32
          (code + 2 ^ 12 + (if v < 0 ∨ 4095 < v then 2 ^ 14 else 0) + 2 ^ 16)) ∧
    (c.val < 24 → (s.convOf c).run = none → exec (.converterFailure c) s = .next s) ∧
    ((s.convOf c).run ≠ none ∨ c.val = 24 →
    ∃ t, exec (.converterFailure c) s = .next t ∧ t.flag (F.CV_STATUS_fail c) = true ∧
      (c.val < 24 → (t.reg A.SYS_FAULT).getLsbD (c.val / 3) = true ∧
        ∀ k, k < 8 → (t.sliceOf (8 * (c.val / 3) + k)).drive = false) ∧
      (c.val = 24 → t.slice = s.slice ∧ t.grp = s.grp ∧ t.reg A.SYS_FAULT = s.reg A.SYS_FAULT))

/-- COMPARATOR_SELFTEST, COMPARATOR_TEST_END and CM_CONVERSION complete. R177: a comparator self-test begins at a
multiple of 1 ms and withdraws the comparator of the next role, unless one is out of service; 10 us later a pass makes
it the spare, and a failure takes it out of service and is a fault of the bank. R179, R485, R486: the conversions of
CM leave nine valid results with their stamps, 1 us apart from the start of the interval, and a supply shows as good
when its code lies within its range. -/
def Obligations.ComparatorTestsAndChipConverter : Prop :=
  ∀ (s : State),
    (∀ b : Fin 8, (s.bankOf b).compOut = 0 → (s.bankOf b).test = none →
      ∃ t, exec (.comparatorSelftest b) s = .next t ∧ (t.bankOf b).test = some (s.bankOf b).nextRole ∧
        (s.tclkGone = false → t.now % 1000000 = 0 ∧ s.now ≤ t.now) ∧ (t.bankOf b).lastTest = some t.now ∧
        t.regs = s.regs ∧ memoriesStay s t) ∧
    (∀ b : Fin 8, (s.bankOf b).compOut ≠ 0 ∨ (s.bankOf b).test ≠ none →
      ∃ t, exec (.comparatorSelftest b) s = .next t ∧ (t.bankOf b).test = (s.bankOf b).test ∧ t.regs = s.regs ∧
        memoriesStay s t) ∧
    (∀ (b : Fin 8) (role : Nat), (s.bankOf b).test = some role → role < 16 →
      (∀ pass : Bool, ∃ t, exec (.comparatorTestEnd b pass) s = .next t ∧
        (s.tclkGone = false → (s.bankOf b).lastTest.getD 0 + 10000 ≤ t.now)) ∧
      (∃ t, exec (.comparatorTestEnd b true) s = .next t ∧ (t.bankOf b).test = none ∧
        t.fld (F.OCB_STAT_spare b) = role ∧ (t.bankOf b).nextRole = (role + 1) % 16) ∧
      ∃ t, exec (.comparatorTestEnd b false) s = .next t ∧ (t.bankOf b).test = none ∧
        (t.bankOf b).compOut.testBit role = true ∧ t.flag (F.OCB_STAT_fail b) = true ∧
        (t.reg A.SYS_FAULT).getLsbD b = true) ∧
    ∀ codes : List (BitVec 12), codes.length = 9 → s.tclkGone = false →
      let code (i : Nat) : Nat := (codes.getD i 0).toNat
      let good (i : Nat) : Bool := decide ((cmRange i).1 ≤ code i ∧ code i ≤ (cmRange i).2)
      ∃ t, exec (.cmConversion codes) s = .next t ∧ s.cmInterval + 9000 ≤ t.now ∧ t.free = s.free ∧
        (∀ i, i < 9 → t.reg (A.CV_RES 24 i) = BitVec.ofNat 32 (code i + 2 ^ 12 + 2 ^ 16) ∧
          t.pair (A.CV_STAMP 24 i) = (s.cmInterval + 1000 * i + 250) % 2 ^ 64) ∧
        (∀ i, i < 4 → t.bitFld F.PIN_SUPPLY_ok i = good i) ∧ t.flag F.PIN_SUPPLY_vbat_ok = good 4

/-! ## Time, coordinates, compare, delay lists -/

/-- COORDINATE_TICK completes. R24, R50: with the timing clock a coordinate tick brings ridge time to a multiple of 1
us that is not yet handled, the next one where ridge time has not come to it; without the clock there is no tick. R51,
R54, R56: at the tick every RIDGE coordinate moves by its scale times the factor in force, as its setup stood before
the tick's count, within the limits of its value (here with no command outstanding and no vote, separation cycle or
repeated read that ends by the tick). The update of a coordinate shows the whole part of its value and its state. -/
def Obligations.CoordinateTickMovesTheCoordinates : Prop :=
  ∀ (s : State),
    (s.tclkGone = true → exec .coordinateTick s = .next s) ∧
    (s.tclkGone = false → s.hwk.votes = [] → s.saf.published = none → s.fab.tries = [] → s.ldg.outst = [] →
      let u := s.toTick
      s.clk.lastTick < u.now ∧ u.now % 1000 = 0 ∧ s.now ≤ u.now ∧ u.clk.lastTick = u.now ∧
      (s.clk.lastTick % 1000 = 0 → s.now < s.clk.lastTick + 1000 → u.now = s.clk.lastTick + 1000) ∧
      ∃ t, exec .coordinateTick s = .next t ∧
        ∀ n : Fin 16, u.asOf.coordSource n = 1 →
          let f := (u.factorTick n).fld (F.K_FACTOR_f n)
          let v := (s.coordOf n).value + u.asOf.ipair (A.K_SCALE n) * f * coordUnit / (1024 * 1000000)
          (t.coordOf n).prev = (s.coordOf n).value ∧ (t.coordOf n).value = max coordMin (min coordMax v)) ∧
    ∀ n : Fin 16, s.asOf.coordSource n = 1 → (s.coordOf n).override = [] → s.coordState n ≠ 3 →
      let t := s.coordTick n
      let v := (s.coordOf n).value +
        s.asOf.ipair (A.K_SCALE n) * t.fld (F.K_FACTOR_f n) * coordUnit / (1024 * 1000000)
      (t.coordOf n).prev = (s.coordOf n).value ∧ (t.coordOf n).value = max coordMin (min coordMax v) ∧
        t.ipair (A.K_VALUE n) = (t.coordOf n).value / coordUnit ∧
        (coordMin ≤ v → v ≤ coordMax → t.coordState n = 1) ∧ (v < coordMin ∨ coordMax < v → t.coordState n = 3)

/-- CMP_LATE, COMPARE_OUTPUT_ACTION, COMPARE_PULSE_END, DL_ENTRY_FIRE and PITCH_TIMEOUT complete. R61, R74, R114,
R122, R124, R239: unless DEGRADED has stopped the compare unit, a late compare entry without repeats fires once the
batten schedule runs and leaves the unit; an output action gives the compare output its level, and a pulse its end;
the end of a pulse clears the output; the next due entry of a delay list sends its token with the instant of its key;
a pitch request that times out with no grant leaves the queue INTERRUPTED with cause 4. -/
def Obligations.CompareAndDelayEvents : Prop :=
  ∀ (s : State),
    (s.scheduleRuns = false ∨ s.motionStopped = true → exec .cmpLate s = .next s) ∧
    (s.motionStopped = true → exec .compareOutputAction s = .next s) ∧
    (∀ e : CmpEntry, s.scheduleRuns = true → s.motionStopped = false → s.cmp.entries = [e] → e.coord < 16 →
      e.lateSince ≠ none → e.rep = 0 →
      ∃ t, exec .cmpLate s = .next t ∧ t.cmp.entries = [] ∧
        t.fld F.CMP_CNT1_late_cnt = min (s.fld F.CMP_CNT1_late_cnt + 1) 65535) ∧
    (∀ a : CmpAction, s.cmp.actions = [a] → a.out < 4 → s.tclkGone = false → s.motionStopped = false →
      ∃ t, exec .compareOutputAction s = .next t ∧ t.cmp.actions = [] ∧ t.clk.time = max s.clk.time a.due ∧
        t.flag (F.FB_FSTAT_cmp a.slice) = (if a.out = 1 then false else if a.out = 2 then !s.flag (F.FB_FSTAT_cmp a.slice)
          else true) ∧
        t.pulseOf a.slice = (if a.out = 3 then some (t.clk.time + a.width * countUnit) else none)) ∧
    (∀ (n : Fin 64) (m : Moment), s.pulseOf n = some m →
      ∃ t, exec (.comparePulseEnd n) s = .next t ∧ t.flag (F.FB_FSTAT_cmp n) = false ∧ t.pulseOf n = none ∧
        ∀ a, a ≠ A.FB_FSTAT n → t.reg a = s.reg a) ∧
    (∀ (m : Fin 5) (e : DlEntry) (i : Nat) (rest : List (DlEntry × Nat)), (s.dlist m).due = (e, i) :: rest → e.stall ≠ 0 →
      ∃ t, exec (.dlEntryFire m) s = .next t ∧ (t.dlist m).due = rest ∧ (t.dlist m).entries = (s.dlist m).entries ∧
        t.hwk = putTok s.hwk { stall := e.stall, slot := e.slot, data := e.data, source := 4, port := m, sender := 0,
                               stamp := some i, late := e.late, sent := s.clk.time, cmd := none } ∧
        t.regs = s.regs) ∧
    ∀ (g : Fin 8) (c : Track), (s.grpOf g).cur = some c → c.seg.kind = 4 → c.seg.timeout ≠ 0 → s.queueState g ≠ 5 →
      c.passed = false → s.pitchGranted g c.seg.pitch = false →
      ∃ t, exec (.pitchTimeout g) s = .next t ∧ t.queueState g = 5 ∧ t.fld (F.MG_QSTAT_reason g) = 4 ∧
        t.groupState g = s.groupState g ∧ memoriesStay s t

/-- PPS_EDGE, PPS_LOST and CIVIL_SET complete. R46 to R49: an edge of the enabled 1PPS input with the selected
polarity is accepted when it is the first or falls within 500 us of one second after the last, else counted as
discarded; an accepted edge is stamped, its error is civil time modulo one second taken to the nearest, and pps_ok
says whether it is at most 1,000 ns; after 2.5 s without an edge pps_lost is set; a host write of the civil map is
applied and recorded, and a rate out of range is discarded. -/
def Obligations.CivilTimeFollowsThePps : Prop :=
  ∀ (s : State),
    (∀ rising : Bool, s.flag F.RT_CTRL_pps_en = true → rising = !s.flag F.RT_CTRL_pps_pol →
      let near := ∀ p, s.clk.pps = some p → p + 1000000000 ≤ s.now + 500000 ∧ s.now ≤ p + 1000500000
      (near → s.flag F.RT_CTRL_pps_track = false →
        ∃ (t : State) (err : Int), exec (.ppsEdge rising) s = .next t ∧ t.clk.pps = some s.now ∧
          t.pair A.RT_PPS_STAMP = s.now % 2 ^ 64 ∧ t.ifld F.RT_PPS_ERR_err = err ∧
          -500000000 ≤ err ∧ err < 500000000 ∧ (1000000000 : Int) ∣ s.civil s.now - err ∧
          t.flag F.RT_STATUS_pps_ok = decide (|err| ≤ 1000) ∧ t.flag F.RT_STATUS_pps_lost = false ∧
          t.fld F.RT_PPS_CNT_accepted = min (s.fld F.RT_PPS_CNT_accepted + 1) 65535 ∧
          t.pair A.RT_CIVIL_OFS = s.pair A.RT_CIVIL_OFS) ∧
      (¬ near → ∃ t, exec (.ppsEdge rising) s = .next t ∧
        { t with regs := s.regs, clk := s.clk } = s ∧ t.clk = { s.clk with ppsTracked := false } ∧
        (∀ a, a ≠ A.RT_PPS_CNT → t.reg a = s.reg a) ∧
        t.fld F.RT_PPS_CNT_discarded = min (s.fld F.RT_PPS_CNT_discarded + 1) 65535)) ∧
    (s.flag F.RT_CTRL_pps_en = true → s.flag F.RT_STATUS_pps_lost = false →
      ∃ t, exec .ppsLost s = .next t ∧ t.flag F.RT_STATUS_pps_lost = true ∧ t.flag F.RT_STATUS_pps_ok = false ∧
        t.clk.pps = none ∧ ∀ a, a ≠ A.RT_STATUS → t.reg a = s.reg a) ∧
    (∀ v : BitVec 64, s.cellMode ≠ 1 → s.clk.tracking = none →
      (∃ t, exec (.civilSet .ofs v) s = .next t ∧ t.pair A.RT_CIVIL_OFS = v.toNat ∧ logged s t) ∧
      (∃ t, exec (.civilSet .ref v) s = .next t ∧ t.pair A.RT_CIVIL_REF = v.toNat ∧ logged s t) ∧
      ∃ t, exec (.civilSet .rate v) s = .next t ∧
        if (BitVec.setWidth 32 v).toInt.natAbs ≤ 858993 then
          t.reg A.RT_CIVIL_RATE = v.setWidth 32 ∧ logged s t
        else onlyRecorded s t)

/-- PHASE_EDGE, PHASE_UNLOCK and COORD_LOST complete. R57, R58: with edges of the PHASE ball in step, the measured
period and frequency follow the last two edges; when no edge comes the lock is lost and every PHASE coordinate is
LOST; a LINK coordinate without a fresh record for its timeout is LOST, which is counted, recorded and signalled. -/
def Obligations.PhaseAndLinkCoordinates : Prop :=
  ∀ (s : State),
    (∀ (rising : Bool) (e : Nat), rising = !s.flag F.CRD_PHASE_pol → s.phase.lastEdge = some e →
      let d := s.now - e
      40 * d ≤ 1000000000 → 1000000000 ≤ 70 * d → s.flag F.CRD_PHASE_locked = true →
      ∃ t, exec (.phaseEdge rising) s = .next t ∧ t.phase.period = d ∧ t.phase.lastEdge = some s.now ∧
        t.phase.edges = s.phase.edges + 1 ∧ t.fld F.CRD_PHASE_freq = 256000000000 / d % 2 ^ 16 ∧
        t.flag F.CRD_PHASE_locked = true ∧ ∀ a, a ≠ A.CRD_PHASE → t.reg a = s.reg a) ∧
    (s.flag F.CRD_PHASE_locked = true →
      ∃ t, exec .phaseUnlock s = .next t ∧ t.flag F.CRD_PHASE_locked = false ∧ t.phase.periods = [] ∧
        ∀ n, n < 16 → (s.coordSource n = 4 → t.coordState n = 2) ∧ (s.coordSource n ≠ 4 → t.coordState n = s.coordState n)) ∧
    ∀ n : Fin 16, s.coordSource n = 3 → s.fld (F.K_CFG_timeout n) ≤ (s.coordOf n).stale → s.coordState n ≠ 2 →
      ∃ t, exec (.coordLost n) s = .next t ∧ t.coordState n = 2 ∧
        t.fld (F.K_STATUS_lost_cnt n) = min (s.fld (F.K_STATUS_lost_cnt n) + 1) 65535 ∧ logged s t ∧
        (20 ∈ t.irqs ∨ (t.pair A.PBA_PBA).testBit 20 = true) ∧ t.coord = s.coord ∧ memoriesStay s t

/-! ## Host commands -/

/-- Every command row of the ledgers completes where it is not accepted. R403, R406, R407, R412: a command row acts
only when its ledger's next descriptor can be disposed of (the model's reading of the row, log 21). A sequence number
at or below the last disposed one, or beyond the next, is rejected without moving the cursor; a command that fails a
check is rejected with that check's reason and is disposed of; a rejected command changes no motion, mode, list or
hawker state, and its REJECT descriptor stands in the completion ring. -/
def Obligations.LedgerCommandsAreDisposed : Prop :=
  ∀ (s : State) (h : CmdHead) (a b c d : Byte) (e f : BitVec 16) (v w : Word) (x : BitVec 64) (m96 : BitVec 96)
    (m192 : BitVec 192) (m256 : BitVec 256),
    let n := h.ledger.val
    let seq := h.seq.toNat
    let last := (s.cursor n).disposed
    let m := s.fld (F.CMD_CFG_cpl n)
    ∀ q ∈ [(Instr.nopCmd h, HostCmd.nop), (.modeSet h a e x, .modeSet a e x), (.groupSet h a b, .groupSet a b),
           (.segAppend h a v x w, .segAppend a v x w), (.segSkip h a, .segSkip a), (.segFlush h a, .segFlush a),
           (.compareAdd h m256, .compareAdd m256), (.compareRemove h e, .compareRemove e),
           (.payloadSet h a b v m96 m192, .payloadSet a b v m96 m192), (.lawParam h a e f x, .lawParam a e f x),
           (.dlInsert h a b c d v x, .dlInsert a b c d v x), (.dlCancel h a b c, .dlCancel a b c),
           (.stallToken h a b v, .stallToken a b v), (.coordStep h a x v, .coordStep a x v),
           (.overrideSet h a e, .overrideSet a e), (.safetyLoad h x v, .safetyLoad x v),
           (.imageLoadLoop h a x v, .imageLoad 1 a x v), (.imageLoadFirmware h x v, .imageLoad 2 0 x v),
           (.attest h x v m256, .attest x v m256), (.status h, .status), (.abort h x, .abort x)],
      let rejected (t : State) (why detail : Nat) : Prop :=
        t.grp = s.grp ∧ t.mode = s.mode ∧ t.coord = s.coord ∧ t.dl = s.dl ∧ t.cmp = s.cmp ∧ t.hwk = s.hwk ∧
        t.saf = s.saf ∧ memoriesStay s t ∧ t.ldg.outst = s.ldg.outst ∧ (t.cursor n).accepted = (s.cursor n).accepted ∧
        t.fld (F.CMD_CONSUMED_count n) = (s.fld (F.CMD_CONSUMED_count n) + 1) % 2 ^ 32 ∧
        (ringOpen s m 1 → descriptorAt s t m 0 = Completion.bytes
          { ledger := n, seq := seq, opcode := HostCmd.opcode q.2, kind := 2, reason := why, stamp := s.now,
            result := detail % 2 ^ 32, irq := false } (phaseAt s m 0))
      (s.canDispose n = false → exec q.1 s = .next s) ∧
      (s.canDispose n = true → seq ≤ last → ∃ t, exec q.1 s = .next t ∧ rejected t 5 0 ∧ (t.cursor n).disposed = last) ∧
      (s.canDispose n = true → last + 1 < seq → ∃ t, exec q.1 s = .next t ∧ rejected t 6 0 ∧ (t.cursor n).disposed = last) ∧
      ∀ (why : Reason) (detail : Nat), s.canDispose n = true → seq = last + 1 →
        s.checkCmd (descrOf h q.2) q.2 = .error (why, detail) → why ≠ .seqDup → why ≠ .seqGap →
        ∃ t, exec q.1 s = .next t ∧ rejected t why.code detail ∧ (t.cursor n).disposed = seq

/-- SEG_APPEND, SEG_SKIP, SEG_FLUSH, PAYLOAD_SET, COMPARE_ADD, COMPARE_REMOVE, DL_INSERT, DL_CANCEL, STALL_TOKEN,
COORD_STEP and OVERRIDE_SET complete when accepted. R59, R61, R94 to R99, R119, R122, R125, R239, R252, R402: what
each accepted command of the motion system does as it begins: segments enter their group's ring in DRAM and its count,
a skip takes one and a flush all; a payload, a step, an override waits for its instant; a compare entry, a delay entry
joins its list and a removal or cancellation takes the entries it names; a token enters the matching store's input. -/
def Obligations.MotionCommandsBegin : Prop :=
  ∀ (s : State) (h : CmdHead) (bs : List Byte),
    let cmd : Option (Nat × Nat) := some (h.ledger.val, h.seq.toNat)
    let begins (i : Instr) (c : HostCmd) (p : State → Prop) : Prop :=
      acceptsNow s h c bs → ∃ t, exec i s = .next t ∧ accepted s t h ∧ p t
    (∀ (g : Byte) (count len : Word) (addr : BitVec 64), s.ringSlots g.toNat ≤ 65536 →
      begins (.segAppend h g count addr len) (.segAppend g count addr len) fun t =>
        let first := s.fld (F.MG_CURSOR_slot g.toNat) + s.queued g.toNat
        bs.length = count.toNat * 256 ∧ t.queued g.toNat = s.queued g.toNat + count.toNat ∧
          (∀ i, i < count.toNat →
            memBytes t.dram (s.slotAddr g.toNat (first + i)) 256 = (bs.drop (256 * i)).take 256) ∧
          ∀ k, k < s.pair (A.MG_QBASE g.toNat) ∨ s.pair (A.MG_QBASE g.toNat) + s.ringSlots g.toNat * 256 ≤ k →
            memByte t.dram k = memByte s.dram k) ∧
    (∀ g : Byte, s.ringSlots g.toNat ≤ 65536 → s.queued g.toNat ≠ 0 →
      begins (.segSkip h g) (.segSkip g) fun t =>
        t.queued g.toNat = s.queued g.toNat - 1 ∧ (t.grpOf g.toNat).cur = none ∧
          t.fld (F.MG_CURSOR_slot g.toNat) = (s.fld (F.MG_CURSOR_slot g.toNat) + 1) % s.ringSlots g.toNat) ∧
    (∀ g : Byte, s.ringSlots g.toNat ≤ 65536 →
      begins (.segFlush h g) (.segFlush g) fun t =>
        t.queued g.toNat = 0 ∧ (s.queued g.toNat ≠ 0 → (t.grpOf g.toNat).cur = none) ∧ (t.grpOf g.toNat).fetched = [] ∧
          t.fld (F.MG_CURSOR_slot g.toNat) =
            (s.fld (F.MG_CURSOR_slot g.toNat) + s.queued g.toNat) % s.ringSlots g.toNat) ∧
    (∀ (g link : Byte) (mass : Word) (com : BitVec 96) (inertia : BitVec 192),
      begins (.payloadSet h g link mass com inertia) (.payloadSet g link mass com inertia) fun t =>
        (t.grpOf g.toNat).payload =
          (s.grpOf g.toNat).payload ++ [(cmd, link.toNat, mass.toNat, com.toNat, inertia.toNat)]) ∧
    (∀ entry : BitVec 256,
      begins (.compareAdd h entry) (.compareAdd entry) fun t =>
        t.cmp.entries = s.cmp.entries ++ [{ parseCmp entry.toNat with cmd := cmd, since := s.clk.time }] ∧ t.cmp.deferred = s.cmp.deferred) ∧
    (∀ tag : BitVec 16,
      begins (.compareRemove h tag) (.compareRemove tag) fun t =>
        t.cmp.entries = s.cmp.entries.filter (fun e => e.tag != tag.toNat) ∧
          t.cmp.deferred = s.cmp.deferred.filter fun e => e.1.tag != tag.toNat) ∧
    (∀ (m dir stall slot : Byte) (data : Word) (key : BitVec 64),
      begins (.dlInsert h m dir stall slot data key) (.dlInsert m dir stall slot data key) fun t =>
        ∃ e : DlEntry, (t.dlist m.toNat).entries = (s.dlist m.toNat).entries ++ [e] ∧ e.key = dlKey m.toNat key.toNat ∧
          e.dir = dir.toNat ∧ e.stall = stall.toNat ∧ e.slot = slot.toNat ∧ e.data = data ∧ e.cmd = cmd ∧
          e.since = s.clk.time) ∧
    (∀ m stall slot : Byte,
      begins (.dlCancel h m stall slot) (.dlCancel m stall slot) fun t =>
        (t.dlist m.toNat).entries = (s.dlist m.toNat).entries.filter
          fun e => !(e.stall == stall.toNat && e.slot == slot.toNat && e.fired.isNone)) ∧
    (∀ (stall slot : Byte) (data : Word),
      begins (.stallToken h stall slot data) (.stallToken stall slot data) fun t =>
        let tk : Tok :=
          { stall := stall.toNat, slot := slot.toNat, data := data, source := 8, sender := 0, stamp := none, late := false,
            sent := s.clk.time, cmd := cmd }
        t.hwk = if stall = 0 then s.hwk else putTok s.hwk tk) ∧
    (∀ (n : Byte) (delta : BitVec 64) (duration : Word),
      begins (.coordStep h n delta duration) (.coordStep n delta duration) fun t =>
        (t.coordOf n.toNat).steps = (s.coordOf n.toNat).steps ++
          [{ cmd := cmd, delta := delta.toInt, duration := duration.toNat, since := s.clk.time }] ∧
          t.fld (F.K_HOSTQ_count n.toNat) = (s.coordOf n.toNat).steps.length + 1) ∧
    ∀ (n : Byte) (factor : BitVec 16),
      begins (.overrideSet h n factor) (.overrideSet n factor) fun t =>
        (t.coordOf n.toNat).override = (s.coordOf n.toNat).override ++ [(factor.toNat, cmd, s.clk.time)]

/-- MODE_SET, GROUP_SET, LAW_PARAM, ATTEST, ABORT, NOP_CMD and STATUS complete when accepted. R70, R76, R81, R85,
R213, R230, R402, R409, R413, R459: what each accepted command of modes, groups, laws and the ledgers does as it
begins. -/
def Obligations.ModeGroupAndLedgerCommandsBegin : Prop :=
  ∀ (s : State) (h : CmdHead) (bs : List Byte),
    let n := h.ledger.val
    let seq := h.seq.toNat
    let cmd : Option (Nat × Nat) := some (n, seq)
    let m := s.fld (F.CMD_CFG_cpl n)
    let begins (i : Instr) (c : HostCmd) (p : State → Prop) : Prop :=
      acceptsNow s h c bs → ∃ t, exec i s = .next t ∧ accepted s t h ∧ p t
    (∀ (target : Byte) (id : BitVec 16) (epoch : BitVec 64),
      begins (.modeSet h target id epoch) (.modeSet target id epoch) fun t =>
        if target = 7 then
          t.cellMode = 7 ∧ t.mode.change = none ∧ t.fld F.MODE_LAST_outcome = 1 ∧ t.fld F.MODE_CELL_change_id = id.toNat
        else
          t.cellMode = s.cellMode ∧ t.fld F.MODE_CELL_change = 1 ∧ t.fld F.MODE_CELL_target = target.toNat ∧
            t.pair A.MODE_EPOCH = epoch.toNat ∧
            t.mode.change = some { id := id.toNat, target := target.toNat, epoch := epoch.toNat, old := s.cellMode, cmd := cmd }) ∧
    (∀ g st : Byte,
      begins (.groupSet h g st) (.groupSet g st) fun t =>
        (s.groupState g.toNat = 0 → st = 1 → s.stoRemains g.toNat = false → s.lawsAwaited g.toNat = true →
          t.groupState g.toNat = 0 ∧ t.stoReleased g.toNat = true ∧ (t.grpOf g.toNat).start = some s.now ∧
            (t.grpOf g.toNat).want = 1 ∧
            ∀ k ∈ s.groupLaws g.toNat, ∃ tk ∈ t.hwk.coming, tk.stall = k ∧ tk.slot = 7 ∧ tk.data = 1 ∧ tk.source = 7) ∧
        (s.groupState g.toNat = 1 → st = 2 → t.groupState g.toNat = 2 ∧ (t.grpOf g.toNat).ramp = 2 ∧
          ∀ k ∈ s.groupLaws g.toNat, ∃ tk ∈ t.hwk.coming, tk.stall = k ∧ tk.slot = 7 ∧ tk.data = 2 ∧ tk.source = 7) ∧
        (s.groupState g.toNat = 2 → st = 1 → t.groupState g.toNat = 2 ∧ t.flag (F.GRP_STATUS_stopping g.toNat) = true ∧
          t.flag (F.SG_STAT_pstop g.toNat) = true ∧ (t.grpOf g.toNat).want = 1) ∧
        (s.groupState g.toNat ≠ 0 → st = 0 → (s.grpOf g.toNat).stop = none →
          t.groupState g.toNat = s.groupState g.toNat ∧ t.flag (F.GRP_STATUS_stopping g.toNat) = true ∧
            ∃ x : Stop, (t.grpOf g.toNat).stop = some x ∧ x.target = 0 ∧
              x.deadline = s.now + s.fld (F.GRP_STOP_time g.toNat) * 1000)) ∧
    (∀ (stall : Byte) (off len : BitVec 16) (addr : BitVec 64), len ≠ 0 → s.lawBusy stall.toNat = false →
      (∀ w ∈ s.hwk.lawWait, w.1 ≠ stall.toNat) →
      begins (.lawParam h stall off len addr) (.lawParam stall off len addr) fun t =>
        let at' := 0x7E0000 + stall.toNat * 0x100 + off.toNat
        memBytes t.sram at' len.toNat = bs ∧ t.hwk.lawWait = s.hwk.lawWait ∧
          ∀ k, k < at' ∨ at' + len.toNat ≤ k → memByte t.sram k = memByte s.sram k) ∧
    (∀ (addr : BitVec 64) (len : Word) (nonce : BitVec 256), ringOpen s m 2 →
      (s.pair (A.CPL_BASE m) + 64 * 2 ^ s.fld (F.CPL_CFG_size m) ≤ addr.toNat ∨
        addr.toNat + (s.attestBody nonce.toNat).length ≤ s.pair (A.CPL_BASE m)) →
      begins (.attest h addr len nonce) (.attest addr len nonce) fun t =>
        memBytes t.hostMem addr.toNat (s.attestBody nonce.toNat).length = s.attestBody nonce.toNat) ∧
    (∀ (target : BitVec 64) (p : Outst) (k : Byte) (delta : BitVec 64) (d : Word),
      s.ldg.outst = [p] → p.ledger = n → p.seq = target.toNat → p.final = none → p.cmd = .coordStep k delta d →
      (∃ x ∈ (s.coordOf k.toNat).steps, x.cmd = some (n, target.toNat) ∧ x.progress = 0) →
      s.abortEarly n target.toNat = false →
      begins (.abort h target) (.abort target) fun t =>
        (t.coordOf k.toNat).steps = (s.coordOf k.toNat).steps.filter (fun x => x.cmd != some (n, target.toNat)) ∧
          t.mode = s.mode ∧ t.grp = s.grp ∧ t.dl = s.dl ∧ t.cmp = s.cmp) ∧
    ∀ q ∈ [(Instr.nopCmd h, HostCmd.nop, 0), (.status h, .status, s.statusResult)],
      s.ldg.outst = [] → ringOpen s m 2 → begins q.1 q.2.1 fun t =>
        { t with regs := s.regs, ldg := s.ldg, hostMem := s.hostMem, irqs := s.irqs } = s ∧ t.ldg.outst = [] ∧
          (t.cursor n).final = seq ∧
          descriptorAt s t m 0 = Completion.bytes
            { ledger := n, seq := seq, opcode := HostCmd.opcode q.2.1, kind := 1, reason := 0, stamp := s.now, result := 0,
              irq := false } (phaseAt s m 0) ∧
          descriptorAt s t m 1 = Completion.bytes
            { ledger := n, seq := seq, opcode := HostCmd.opcode q.2.1, kind := 3, reason := 0, stamp := s.now,
              result := q.2.2, irq := h.irq } (phaseAt s m 1) ∧
          t.fld (F.CPL_PRODUCED_count m) = (s.fld (F.CPL_PRODUCED_count m) + 2) % 2 ^ 32

/-! ## Segments, steppers and feedback -/

/-- SEGMENT_FETCH, FF_POST, FF_MISS and STEP_TIMER complete. R74, R99, R116, R118, R126: unless DEGRADED has stopped
it, a prefetch holds the next segment not yet held; the feedforward task of a group is posted at a multiple of 250 us,
at which the results of the last one come into force, or, with a model of another joint count, is ZEROED; a task that
has not ended 200 us later is missed, the first time HELD and then ZEROED; one that has ended is no miss; a step timer
moves POS by one microstep. -/
def Obligations.PrefetchFeedforwardAndSteps : Prop :=
  ∀ (s : State) (g : Fin 8),
    let x := s.grpOf g
    let taken := (if x.cur.isSome then 1 else 0) + (if x.next.isSome then 1 else 0) + x.fetched.length
    (∀ bad : Bool, taken < s.queued g → x.fetched.length < 4 → s.motionStopped = false →
      ∃ t, exec (.segmentFetch g bad) s = .next t ∧ memoriesStay s t ∧ t.queued g = s.queued g ∧
        (t.grpOf g).fetched = x.fetched ++ [((s.segAt g (s.fld (F.MG_CURSOR_slot g) + taken)).1,
          (s.segAt g (s.fld (F.MG_CURSOR_slot g) + taken)).2 || bad)]) ∧
    (s.isStandby = false → s.flag (F.MG_FF_enable g) = true → s.fld (F.MG_FF_stall g) ≠ 0 →
      s.groupState g ≠ 0 ∨ x.start ≠ none → x.ffStart = none →
      s.tclkGone = false → s.fld (F.MODEL_COUNT_count g) = s.fld (F.GRP_STATUS_joints g) → x.ffMiss = 0 →
      ∃ t, exec (.ffPost g) s = .next t ∧ t.now % 250000 = 0 ∧ s.now ≤ t.now ∧ t.now ≤ s.now + 250000 ∧
        t.fld (F.MG_FFSTAT_state g) = 1 ∧ (t.grpOf g).ffStart = some t.now ∧
        (∀ vs, x.ffNext = some vs → x.ffAt ≠ some t.now → (t.grpOf g).ffOut = vs) ∧
        ∃ tk ∈ t.hwk.coming, tk.stall = s.fld (F.MG_FF_stall g) ∧ tk.source = 6 ∧ tk.sent = t.clk.time) ∧
    (s.isStandby = false → s.flag (F.MG_FF_enable g) = true → s.fld (F.MG_FF_stall g) ≠ 0 →
      s.groupState g ≠ 0 ∨ x.start ≠ none → x.ffStart = none →
      s.fld (F.MODEL_COUNT_count g) ≠ s.fld (F.GRP_STATUS_joints g) →
      ∃ t, exec (.ffPost g) s = .next t ∧ t.fld (F.MG_FFSTAT_state g) = 3 ∧ (t.grpOf g).ffStart = none) ∧
    (∀ t0 : Nat, x.ffStart = some t0 → x.ffDone = true →
      ∃ t, exec (.ffMiss g) s = .next t ∧ (t.grpOf g).ffStart = none ∧ (t.grpOf g).ffMiss = 0 ∧
        t.fld (F.MG_FFSTAT_state g) = 1 ∧ t.fld (F.MG_FFSTAT_misses g) = s.fld (F.MG_FFSTAT_misses g)) ∧
    (∀ t0 : Nat, x.ffStart = some t0 → x.ffDone = false →
      ∃ t, exec (.ffMiss g) s = .next t ∧ (t.grpOf g).ffStart = none ∧ (t.grpOf g).ffMiss = x.ffMiss + 1 ∧
        t.fld (F.MG_FFSTAT_misses g) = min (s.fld (F.MG_FFSTAT_misses g) + 1) 65535 ∧
        t.fld (F.MG_FFSTAT_state g) = if x.ffMiss = 0 then 2 else 3) ∧
    ∀ (n : Fin 64) (due : Moment), (s.stepperOf n).due = some due → s.sliceGroup n ≠ none → s.fld (F.STP_CFG_mode n) ≠ 0 →
      ∃ t, exec (.stepTimer n) s = .next t ∧ memoriesStay s t ∧ t.clk = (s.advanceTo due).clk ∧
        (t.stepperOf n).last = some t.clk.time ∧
        t.fld (F.STP_POS_pos n) =
          (s.fld (F.STP_POS_pos n) + if (s.stepperOf n).neg then 2 ^ 32 - 1 else 1) % 2 ^ 32 ∧
        ∀ k, k < 64 → k ≠ n.val → t.fld (F.STP_POS_pos k) = s.fld (F.STP_POS_pos k)

/-- FEEDBACK_EDGE, INDEX_ARM, PRESET and STANDSTILL_TIMEOUT complete. R182, R184 to R190: levels that the filters do
not pass change nothing; in QUAD mode without an index event, a change of one line moves POS by one along the sequence
00, 01, 11, 10 of B and A, against it with CFG.rev, and stamps the edge; a change of both lines is error 0 and moves
nothing; in HALL mode the state 0 or 7 is error 1. Arming an index is a host write that leaves homed 0; so is a
preset, which takes PRESET, and with an edge in its count moves on by that edge; an index event in its count discards
it. R202: when no edge comes for SPD.still, counted from the last one, the port is at standstill. -/
def Obligations.CountingPorts : Prop :=
  ∀ (s : State) (n : Fin 64) (lines : LineLevels),
    let x := s.fbkOf n
    let f := s.filtered n x.lines lines.level.toNat lines.held.toNat
    let a := x.lines % 4
    let b := f % 4
    let pos := s.fld (F.FB_POS_pos n)
    let rev := s.flag (F.FB_CFG_rev n)
    let order : List (Nat × Nat) := [(0, 1), (1, 3), (3, 2), (2, 0)]
    let here (m : Option Moment) : Prop := ∃ v, m = some v ∧ v / countUnit = s.clk.time / countUnit
    ((∀ i, i < 3 → f.testBit i =
        if s.fld ⟨A.FB_FILT n, 8 * i, 8⟩ ≤ lines.held.toNat / 2 ^ (8 * i) % 256 then lines.level.getLsbD i
        else x.lines.testBit i) ∧
      (f = x.lines → exec (.feedbackEdge n lines) s = .next s)) ∧
    (s.fbMode n = 2 → f ≠ x.lines → f = 0 ∨ f = 7 →
      ∃ t, exec (.feedbackEdge n lines) s = .next t ∧ t.fld (F.FB_POS_pos n) = pos ∧ t.fld (F.FB_FSTAT_hall n) = f ∧
        t.bitFld (F.FB_ERR_src n) 1 = true ∧ memoriesStay s t) ∧
    (s.fbMode n = 1 → s.fld (F.FB_CFG_index n) = 0 →
      ((a, b) ∈ order ∨ (b, a) ∈ order →
        ∃ t, exec (.feedbackEdge n lines) s = .next t ∧ (t.fbkOf n).lines = f ∧
          t.fld (F.FB_POS_pos n) = (pos + if decide ((a, b) ∈ order) = !rev then 1 else 2 ^ 32 - 1) % 2 ^ 32 ∧
          t.pair (A.FB_EDGE_STAMP n) = s.now % 2 ^ 64 ∧ memoriesStay s t) ∧
      (a ^^^ b = 3 →
        ∃ t, exec (.feedbackEdge n lines) s = .next t ∧ t.fld (F.FB_POS_pos n) = pos ∧
          t.bitFld (F.FB_ERR_src n) 0 = true ∧ memoriesStay s t)) ∧
    (s.cellMode ≠ 1 → ∃ t, exec (.indexArm n) s = .next t ∧ (t.fbkOf n).onceArmed = true ∧
      t.flag (F.FB_FSTAT_homed n) = false ∧ ∀ r, r ≠ A.FB_FSTAT n → t.reg r = s.reg r) ∧
    ((s.cellMode ≠ 1 → here x.indexAt → ∃ t, exec (.preset n) s = .next t ∧ onlyRecorded s t) ∧
      (s.cellMode ≠ 1 → ¬ here x.indexAt → ∃ t, exec (.preset n) s = .next t ∧
        (¬ here x.lastEdge → t.fld (F.FB_POS_pos n) = s.fld (F.FB_PRESET_value n)) ∧
        (here x.lastEdge → (t.fld (F.FB_POS_pos n) : Int) = (s.fld (F.FB_PRESET_value n) + x.lastCount) % 2 ^ 32) ∧
        ∀ r, r ≠ A.FB_POS n → t.reg r = s.reg r)) ∧
    (∀ e : Moment, s.fbIncremental n = true → x.lastEdge = some e → s.fld (F.FB_FSTAT_valid n) ≠ 0 →
      ∃ t, exec (.standstillTimeout n) s = .next t ∧ t.fld (F.FB_FSTAT_valid n) = 0 ∧
        (s.tclkGone = false → e + s.fld (F.FB_SPD_still n) * 1000 * nsUnit ≤ t.clk.time) ∧
        t.flag (F.FB_FSTAT_rev n) = false ∧ (t.fbkOf n).run = [] ∧ ∀ r, r ≠ A.FB_FSTAT n → t.reg r = s.reg r)

/-- LATCH, FRAME_END, EMU_CHANGE and EMU_ENABLE complete. R191 to R198: at the trigger instant a port that counts
delivers POS as a token when DEST.pen is set, and a serial port that is free starts a frame; a good SSI frame without
parity and error leaves its position in POS; a BiSS frame without acknowledge or Start bit in time is counted in
consec and sets hold. R206 to R208: an emulation change moves the emitted count by one toward the target; setting
enable takes the target as the emitted count. -/
def Obligations.FramesLatchesAndEmulation : Prop :=
  ∀ (s : State) (n : Fin 64),
    let x := s.fbkOf n
    (∀ (due : Int) (rest : List Int), x.due = due :: rest →
      ∃ t, exec (.latch n) s = .next t ∧ t.clk = (s.advanceRaw due).clk ∧ (t.fbkOf n).due = rest ∧
        t.pair (A.FB_STAMP n) = t.now % 2 ^ 64 ∧
        (s.fbSerial n = false → s.flag (F.FB_DEST_pen n) = true → s.fld (F.FB_DEST_stall n) ≠ 0 →
          ∃ tk ∈ t.hwk.coming, tk.stall = s.fld (F.FB_DEST_stall n) ∧ tk.slot = s.fld (F.FB_DEST_pslot n) ∧
            tk.data = s.reg (A.FB_POS n) ∧ tk.source = 2 ∧ tk.stamp = some t.now) ∧
        (s.fbSerial n = true → x.frame = none → x.frameFree ≤ t.clk.time → x.lines.testBit 1 = true →
          (t.fbkOf n).frame = some t.clk.time ∧ (t.fbkOf n).frames = x.frames + 1)) ∧
    (∀ (t0 : Moment) (nbits : Fin 128) (bits : BitVec 128) (ack : Bool) (d : BitVec 16) (start : BitVec 8),
      x.frame = some t0 →
      (s.fbMode n = 3 → s.fld (F.FB_SER_parity n) = 0 → s.fld (F.FB_SER_mt n) = 0 → s.fld (F.FB_SER_lead n) = 0 →
        s.flag (F.FB_SER_gray n) = false → s.fld (F.FB_MAXSTEP_step n) = 0 →
        nbits.val = s.fld (F.FB_SER_st n) → nbits.val ≤ 32 → bits.toNat < 2 ^ nbits.val →
        ∃ t, exec (.frameEnd n nbits bits ack d start) s = .next t ∧ (t.fbkOf n).frame = none ∧
          t.fld (F.FB_POS_pos n) = bits.toNat ∧ t.flag (F.FB_FSTAT_hold n) = false ∧ t.fld (F.FB_ERR_consec n) = 0) ∧
      (s.fbMode n = 4 → (s.ackInTime n ack d.toNat && s.startInTime n start.toNat) = false →
        ∃ t, exec (.frameEnd n nbits bits ack d start) s = .next t ∧ (t.fbkOf n).frame = none ∧
          t.fld (F.FB_POS_pos n) = s.fld (F.FB_POS_pos n) ∧ t.flag (F.FB_FSTAT_hold n) = true ∧
          t.bitFld (F.FB_ERR_src n) 3 = true ∧ t.fld (F.FB_ERR_consec n) = min (s.fld (F.FB_ERR_consec n) + 1) 15)) ∧
    ∀ b : Fin 8,
      let e := s.ipair (A.EMU_EMITTED b)
      let goal := s.emuTarget b
      (s.flag (F.EMU_CFG_enable b) = true → -2 ^ 63 ≤ goal → goal < 2 ^ 63 → goal ≠ e →
        ∃ t, exec (.emuChange b) s = .next t ∧ t.ipair (A.EMU_EMITTED b) = (if e < goal then e + 1 else e - 1) ∧
          memoriesStay s t) ∧
      (s.cellMode ≠ 1 → s.flag (F.EMU_CFG_enable b) = false →
        ∃ t, exec (.emuEnable b true) s = .next t ∧ t.flag (F.EMU_CFG_enable b) = true ∧
          t.pair (A.EMU_EMITTED b) = unsignedOf 64 (if s.flag (F.EMU_CFG_src b) then s.emuCoordTarget b
            else signedOf 32 (s.fld (F.FB_POS_pos (s.fld (F.EMU_CFG_slice b)))) * s.ipair (A.EMU_SCALE b) / 2 ^ 32) ∧
          memoriesStay s t) ∧
      (s.cellMode ≠ 1 → ∃ t, exec (.emuEnable b false) s = .next t ∧ t.flag (F.EMU_CFG_enable b) = false ∧
        ∀ r, r ≠ A.EMU_CFG b → t.reg r = s.reg r)

/-! ## The hawker -/

/-- TOKEN and DISPATCH complete. R26, R27, R240 to R244: the first token of the input queue, not before it was sent,
fills its slot and sets its fresh bit, and the queue takes in one token that a source holds, where there is one: of
those that cross the interconnect one of class 0 before one of class 2, and one of class 4 after fifteen grants to
others; a token for a stall that is off is dropped and counted. A stall that waits and whose fresh bits cover its mask
becomes READY. A dispatch gives the execution that is next to the core that is chosen for it: the core runs the stall
from its entry with the slots' values in d8 to d15, the stall is RUNNING and its fresh bits are clear; no other core
changes. -/
def Obligations.TokensAndDispatch : Prop :=
  (∀ (s : State) (tk : Tok) (rest : List Tok), s.hwk.tokens = tk :: rest →
    (∀ v ∈ s.hwk.votes, s.clk.time < v.2) →
    let n := tk.stall
    let slot := 2 ^ tk.slot
    let moves (t : State) : Prop :=
      (s.tclkGone = false → t.clk.time = max s.clk.time tk.sent) ∧
      (s.nextHeld = none → t.hwk.held = s.hwk.held ∧ t.hwk.tokens = rest) ∧
      ∀ k, s.nextHeld = some k → t.hwk.held = s.hwk.held.erase k ∧
        t.hwk.tokens = tokInsert { k with sent := max k.sent t.clk.time } rest
    let crossing (k : Nat) : Prop :=
      (∀ h ∈ s.hwk.held, tokenClass h.source ≠ none) ∧ ∃ h ∈ s.hwk.held, tokenClass h.source = some k
    n < 256 → tk.slot < 8 → (s.hwk.held = [] → s.nextHeld = none) ∧
    (15 ≤ s.ic.since4 → crossing 4 → ∃ h ∈ s.hwk.held, s.nextHeld = some h ∧ tokenClass h.source = some 4) ∧
    (s.ic.since4 < 15 → crossing 0 → ∃ h ∈ s.hwk.held, s.nextHeld = some h ∧ tokenClass h.source = some 0) ∧
    (n ≠ 0 → s.flag (F.ST_CFG_enable n) = true →
      ∃ t, exec .token s = .next t ∧ moves t ∧ t.reg (A.ST_SLOT n tk.slot) = tk.data ∧
        t.freshBits n = s.freshBits n ||| slot ∧
        (s.bitFld (F.ST_STATE_fresh n) tk.slot = true → t.flag (F.ST_STATE_overrun n) = true ∧
          t.fld (F.ST_CNT1_overruns n) = min (s.fld (F.ST_CNT1_overruns n) + 1) 65535) ∧
        (s.stallState n = 1 → (s.freshBits n ||| slot) &&& s.fld (F.ST_CFG_mask n) = s.fld (F.ST_CFG_mask n) →
          t.stallState n = 2 ∧ ∃ e ∈ t.hwk.queue, e.stall = n ∧ e.exec = 0 ∧ e.ready = t.now) ∧
        (s.stallState n ≠ 1 ∨ (s.freshBits n ||| slot) &&& s.fld (F.ST_CFG_mask n) ≠ s.fld (F.ST_CFG_mask n) →
          t.stallState n = s.stallState n ∧ t.hwk.queue = s.hwk.queue)) ∧
    (n ≠ 0 → s.flag (F.ST_CFG_enable n) = false → tk.cmd = none →
      ∃ t, exec .token s = .next t ∧ moves t ∧
        { s.hwk with tokens := t.hwk.tokens, held := t.hwk.held } = t.hwk ∧
        regsOnly { s with hwk := t.hwk, ic := t.ic, clk := t.clk, timed := t.timed } t [A.ST_CNT2 n] ∧
        t.fld (F.ST_CNT2_dropped n) = min (s.fld (F.ST_CNT2_dropped n) + 1) 65535)) ∧
  ∀ (s : State) (e : QExec) (c : Fin 12), s.nextDispatch = some (e, c.val) → e.restore = false → e.stall < 256 →
    (∀ q ∈ s.hwk.queue, q.stall < 256) → (∀ v ∈ s.hwk.votes, s.clk.time < v.2) →
    ∃ t, exec .dispatch s = .next t ∧ t.hwk.queue = s.hwk.queue.erase e ∧ t.hwk.dispatches = s.hwk.dispatches + 1 ∧
      (t.coreOf c).stall = e.stall ∧ (t.coreOf c).exec = e.exec ∧ (t.coreOf c).status = .running ∧
      (t.coreOf c).pc = s.fld (F.ST_ENTRY_entry e.stall) ∧ (t.coreOf c).levels = 0 ∧
      (∀ k, k < 8 → (t.coreOf c).getR (8 + k) =
        if (s.stallOf e.stall).waited then (s.stallOf e.stall).snapData.getD k 0 else s.reg (A.ST_SLOT e.stall k)) ∧
      t.stallState e.stall = 3 ∧ ((s.stallOf e.stall).waited = false → t.freshBits e.stall = 0) ∧
      (∀ k, k ≠ c.val → t.coreOf k = s.coreOf k) ∧
      (memByte t.localMem (c.val * 2 ^ 16 + 0xFF60)).toNat = e.stall

/-- ARM, STALL_ENABLE, DEADLINE_MISS, CORE_SELFTEST, SELFTEST_END, RETEST and COUNTER_CLR complete. R237, R250, R257
to R260: arming an IDLE stall makes it wait, or READY when its fresh bits cover its mask; enabling a stall that is off
empties its slots; a deadline that passes is counted once, recorded and sent as a token; the self-test takes the next
core at a multiple of 10 ms, and 200 us later a pass brings it back to its idle address and a failure quarantines it;
a retest of a core that has been quarantined three times is discarded; a CLR register sets its counts to 0. -/
def Obligations.StallsAndSelftests : Prop :=
  ∀ (s : State),
    let covered (n : Nat) : Bool := (s.freshBits n &&& s.fld (F.ST_CFG_mask n)) == s.fld (F.ST_CFG_mask n)
    (∀ n : BitVec 8, s.cellMode ≠ 1 → (∀ v ∈ s.hwk.votes, s.clk.time < v.2) →
      (s.stallState n.toNat = 4 → ∃ t, exec (.arm n) s = .next t ∧
        t.stallState n.toNat = if covered n.toNat then 2 else 1) ∧
      (s.stallState n.toNat ≠ 4 → exec (.arm n) s = .next s)) ∧
    (∀ (n : BitVec 8) (on : Bool) (r : RegDesc) (is : List Nat), s.cellMode ≠ 1 →
      (∀ v ∈ s.hwk.votes, s.clk.time < v.2) →
      findReg (A.ST_CFG n.toNat) = some (r, is) → s.flag (F.ST_CFG_enable n.toNat) = !on →
      let old := (s.reg (A.ST_CFG n.toNat)).toNat
      s.prepare r is old old old (setBitNat old 0 on) = .ok (setBitNat old 0 on) →
      s.stallState n.toNat ≠ 3 → s.stallState n.toNat ≠ 5 → (on = true → s.stallState n.toNat ≠ 2) →
      ∃ t, exec (.stallEnable n on) s = .next t ∧ t.flag (F.ST_CFG_enable n.toNat) = on ∧
        (on = false → t.stallState n.toNat = 0 ∧ ∀ e ∈ t.hwk.queue, e.stall ≠ n.toNat) ∧
        (on = true → (∀ k, k < 8 → t.reg (A.ST_SLOT n.toNat k) = 0) ∧ t.freshBits n.toNat = 0 ∧
          t.stallState n.toNat = if s.fld (F.ST_CFG_mask n.toNat) = 0 then 2 else 1)) ∧
    (∀ (n : BitVec 8) (d : Nat), (s.stallOf n.toNat).deadline = some d → (s.stallOf n.toNat).missCounted = false →
      s.stallState n.toNat ∈ [2, 3, 5] → s.hwk.votes = [] →
      ∃ t, exec (.deadlineMiss n) s = .next t ∧ (t.stallOf n.toNat).missCounted = true ∧
        t.flag (F.ST_STATE_missed n.toNat) = true ∧ t.stallState n.toNat = s.stallState n.toNat ∧ logged s t ∧
        (s.tclkGone = false → d * nsUnit ≤ t.clk.time) ∧
        t.fld (F.ST_CNT1_misses n.toNat) = min (s.fld (F.ST_CNT1_misses n.toNat) + 1) 65535 ∧
        t.fld F.HWK_STAT_misses = min (s.fld F.HWK_STAT_misses + 1) 65535 ∧
        (s.fld F.HWK_MISSDEST_stall ≠ 0 → ∃ tk ∈ t.hwk.coming, tk.stall = s.fld F.HWK_MISSDEST_stall ∧
          tk.slot = s.fld F.HWK_MISSDEST_slot ∧ tk.data = BitVec.ofNat 32 n.toNat ∧ tk.stamp = some d)) ∧
    (∀ (c : Fin 12) (re : Bool), s.nextTested = some (c.val, re) → (s.coreOf c).ctx = none → (s.coreOf c).stall = 0 →
      s.tclkGone = false →
      ∃ t, exec .coreSelftest s = .next t ∧ t.now % 10000000 = 0 ∧ s.now ≤ t.now ∧ (t.coreOf c).status = .selftest ∧
        (t.coreOf c).withdraw = true ∧ (t.coreOf c).testCtx = some (s.coreOf c).context ∧ t.regs = s.regs ∧
        ∀ k, k ≠ c.val → t.coreOf k = s.coreOf k) ∧
    (∀ (c : Fin 12) (pass : Bool), (s.coreOf c).status = .selftest →
      ∃ t, exec (.selftestEnd c pass) s = .next t ∧
        (s.tclkGone = false → (s.coreOf c).stallFrom + 200000 ≤ t.now) ∧ (t.coreOf c).status = .running ∧ (t.coreOf c).stall = 0 ∧
        (t.coreOf c).pc = s.fld (F.HC_IDLE_addr c) ∧ (t.coreOf c).withdraw = false ∧ (t.coreOf c).testCtx = none ∧
        t.fld (F.HC_HEALTH_tests c) = (s.fld (F.HC_HEALTH_tests c) + 1) % 256 ∧ t.flag (F.HC_HEALTH_pass c) = pass ∧
        t.quarantined c = !pass ∧
        (pass = false → t.fld (F.HC_HEALTH_fails c) = min (s.fld (F.HC_HEALTH_fails c) + 1) 255)) ∧
    (∀ c : Fin 12, s.cellMode ≠ 1 →
      (3 ≤ s.fld (F.HC_HEALTH_qcount c) → ∃ t, exec (.retest c) s = .next t ∧ onlyRecorded s t) ∧
      (s.fld (F.HC_HEALTH_qcount c) < 3 → s.quarantined c = true → c.val ∉ s.hwk.retests →
        exec (.retest c) s = .next { s with hwk := { s.hwk with retests := s.hwk.retests ++ [c.val] } })) ∧
    (s.cellMode ≠ 1 → ∃ t, exec (.counterClr (BitVec.ofNat 22 A.HWK_CLR)) s = .next t ∧ t.reg A.HWK_STAT = 0 ∧
      (∀ p, p < 16 → t.fld (F.LVL_DEPTH_max p) = 0) ∧ (∀ c, c < 12 → t.fld (F.HC_BUSY_MAX_max c) = 0) ∧
      { t with regs := s.regs } = s) ∧
    ∀ n : Fin 256, s.cellMode ≠ 1 →
      ∃ t, exec (.counterClr (BitVec.ofNat 22 (A.ST_CLR n))) s = .next t ∧
        regsOnly s t [A.ST_WAIT_MAX n, A.ST_CNT1 n, A.ST_CNT2 n, A.ST_RUNS n] ∧
        t.reg (A.ST_WAIT_MAX n) = 0 ∧ t.reg (A.ST_CNT1 n) = 0 ∧ t.reg (A.ST_CNT2 n) = 0 ∧ t.reg (A.ST_RUNS n) = 0

/-! ## The safety region -/

/-- SEPARATION_CYCLE completes. R297, R331: with the timing clock, the region out of reset and an image in force, the
block runs the separation cycle of the next boundary that has not been run: the cycle is counted, the region shows
that it runs, the cycle's length in safety clocks lies within its stage, and at its end a publication is due.
Otherwise nothing happens. R298: a boundary whose interval in safety clocks since the last one differs from a cycle's
length by more than 1 % is a fault of the region, cause 1. -/
def Obligations.SeparationCyclesRun : Prop :=
  ∀ (s : State),
    (s.tclkGone = true ∨ s.pwr.safetyUp = false ∨ (s.imageOk = false ∧ s.saf.waiting = none) →
      exec .separationCycle s = .next s) ∧
    (s.tclkGone = false → s.pwr.safetyUp = true → s.imageOk = true → s.saf.waiting = none →
      ∃ t, exec .separationCycle s = .next t ∧ t.now % s.sepCycle = 0 ∧ s.now ≤ t.now ∧ t.now ≤ s.now + s.sepCycle ∧
        t.saf.last = some t.now ∧ t.fld F.SAF_CYCLES_count = (s.fld F.SAF_CYCLES_count + 1) % 2 ^ 32 ∧
        t.flag F.SAF_STATUS_running = true ∧ t.saf.first = false ∧ memoriesStay s t ∧
        (∃ p, t.saf.published = some p ∧ p.at' = t.now + 25 * t.fld F.SAF_TIMING_last) ∧
        (if s.fld F.MODE_SEP_rate = 1 then 3280 ≤ t.fld F.SAF_TIMING_last ∧ t.fld F.SAF_TIMING_last ≤ 3360
          else 5480 ≤ t.fld F.SAF_TIMING_last ∧ t.fld F.SAF_TIMING_last ≤ 5560)) ∧
    ∀ last : Int, s.tclkGone = false → s.pwr.safetyUp = true → s.imageOk = true → s.saf.waiting = none →
      s.saf.published = none → s.flag F.SAF_STATUS_fault = false → s.saf.lastClocks = some last →
      let gap := (s.advanceTo (s.nextSepBoundary * nsUnit)).safetyClocks - last
      let length : Int := s.sepCycle / 25
      (100 * gap < 99 * length ∨ 101 * length < 100 * gap) →
      ∃ t, exec .separationCycle s = .next t ∧ t.flag F.SAF_STATUS_fault = true ∧ t.fld F.SAF_STATUS_fault_cause = 1

/-- SAFETY_FRAME, CONNECTION_LOST, SAFE_INPUT, DISCREPANCY, STO_TEST, READBACK_FAULT and PITCH_HOLD_LOST complete.
R304 to R306, R321, R325 to R329, R362: a good frame runs its connection and a bad one is only counted; a connection
without a good frame for its watchdog time is LOST and holds no record; an ESTOP0 input that shows DEMAND puts its
groups out with STO asserted, an OK one shows it; an input whose channels have disagreed for its discrepancy time is
in FAULT; a test stands at its interval after the last one, and an output that fails it or its readback puts its group
out with STO asserted, and a brake output of no group engages its brake; a home whose record has been missing for four
link cycles gives no pitch. -/
def Obligations.SafetyInputsOutputsAndConnections : Prop :=
  ∀ (s : State), s.imageOk = true →
    let outs (t : State) (g : Nat) : Prop := t.groupState g = 0 ∧ stoOn t g
    (∀ (c : Fin 16) (r : SConn) (bytes : List Byte), Tab.find? s.saf.image.conns c = some r → bytesAt bytes 0 2 = r.conn →
      let good := s.ubkairOk c r bytes && presenceOk r ((bytes.drop 8).take (bytes.length - 12))
      (good = true → ∃ t, exec (.safetyFrame c bytes) s = .next t ∧ t.connState c = 1 ∧
        (t.connOf c).good = some s.now ∧ (t.connOf c).seq = some (bytesAt bytes 2 4) ∧
        t.fld (F.SCONN_FRAMES_good c) = min (s.fld (F.SCONN_FRAMES_good c) + 1) 65535) ∧
      (good = false → ∃ t, exec (.safetyFrame c bytes) s = .next t ∧ regsOnly s t [A.SCONN_FRAMES c] ∧
        t.fld (F.SCONN_FRAMES_bad c) = min (s.fld (F.SCONN_FRAMES_bad c) + 1) 65535)) ∧
    (∀ (c : Fin 16) (t0 : Nat), (s.connOf c).good = some t0 → s.connState c = 1 →
      ∃ t, exec (.connectionLost c) s = .next t ∧ t.connState c = 2 ∧ (t.connOf c).slots = [] ∧ logged s t ∧
        (s.tclkGone = false → (t0 + ((Tab.find? s.saf.image.conns c).getD {}).watchdog * 1000) * nsUnit ≤ t.clk.time) ∧
        t.fld (F.SCONN_STAT_lost_cnt c) = min (s.fld (F.SCONN_STAT_lost_cnt c) + 1) 65535) ∧
    (∀ (k : Fin 16) (a b : ChanLevel),
      let i := s.inputRec k
      let fa := if i.filter ≤ a.held.toNat then a.level else (s.safeIn k).a
      let fb := if i.filter ≤ b.held.toNat then b.level else (s.safeIn k).b
      (i.shows fa fb = some 1 → i.fn = 1 → (s.safeIn k).state = 0 →
        ∃ t, exec (.safeInput k a b) s = .next t ∧ (t.safeIn k).state = 1 ∧ t.bitFld F.SAF_SIN_ok k = false ∧
          memoriesStay s t ∧
          ∀ g, g < 8 → i.groups.testBit g = true →
            t.groupState g = 0 ∧ (s.groupState g ≠ 0 → stoOn t g)) ∧
      (i.shows fa fb = some 0 → (s.safeIn k).state ≤ 1 →
        ∃ t, exec (.safeInput k a b) s = .next t ∧ (t.safeIn k).state = 0 ∧ t.bitFld F.SAF_SIN_ok k = true ∧
          t.grp = s.grp)) ∧
    (∀ (k : Fin 16) (t0 : Nat), (s.safeIn k).odd = some t0 →
      ∃ t, exec (.discrepancy k) s = .next t ∧ (t.safeIn k).state = 2 ∧
        (s.tclkGone = false → (t0 + (s.inputRec k).disc * 1000000) * nsUnit ≤ t.clk.time) ∧ t.bitFld F.SAF_SIN_fault k = true ∧
        t.bitFld F.SAF_SIN_ok k = false) ∧
    (∀ (badA badB : BitVec 8) (badBrake : BitVec 64),
      ∃ t, exec (.stoTest badA badB badBrake) s = .next t ∧ t.saf.lastTest = some t.now ∧
        (∀ t0, s.saf.lastTest = some t0 → s.tclkGone = false →
          (t0 + s.saf.image.stoTest * 1000000) * nsUnit ≤ t.clk.time) ∧
        (∀ g, g < 8 → (badA.getLsbD g = true ∧ s.bitFld F.SAF_STO_a g = true ∨
            badB.getLsbD g = true ∧ s.bitFld F.SAF_STO_b g = true) →
          t.bitFld F.SAF_STO_fault g = true ∧ outs t g) ∧
        ∀ n, n < 64 → badBrake.getLsbD n = true → s.brakeReleased n = true →
          (t.pair A.SAF_BRKF).testBit n = true ∧ t.brakeReleased n = false) ∧
    (∀ (g : Fin 8) (ch : Fin 2), s.pwr.safetyUp = true →
      (∃ t, exec (.readbackFault g ch none) s = .next t ∧ t.bitFld F.SAF_STO_fault g = true ∧ outs t g) ∧
      ∀ n : Fin 64, ∃ t, exec (.readbackFault g ch (some n)) s = .next t ∧ (t.pair A.SAF_BRKF).testBit n = true ∧
        ∀ j, s.sliceGroup n = some j → outs t j) ∧
    ∀ k : Fin 64, s.pitchLocal k = false → 4 ≤ Tab.get (fun _ => 4) s.saf.homeAge (s.pitchHome k) →
      ∃ t, exec (.pitchHoldLost k) s = .next t ∧ t.grp = s.grp ∧
        ∀ j, j < 64 → s.pitchHome j = s.pitchHome k → s.pitchLocal j = false → t.flag (F.SPITCH_W_held j) = false

/-! ## Camyel Link -/

/-- PORT_UP, PORT_DOWN, PROBE, PROBE_ANSWER, ECHO and REOPEN complete. R342, R343, R346, R372: a port comes up and
goes down with a record, and its fall is counted and closes an open break node; a port that is up sends a probe, in
idle time alone, and answers one 64 ns later unless a frame interferes; an answered probe enters the average of the
last 16; a break node reopens only with all its ports up. -/
def Obligations.LinkPorts : Prop :=
  ∀ (s : State) (ch : Chan) (p : PortSide),
    let c := chanNum ch
    let q := portNum p
    let x := s.lport c q
    (s.portUp c q = false →
      (∃ t, exec (.portUp ch p) s = .next t ∧ t.portUp c q = true ∧ t.lport c q = {} ∧ logged s t ∧
        t.lnk.chan = s.lnk.chan ∧ memoriesStay s t) ∧
      ∀ i ∈ [Instr.portDown ch p, .probe ch p, .probeAnswer ch p true, .echo ch p 0, .frameReceive ch p 0 0 []],
        exec i s = .next s) ∧
    (s.portUp c q = true →
      exec (.portUp ch p) s = .next s ∧
      (∃ t, exec (.portDown ch p) s = .next t ∧ t.portUp c q = false ∧ t.lport c q = {} ∧ logged s t ∧
        t.fld (F.PORT_DOWN_downs c q) = min (s.fld (F.PORT_DOWN_downs c q) + 1) 65535 ∧
        (s.openBreak (s.chanOfPort c) = true → t.flag (F.CH_STAT_closed (s.chanOfPort c)) = true)) ∧
      (let u := s.probeMoment c q
       (u.portSends c q u.clk.time (u.clk.time + 1) = false →
        ∃ t, exec (.probe ch p) s = .next t ∧ t.regs = s.regs ∧ (t.lport c q).probing = true ∧
          (t.lport c q).lastProbe = some t.now ∧
          t.lnk.wire = s.lnk.wire ++ [{ ch := c, port := q, start := t.clk.time, sent := .probe }]) ∧
       (u.portSends c q u.clk.time (u.clk.time + 1) = true → exec (.probe ch p) s = .next u)) ∧
      (s.portSends c q s.clk.time (s.clk.time + 64 * 2 ^ 32) = false →
        exec (.probeAnswer ch p true) s = .next { s with lnk := { s.lnk with
          wire := s.lnk.wire ++ [{ ch := c, port := q, start := s.clk.time + 64 * 2 ^ 32, sent := .echo }] } }) ∧
      (s.portSends c q s.clk.time (s.clk.time + 64 * 2 ^ 32) = true → exec (.probeAnswer ch p true) s = .next s) ∧
      exec (.probeAnswer ch p false) s = .next s ∧
      ∀ trip : BitVec 24, x.probing = true →
        let ds := ((5 * (trip.toNat : Int) - 2048) :: x.delays).take 16
        ∃ t, exec (.echo ch p trip) s = .next t ∧ (t.lport c q).delays = ds ∧ (t.lport c q).probing = false ∧
          (t.lport c q).answered = x.answered + 1 ∧
          t.flag (F.PORT_STAT_probe_ok c q) = decide (16 ≤ x.answered + 1) ∧
          ∀ d : Int, ds.foldl (· + ·) 0 = d * (16 * ds.length) → 0 ≤ d → d < 2 ^ 20 →
            (t.fld (F.PORT_DELAY_d c q) : Int) = d) ∧
    (s.cellMode ≠ 1 →
      ((s.portsOf c).all (fun y => s.portUp y.1 y.2) = true →
        ∃ t, exec (.reopen ch) s = .next t ∧ t.flag (F.CH_STAT_closed c) = false ∧ (t.lchan c).oneSided = 0 ∧
          ∀ a, a ≠ A.CH_STAT c → t.reg a = s.reg a) ∧
      ((s.portsOf c).all (fun y => s.portUp y.1 y.2) = false → ∃ t, exec (.reopen ch) s = .next t ∧ onlyRecorded s t))

/-- SCHEDULE_COMMIT, LEAD_READ, BATTEN_SEND, MISSING, FRAME_RECEIVE, LINK_CYCLE_END and LISTEN_TIMEOUT complete. R350,
R353, R354, R356 to R359, R363, R367 to R369: a commit checks the schedule entry by entry; LEAD before its start the
payload of an own NORMAL batten without mapped points is ready, of zeros; at the start plus E of its SYNC batten an
ACTIVE node sends its frame on every port that is up; in ACTIVE a frame with a bad header is counted, with its invalid
code groups, and an accepted NULL frame is noted in its batten and counted; a batten without an accepted frame is
missing; in ACTIVE a cycle without sync values is short, and LNK.SYNC.lose of them lead back to LISTEN; the listen
timeout leads to COLDSTART where the node may cold start, and is awaited again where it may not. -/
def Obligations.LinkSchedule : Prop :=
  ∀ (s : State) (ch : Chan),
    let c := chanNum ch
    (s.cellMode ≠ 1 →
      ((∀ n, n < s.schedCount c → s.entryError c n = 0) →
        ∃ t, exec (.scheduleCommit ch) s = .next t ∧ t.flag (F.CH_STAT_sched_ok c) = true ∧
          t.fld (F.CH_STAT_err_kind c) = 0) ∧
      ∀ n, n < s.schedCount c → s.entryError c n ≠ 0 → (∀ k, k < n → s.entryError c k = 0) →
        ∃ t, exec (.scheduleCommit ch) s = .next t ∧ t.flag (F.CH_STAT_sched_ok c) = false ∧
          t.fld (F.CH_STAT_sched_err c) = n % 2 ^ 12 ∧ t.fld (F.CH_STAT_err_kind c) = s.entryError c n ∧ logged s t) ∧
    (∀ n : Fin 4096, s.chanOn c = true → n.val < s.schedCount c → s.node ≠ 0 → s.tclkGone = false → s.clk.tracked = 0 →
      let e := s.sentry c n
      let k := s.nextInstance c n
      let start := (2 * k * s.linkCycle + 5 * e.start) * 2 ^ 31
      let lead := s.fld F.LNK_LEAD_lead * 1000 * 2 ^ 32
      (e.sender = s.node → e.typ = 1 → e.mcount = 0 → s.twinBatten c n true = none → 0 < s.fld F.LNK_LEAD_lead →
        s.clk.time + lead ≤ start →
        ∃ t, exec (.leadRead ch n) s = .next t ∧ t.clk.time + lead = start ∧ t.regs = s.regs ∧
          Tab.get (fun _ => none) (t.lchan c).ready n = some (toBytes (4 * e.plen) 0)) ∧
      (e.sender = s.node → e.typ = 2 → s.linkState' = 4 → s.fab.tries = [] →
        let instant := (2 * (k * s.linkCycle + s.fld F.LNK_TIMING_eave) + 5 * e.start) / 2
        let payload := toBytes 8 instant ++ toBytes 1 4 ++ toBytes 1 (s.fld F.LNK_CYCLE_n) ++
          toBytes 2 (s.fld F.LNK_SCHED_ID_id) ++ toBytes 4 0
        ∃ t, exec (.battenSend ch n) s = .next t ∧ t.lnk.sentSync = true ∧
          (start + s.fld F.LNK_TIMING_eave * 2 ^ 32 ≤ t.clk.time) ∧ (k, n.val) ∈ (t.lchan c).got ∧
          ∀ y ∈ s.portsOf c, s.portUp y.1 y.2 = true → ∃ w ∈ t.lnk.wire, w.ch = y.1 ∧ w.port = y.2 ∧
            w.sent = .frame (frameBytes 3 s.node c n (k % 2 ^ 24) payload)) ∧
      (e.sender ≠ s.node →
        (s.linkNow / s.linkCycle, n.val) ∉ (s.lchan c).got → (s.linkNow / s.linkCycle, n.val) ∉ (s.lchan c).missed →
        ∃ t, exec (.missing ch n) s = .next t ∧
          t.fld (F.CH_CNT_RX_missing c) = min (s.fld (F.CH_CNT_RX_missing c) + 1) 65535 ∧
          (s.linkNow / s.linkCycle, n.val) ∈ (t.lchan c).missed ∧ (t.lchan c).got = (s.lchan c).got)) ∧
    (∀ (p : PortSide) (fine : Fin 16) (bytes : List Byte),
      let q := portNum p
      let d := s.chanOfPort c
      let f := parseFrame bytes
      let at' := s.transmitAt c q fine f
      s.portUp c q = true → s.linkState' = 4 → s.chanOn d = true →
      (∀ groups : BitVec 16, headerGood bytes = false → ∃ t, exec (.frameReceive ch p fine groups bytes) s = .next t ∧
        regsOnly s t [A.PORT_ERR c q] ∧
        t.fld (F.PORT_ERR_code c q) = min (s.fld (F.PORT_ERR_code c q) + groups.toNat) 65535 ∧
        t.fld (F.PORT_ERR_hdr c q) = min (s.fld (F.PORT_ERR_hdr c q) + 1) 65535) ∧
      ∀ e : SEntry, headerGood bytes = true → f.source ≠ s.node → s.frameEntry d f = some e →
        s.frameIdent d e (s.deviation e at').1 f = true → s.inWindow (s.deviation e at').2 = true →
        f.length ≤ 4 * e.plen → f.fcsOk = true → f.typ = 2 →
        ((s.deviation e at').1.toNat, f.batten) ∉ (s.lchan d).got →
        ∃ t, exec (.frameReceive ch p fine 0 bytes) s = .next t ∧
          (t.lchan d).got = ((s.deviation e at').1.toNat, f.batten) :: (s.lchan d).got ∧
          t.fld (F.CH_CNT_RX_nulls d) = min (s.fld (F.CH_CNT_RX_nulls d) + 1) 65535 ∧ t.mode = s.mode ∧
          t.coord = s.coord ∧ memoriesStay s t) ∧
    (s.fld F.TWN_STAT_role = 0 → s.linkState' = 4 → s.lnk.vals = [] → s.lnk.sentSync = false →
      ∃ t, exec .linkCycleEnd s = .next t ∧ t.lnk.vals = [] ∧
        t.mode.peers = s.expectPeers.mode.peers.map (fun y => (y.1, { y.2 with age := y.2.age + 1 })) ∧
        (∀ n, n < 16 → s.coordSource n = 3 → (t.coordOf n).stale = (s.coordOf n).stale + 1) ∧
        if s.lnk.short + 1 < s.fld F.LNK_SYNC_lose then t.linkState' = 4 ∧ t.lnk.short = s.lnk.short + 1
        else t.linkState' = 1 ∧ t.lnk.short = 0) ∧
    (s.linkState' = 1 → ∃ t, exec .listenTimeout s = .next t ∧
      if s.flag F.LNK_CFG_cs_en && s.ownSync then
        t.linkState' = 2 ∧ t.fld F.LNK_CNT2_coldstarts = min (s.fld F.LNK_CNT2_coldstarts + 1) 65535
      else t.linkState' = 1 ∧ t.regs = s.regs ∧ t.lnk.listenFrom = t.now)

/-! ## Twin -/

/-- TWIN_START, CLAIM, YIELD, MIRROR_LOSS, ACT_IN_FALL, HANDOVER, ACT_IN_RISE, YIELD_COMPLETE and
MIRROR_CONFIRM_TIMEOUT complete. R374, R377, R384, R386 to R390: a PRIMARY device that may start drives, and a claim
makes any that may start do so; a yield is asked only of the ACTIVE device of a pair whose peer is STANDBY; loss of
the mirror, with the own health healthy, and a fall of ACT_IN decide a takeover of a STANDBY, at the first multiple of
125 us at least 100 us later; at its instant the device drives; a rise of ACT_IN stops the ACTIVE device's writes to
host memory, and with every slice inhibited it puts its groups out and lowers ACT_OUT; the
filtered edges of ACT_IN lie at least 1 us apart; a command that the standby has not confirmed within 8 link cycles is rejected with reason
TWIN_MIRROR. -/
def Obligations.TwinRoles : Prop :=
  ∀ (s : State),
    let role := s.fld F.TWN_STAT_role
    let drives (t : State) : Prop :=
      t.fld F.TWN_STAT_role = 3 ∧ t.flag F.TWN_STAT_act_out = true ∧ t.actOut = t.pwr.safetyUp ∧ t.twin.decision = none
    let filtered (t : State) : Prop := s.tclkGone = false → ∀ e, s.twin.actAt = some e → e + 1000 * nsUnit ≤ t.clk.time
    (s.mayStart = true → s.flag F.TWN_CFG_prefer = false → ∃ t, exec .twinStart s = .next t ∧ drives t) ∧
    (s.mayStart = false → exec .twinStart s = .next s) ∧
    (s.cellMode ≠ 1 →
      (s.mayStart = true → ∃ t, exec .claim s = .next t ∧ drives t ∧ t.fld F.TWN_LAST_outcome = 2 ∧
        t.fld F.TWN_LAST_cause = 6) ∧
      (s.mayStart = false → ∃ t, exec .claim s = .next t ∧ onlyRecorded s t) ∧
      (role = 3 → s.twin.peerRole = 2 → exec .yield s = .next { s with twin := { s.twin with yielding := true } }) ∧
      (role ≠ 3 ∨ s.twin.peerRole ≠ 2 → ∃ t, exec .yield s = .next t ∧ onlyRecorded s t)) ∧
    (role = 2 → s.twin.decision = none →
      (s.fld F.TWN_CFG_loss ≤ s.twin.loss → healthy s.healthWord = true →
        ∃ (t : State) (T : Nat), exec .mirrorLoss s = .next t ∧ t.twin.decision = some (3, T) ∧ T % 125000 = 0 ∧
          s.now + 100000 ≤ T ∧ T < s.now + 225000 ∧ t.regs = s.regs) ∧
      (s.flag F.TWN_STAT_act_in = true → s.twin.peerRole = 3 →
        ∃ (t : State) (T : Nat), exec .actInFall s = .next t ∧ t.twin.decision = some (2, T) ∧ T % 125000 = 0 ∧
          t.now + 100000 ≤ T ∧ T < t.now + 225000 ∧ t.flag F.TWN_STAT_act_in = false ∧ filtered t)) ∧
    (∀ cause T : Nat, role = 2 → s.twin.decision = some (cause, T) → cause ≤ 5 →
      ∃ t, exec .handover s = .next t ∧ drives t ∧ (s.tclkGone = false → T * nsUnit ≤ t.clk.time) ∧
        t.fld F.TWN_LAST_outcome = 2 ∧ t.fld F.TWN_LAST_cause = cause ∧
        t.fld F.TWN_CNT_handovers = min (s.fld F.TWN_CNT_handovers + 1) (2 ^ F.TWN_CNT_handovers.width - 1)) ∧
    (role = 3 → s.flag F.TWN_STAT_act_in = false → s.twin.riseAt = none →
      ∃ t, exec .actInRise s = .next t ∧ t.flag F.TWN_STAT_act_in = true ∧ t.twin.riseAt = some t.clk.time ∧
        filtered t ∧ t.hostOut = false ∧ t.hostMem = s.hostMem) ∧
    (s.flag F.TWN_STAT_act_in = true → exec .actInRise s = .next s) ∧
    (s.flag F.TWN_STAT_act_in = false → exec .actInFall s = .next s) ∧
    (role = 3 → s.twin.riseAt ≠ none → s.allInhibited = true → s.ldg.twinWait = [] →
      (s.twin.yielding = true ∨ s.twin.lost = true) →
      ∃ t, exec .yieldComplete s = .next t ∧ t.flag F.TWN_STAT_act_out = false ∧
        t.fld F.TWN_STAT_role = (if s.twin.yielding then 2 else 4) ∧ t.mode.change = none ∧ allOut t ∧
        ∀ g, g < 8 → t.fld (F.GRP_STATUS_reason g) = 7) ∧
    ∀ (n : Fin 16) (w : Verifying) (k : Nat), s.ldg.twinWait = [(w, k)] → w.head.ledger = n → 8 ≤ k → s.mayDispose n = true →
      let m := s.fld (F.CMD_CFG_cpl n)
      ∃ t, exec (.mirrorConfirmTimeout n) s = .next t ∧ t.ldg.twinWait = [] ∧ t.ldg.outst = s.ldg.outst ∧
        (t.cursor n).disposed = w.head.seq.toNat ∧ (t.cursor n).accepted = (s.cursor n).accepted ∧ t.grp = s.grp ∧
        t.mode = s.mode ∧
        (ringOpen s m 1 → descriptorAt s t m 0 = Completion.bytes
          { ledger := n, seq := w.head.seq.toNat, opcode := HostCmd.opcode w.cmd, kind := 2, reason := Reason.twinMirror.code,
            stamp := s.now, result := 0, irq := false } (phaseAt s m 0))

/-! ## Host registers -/

/-- R7, R35: an access of another width or alignment, and one at an offset that no register occupies, reads 0; as a
write it changes nothing and leaves, where records enter, a tally record of class configuration (class 2), which below
the stage that merges different values holds the offset. Of the state only the interconnect's turn may have moved
(R27). The state is one in which no vote and no repeated read of a point has ended before the access. -/
def Obligations.StrayAccesses : Prop :=
  ∀ (s : State) (bar2 : Bool) (off : BitVec 22) (n : Fin 9) (data : BitVec 64), settled s →
    let a := off.toNat
    let free (k : Nat) : Prop := if bar2 then k % 0x100 ≠ 0 ∨ 0x2400 ≤ k else findReg k = none
    let recorded (t : State) (k : Nat) : Prop :=
      recording s → (∃ r ∈ t.tly.ring, r.cls = 2) ∧
        (s.tly.ring.length + 1 < 3584 → ∃ r ∈ t.tly.ring, r.cls = 2 ∧ r.d0 % 2 ^ 22 = k)
    let stray (more : Option Nat) : Prop :=
      let b := s.bridged bar2 a
      exec (.registerRead bar2 off n) s = .next { b with hostRead := 0 } ∧
        ∃ t, exec (.registerWrite bar2 off n data) s = .next t ∧ onlyRecorded b t ∧ recorded t a ∧
          ∀ k, more = some k → recorded t k
    (¬(n.val = 4 ∧ a % 4 = 0) → ¬(n.val = 8 ∧ a % 8 = 0) → stray none) ∧
      (n.val = 4 → a % 4 = 0 → free a → stray none) ∧
      (n.val = 8 → a % 8 = 0 → free a → free (a + 4) → stray (if bar2 then none else some (a + 4)))

/-- REGISTER_READ, REGISTER_WRITE, STANDALONE and CHANNEL_ENABLE complete. R7 to R13, R43, R46, R372, R397: a read
shows a register's present value, a pair by the holding copy of its upper word, a doorbell its count; a write of
LNK.LEAD, a field for CONFIGURE, applies there within its range and is discarded beyond it, and in another mode it is
discarded where it would change the field; a 1 clears a W1C bit of CMD.STAT unless hardware has set it in the same
clock; the pair MODE.REQ.EPOCH is written whole. RT.CTRL.standalone makes the node its own master at once; disabling
both channels turns the link off. The state is one in which no vote and no repeated read of a point has ended before
the access. -/
def Obligations.RegistersReadAndWrite : Prop :=
  ∀ (s : State) (data : BitVec 64), settled s →
    let word := data.toNat % 2 ^ 32
    (∀ (off : BitVec 22) (r : RegDesc) (is : List Nat), findReg off.toNat = some (r, is) → off.toNat % 4 = 0 →
      let a := off.toNat
      let b := s.bridged false a
      let upper := s.liveWord (a + 4)
      (r.pair = false →
        exec (.registerRead false off 4) s = .next { b with hostRead := (s.liveWord a).setWidth 64 } ∧
        (a % 8 = 0 → ∃ t, exec (.registerRead false off 8) s = .next t ∧ t.hostRead.setWidth 32 = s.liveWord a ∧
          t.regs = s.regs)) ∧
      (r.pair = true → (a - r.addr) % 8 = 0 → a % 8 = 0 →
        exec (.registerRead false off 8) s = .next { b with hostRead := upper ++ s.liveWord a } ∧
        ∃ t, exec (.registerRead false off 4) s = .next t ∧ t.hostRead = (s.liveWord a).setWidth 64 ∧ t.regs = s.regs ∧
          Tab.get (fun _ => none) t.holdRead (a + 4) = some upper) ∧
      (r.pair = true → (a - r.addr) % 8 ≠ 0 →
        ∃ t, exec (.registerRead false off 4) s = .next t ∧ t.regs = s.regs ∧
          t.hostRead = ((Tab.get (fun _ => none) s.holdRead a).getD (s.liveWord a)).setWidth 64 ∧
          Tab.get (fun _ => none) t.holdRead a = none)) ∧
    (∀ n : Fin 16, ∀ w ∈ [4, 8], (s.cursor n).producer < 2 ^ 32 →
      exec (.registerRead true (BitVec.ofNat 22 (n.val * 0x100)) w) s =
        .next { s with hostRead := BitVec.ofNat 64 (s.cursor n).producer }) ∧
    exec (.registerRead false (BitVec.ofNat 22 A.RT_NOW) 8) s = .next { s with hostRead := BitVec.ofNat 64 s.now } ∧
    (let civil : Int := (s.now : Int) + s.ipair A.RT_CIVIL_OFS +
       Int.tdiv (((s.now : Int) - s.pair A.RT_CIVIL_REF) * s.ifld F.RT_CIVIL_RATE_rate) (2 ^ 32)
     exec (.registerRead false (BitVec.ofNat 22 A.RT_CIVIL) 8) s = .next { s with hostRead := BitVec.ofInt 64 civil }) ∧
    exec (.registerRead false (BitVec.ofNat 22 A.LNK_LEAD) 4) s =
      .next { s with hostRead := (s.reg A.LNK_LEAD).setWidth 64 } ∧
    (let lead := word % 2 ^ 7
     let write (p : State → Prop) : Prop :=
       ∃ t, exec (.registerWrite false (BitVec.ofNat 22 A.LNK_LEAD) 4 data) s = .next t ∧ p t
     (s.cellMode = 2 → 1 ≤ lead → lead ≤ 100 → write fun t =>
       regsOnly s t [A.LNK_LEAD] ∧ t.fld F.LNK_LEAD_lead = lead) ∧
     (s.cellMode = 2 → lead = 0 ∨ 100 < lead → write (onlyRecorded s)) ∧
     (s.cellMode ≠ 1 → s.cellMode ≠ 2 →
       (lead ≠ s.fld F.LNK_LEAD_lead → write (onlyRecorded s)) ∧
         (lead = s.fld F.LNK_LEAD_lead → write fun t => regsOnly s t []))) ∧
    (s.cellMode ≠ 1 → ∀ n : Fin 16,
      let fresh := s.raisedNow (A.CMD_STAT n)
      ∃ t, exec (.registerWrite false (BitVec.ofNat 22 (A.CMD_STAT n)) 4 data) s = .next t ∧
        regsOnly s t [A.CMD_STAT n] ∧
        t.flag (F.CMD_STAT_db_err n) = (s.flag (F.CMD_STAT_db_err n) && !(data.getLsbD 0 && !fresh.testBit 0)) ∧
        t.flag (F.CMD_STAT_fetch_err n) = (s.flag (F.CMD_STAT_fetch_err n) && !(data.getLsbD 1 && !fresh.testBit 1))) ∧
    (s.cellMode = 2 →
      let a := A.MODE_REQ_EPOCH
      let held := Tab.get (fun _ => none) s.holdWrite a
      (∃ t, exec (.registerWrite false (BitVec.ofNat 22 a) 8 data) s = .next t ∧ t.pair a = data.toNat ∧
        (∀ k, k ≠ a → k ≠ a + 4 → t.reg k = s.reg k) ∧ Tab.get (fun _ => none) t.holdWrite a = none) ∧
      (∃ t, exec (.registerWrite false (BitVec.ofNat 22 a) 4 data) s = .next t ∧ t.regs = s.regs ∧
        Tab.get (fun _ => none) t.holdWrite a = some (BitVec.ofNat 32 word)) ∧
      ∃ t, exec (.registerWrite false (BitVec.ofNat 22 (a + 4)) 4 data) s = .next t ∧
        t.pair a = (held.getD (s.reg a)).toNat + word * 2 ^ 32 ∧ (∀ k, k ≠ a → k ≠ a + 4 → t.reg k = s.reg k) ∧
        Tab.get (fun _ => none) t.holdWrite a = none) ∧
    (∀ on : Bool,
      let period := fieldOf (s.reg A.RT_CTRL) 8 8
      (s.cellMode = 2 → 1 ≤ period → period ≤ 200 →
        ∃ t, exec (.standalone on) s = .next t ∧ t.flag F.RT_CTRL_standalone = on ∧
          (on = true → s.flag F.RT_CTRL_standalone = false → s.linkState' ≠ 6 →
            t.linkState' = 6 ∧ t.fld F.RT_RATE_rate = 0 ∧ t.fld F.RT_STATUS_state = 4) ∧
          (on = false → s.flag F.RT_CTRL_standalone = true → s.linkState' = 6 →
            t.linkState' = (if s.node ≠ 0 ∧ (s.chanOn 0 = true ∨ s.chanOn 1 = true) then 1 else 0) ∧
              t.fld F.RT_RATE_rate = 0)) ∧
      (s.cellMode ≠ 2 → s.flag F.RT_CTRL_standalone = !on →
        ∃ t, exec (.standalone on) s = .next t ∧ onlyRecorded s t)) ∧
    ∀ a b : Bool,
      let was := s.flag F.LNK_CFG_ena_a || s.flag F.LNK_CFG_ena_b
      (s.cellMode = 2 →
        ∃ t, exec (.channelEnable a b) s = .next t ∧ t.flag F.LNK_CFG_ena_a = a ∧ t.flag F.LNK_CFG_ena_b = b ∧
          t.node = s.node ∧
          (a = false → b = false → was = true → s.linkState' ≠ 6 → t.linkState' = 0) ∧
          (a = true → s.flag F.LNK_CFG_ena_a = false → s.node ≠ 0 → s.linkState' = 0 →
            s.flag (F.CH_STAT_sched_ok 0) = true → t.linkState' = 1)) ∧
      (s.cellMode ≠ 2 → a ≠ s.flag F.LNK_CFG_ena_a → ∃ t, exec (.channelEnable a b) s = .next t ∧ onlyRecorded s t)

/-! ## Rings, fetches and images -/

/-- DOORBELL, COMPLETION_DOORBELL, LEDGER_FULL, MODERATION_TIMEOUT, TALLY_TAKE and LINK_STATE complete. R36, R393,
R394, R397, R398, R422, R425, R430, R433, R434: a doorbell sets its ledger's producer count unless the ring would hold
too much or the count move back; a consumer doorbell frees slots up to the produced count; a discarded one sets
db_err, signals EVENT and is recorded. A ledger that stays full is reported again, unsignalled descriptors are
signalled when their time is over, a tally ledger takes its oldest record, as it stood before a merge of the same
clock. Host memory is reachable while the link is up, Bus Master Enable is 1 and the function is in D0; its loss and
return show in LDG.STAT.link and are recorded, and pending vectors go out at its return. -/
def Obligations.HostRings : Prop :=
  ∀ (s : State) (count : Word),
    let k := count.toNat
    let signalled (t : State) (v : Nat) : Prop := t.irqs = s.irqs ++ [v] ∨ (t.pair A.PBA_PBA).testBit v = true
    let hostRecord (t : State) (code : Nat) : Prop := loggedAs s t 11 code
    let idle : Prop := s.ldg.outst = [] ∧ s.ldg.twinWait = [] ∧ s.ldg.verify = [] ∧ s.twin.disps = []
    let bad (t : State) (err : Fld) : Prop :=
      t.flag err = true ∧ signalled t 20 ∧ hostRecord t 2 ∧ t.ldg = s.ldg ∧ t.hostMem = s.hostMem
    (∀ n : Fin 16,
      let consumed := s.fld (F.CMD_CONSUMED_count n)
      let held (x : Nat) : Nat := (x + 2 ^ 32 - consumed) % 2 ^ 32
      let good : Prop := held k ≤ 2 ^ s.fld (F.CMD_CFG_size n) ∧ held (s.cursor n).producer ≤ held k
      exec (.registerWrite true (BitVec.ofNat 22 (n.val * 0x100)) 4 (count.setWidth 64)) s = exec (.doorbell n count) s ∧
      (s.cellMode ≠ 1 →
        (good → ∃ t, exec (.doorbell n count) s = .next t ∧ t.cursor n = { s.cursor n with producer := k } ∧
          t.regs = s.regs ∧ { t with ldg := s.ldg } = s ∧ ∀ j, j ≠ n.val → t.cursor j = s.cursor j) ∧
        (¬good → ∃ t, exec (.doorbell n count) s = .next t ∧ bad t (F.CMD_STAT_db_err n)))) ∧
    (∀ m : Fin 16, s.cellMode ≠ 1 →
      let old := s.fld (F.CPL_CONSUMED_count m)
      let good : Prop := (k + 2 ^ 32 - old) % 2 ^ 32 ≤ (s.fld (F.CPL_PRODUCED_count m) + 2 ^ 32 - old) % 2 ^ 32
      (good → ∃ t, exec (.completionDoorbell (.completion m) count) s = .next t ∧ t.fld (F.CPL_CONSUMED_count m) = k ∧
        (idle → ∀ a, a ∉ [A.CPL_CONSUMED m, A.CPL_STAT m] → t.reg a = s.reg a)) ∧
      (¬good → ∃ t, exec (.completionDoorbell (.completion m) count) s = .next t ∧ bad t (F.CPL_STAT_db_err m))) ∧
    (∀ j : Fin 4, s.cellMode ≠ 1 →
      let old := s.fld (F.TAL_CONSUMED_count j)
      let good : Prop := (k + 2 ^ 32 - old) % 2 ^ 32 ≤ (s.fld (F.TAL_PRODUCED_count j) + 2 ^ 32 - old) % 2 ^ 32
      (good → ∃ t, exec (.completionDoorbell (.tally j) count) s = .next t ∧ t.fld (F.TAL_CONSUMED_count j) = k ∧
        regsOnly s t [A.TAL_CONSUMED j, A.TAL_STAT j]) ∧
      (¬good → ∃ t, exec (.completionDoorbell (.tally j) count) s = .next t ∧ bad t (F.TAL_STAT_db_err j))) ∧
    (∀ m : Fin 16,
      (∀ t0, (s.cplSide m).fullSince = some t0 →
        ∃ t, exec (.ledgerFull m) s = .next t ∧ (t.cplSide m).told = (s.cplSide m).told + 1 ∧ signalled t 20 ∧
          hostRecord t 4 ∧
          (s.tclkGone = false → t0 + ((s.cplSide m).told + 1) * s.fld F.LDG_LIMIT_stall * 1000000 ≤ t.now)) ∧
      ((s.cplSide m).fullSince = none → exec (.ledgerFull m) s = .next s)) ∧
    (∀ m : Fin 16,
      ((s.cplSide m).unsignalled = 0 → exec (.moderationTimeout (.completion m)) s = .next s) ∧
      ((s.cplSide m).unsignalled ≠ 0 → ∃ t, exec (.moderationTimeout (.completion m)) s = .next t ∧
        (t.cplSide m).unsignalled = 0 ∧ signalled t m ∧ t.hostMem = s.hostMem ∧
        (s.tclkGone = false → (s.cplSide m).since + s.fld (F.CPL_MOD_time m) * 1000 ≤ t.now))) ∧
    (∀ j : Fin 4,
      ((s.talSide j).unsignalled = 0 → exec (.moderationTimeout (.tally j)) s = .next s) ∧
      ((s.talSide j).unsignalled ≠ 0 → ∃ t, exec (.moderationTimeout (.tally j)) s = .next t ∧
        (t.talSide j).unsignalled = 0 ∧ signalled t (16 + j.val) ∧ t.hostMem = s.hostMem ∧
        (s.tclkGone = false → (s.talSide j).since + s.fld (F.TAL_MOD_time j) * 1000 ≤ t.now))) ∧
    (∀ j : Fin 4,
      let n := s.fld (F.TAL_PRODUCED_count j)
      let size := s.fld (F.TAL_CFG_size j)
      let ready : Prop := s.hostOut = true ∧ s.flag (F.TAL_CFG_enable j) = true ∧
        ringHeld n (s.fld (F.TAL_CONSUMED_count j)) < 2 ^ size
      (∀ r, ready → s.tly.ring.find? (fun r => r.ledger == j.val) = some r →
        let slot := s.pair (A.TAL_BASE j) + n % 2 ^ size * 64
        let merges := s.mergesNow.filter fun m => m.1.seq == r.seq
        (merges = [] → ∃ t, exec (.tallyTake j) s = .next t ∧ t.tly.ring = s.tly.ring.erase r ∧
          t.tly.entered = s.tly.entered ∧ tabNat t.tly.taken j = tabNat s.tly.taken j + 1 ∧
          memBytes t.hostMem slot 64 = r.bytes (phaseOf size n) ∧
          t.fld (F.TAL_PRODUCED_count j) = (n + 1) % 2 ^ 32) ∧
        ∀ m ms, merges = m :: ms → ∃ t, exec (.tallyTake j) s = .next t ∧
          tabNat t.tly.taken j = tabNat s.tly.taken j + 1 ∧
          memBytes t.hostMem slot 64 = m.1.bytes (phaseOf size n) ∧
          t.fld (F.TAL_PRODUCED_count j) = (n + 1) % 2 ^ 32) ∧
      (¬ready ∨ s.tly.ring.find? (fun r => r.ledger == j.val) = none → exec (.tallyTake j) s = .next s)) ∧
    ∀ c : PcieSetup,
      let reaches := c.link && c.busMaster && !c.d3hot
      (s.hostUp = reaches → exec (.linkState c) s = .next { s with pcie := c }) ∧
      (s.hostUp = true → reaches = false →
        ∃ t, exec (.linkState c) s = .next t ∧ t.hostUp = false ∧ t.pcie = c ∧ hostRecord t 1 ∧ t.ldg = s.ldg ∧
          t.hostMem = s.hostMem ∧ t.irqs = s.irqs) ∧
      (s.hostUp = false → reaches = true → idle →
        ∃ t, exec (.linkState c) s = .next t ∧ t.hostUp = true ∧ t.pcie = c ∧ hostRecord t 1 ∧ t.ldg = s.ldg ∧
          t.hostMem = s.hostMem ∧
        (s.twin.hostStop = false → ∀ v, v < 21 → (s.pair A.PBA_PBA).testBit v = true →
          s.flag (F.MSIX_CTRL_mask v) = false → v ∈ t.irqs ∧ (t.pair A.PBA_PBA).testBit v = false))

/-- DESCRIPTOR_FETCH, SAFETY_LOAD, IMAGE_LOAD_LOOP, IMAGE_LOAD_FIRMWARE, IMAGE_VERIFIED, PCTL_READ, PCTL_WRITE and
MIRROR_COPY complete. R403, R424, R437 to R443, R450, R453, R455: a descriptor that can be read is disposed of as its
command; a fetch that fails is retried twice, and the third failure sets fetch_err. An image command waits for its
verification, after which a good image's IMAGE_LOAD begins and a bad one's is rejected. PCTL reads and writes the
selected point, and only a HOST point is written; a read that finds the point's version odd is repeated and has
counted no failure yet; a due point is copied to host memory. -/
def Obligations.FetchesImagesAndPoints : Prop :=
  ∀ (s : State) (h : CmdHead),
    let n := h.ledger.val
    let seq := h.seq.toNat
    (∀ ok : Bool, s.canDispose n = false → exec (.descriptorFetch h.ledger ok) s = .next s) ∧
    (s.canDispose n = true →
      let place := s.pair (A.CMD_BASE n) + s.fld (F.CMD_CONSUMED_count n) % 2 ^ s.fld (F.CMD_CFG_size n) * 64
      let fails := tabNat s.ldg.fetchFails n
      (∀ (bs : List Byte) (a b : Byte) (e : BitVec 16) (x : BitVec 64),
        s.readBuffer place 64 = some bs →
        ∀ q ∈ [(Instr.nopCmd h, HostCmd.nop), (.status h, .status), (.abort h x, .abort x), (.segSkip h a, .segSkip a),
               (.modeSet h a e x, .modeSet a e x), (.groupSet h a b, .groupSet a b)],
          parseDescr h.ledger bs = descrOf h q.2 → exec (.descriptorFetch h.ledger true) s = exec q.1 s) ∧
      ∀ ok : Bool, s.readBuffer place 64 = none ∨ ok = false →
        ∃ t, exec (.descriptorFetch h.ledger ok) s = .next t ∧ t.cursor n = s.cursor n ∧
          t.fld (F.CMD_CONSUMED_count n) = s.fld (F.CMD_CONSUMED_count n) ∧ tabNat t.ldg.fetchFails n = fails + 1 ∧
          (fails < 2 → t.regs = s.regs) ∧
          (fails = 2 → t.flag (F.CMD_STAT_fetch_err n) = true ∧ t.canDispose n = false ∧ logged s t)) ∧
    (∀ (g : Byte) (addr : BitVec 64) (len : Word) (bs : List Byte),
      ∀ q ∈ [(Instr.safetyLoad h addr len, HostCmd.safetyLoad addr len),
             (.imageLoadLoop h g addr len, .imageLoad 1 g addr len), (.imageLoadFirmware h addr len, .imageLoad 2 0 addr len)],
        s.canDispose n = true → seq = (s.cursor n).disposed + 1 → s.checkCmd (descrOf h q.2) q.2 = .ok bs →
        ∃ t, exec q.1 s = .next t ∧ { t with ldg := s.ldg } = s ∧ t.cursor n = s.cursor n ∧ t.ldg.outst = s.ldg.outst ∧
          t.ldg.verify = s.ldg.verify ++ [{ head := h, cmd := q.2, data := bs }]) ∧
    (s.ldg.verify = [] → exec .imageVerified s = .next s) ∧
    (∀ (k g : Byte) (addr : BitVec 64) (len : Word) (bs : List Byte),
      s.ldg.verify = [{ head := h, cmd := .imageLoad k g addr len, data := bs }] → s.mayDispose n = true →
      s.modeCheck (.imageLoad k g addr len) = none → s.ownCheck (.imageLoad k g addr len) bs = none →
      let why := s.imageCheck bs len.toNat (some (k.toNat, if k.toNat = 2 then 0 else g.toNat))
      (why = .none → s.mirrorWaits n seq = false → s.ldg.outst = [] →
        ∃ t, exec .imageVerified s = .next t ∧ t.ldg.verify = [] ∧ accepted s t h ∧
          ∃ j, t.sec.job = some j ∧ j.cmd = some (n, seq) ∧ j.image = parseImage bs ∧ j.written = false) ∧
      (why ≠ .none → ∃ t, exec .imageVerified s = .next t ∧ t.ldg.verify = [] ∧ t.sec = s.sec ∧
        (t.cursor n).disposed = seq ∧ (t.cursor n).accepted = (s.cursor n).accepted ∧ t.ldg.outst = s.ldg.outst ∧
        t.prog = s.prog)) ∧
    (let p := s.fld F.FAB_PSEL_point
     s.cellMode ≠ 1 → s.fab.tries = [] →
     (s.pointKind p = 0 → ∃ t, exec .pctlRead s = .next t ∧ t.flag F.FAB_PCTL_err = true ∧ logged s t ∧
       ∀ w, w < 64 → t.reg (A.FAB_PDATA w) = s.reg (A.FAB_PDATA w)) ∧
     (s.pointKind p ≠ 0 → s.sramBad = [] → s.dramBad = [] →
       (s.pointVer p % 2 = 0 → ∃ t, exec .pctlRead s = .next t ∧ memoriesStay s t ∧
         t.fld F.FAB_PVER_ver = s.pointVer p ∧ t.pair A.FAB_PSTAMP = s.pointStamp p ∧
         ∀ w, w < s.pointWords p →
           t.reg (A.FAB_PDATA w) = BitVec.ofNat 32 (bytesAt (s.pointRecord p) (4 * w) 4)) ∧
       (s.pointVer p % 2 = 1 → ∃ t, exec .pctlRead s = .next t ∧ t.hostReads = true ∧
         (t.liveWord A.FAB_PCTL).getLsbD F.FAB_PCTL_busy.lsb = true ∧ t.regs = s.regs ∧
         ∃ y, t.fab.tries = [y] ∧ y.point = p ∧ y.next = s.clk.time + 50 * nsUnit ∧ y.left = 7)) ∧
     (s.pointKind p ≠ 3 → ∃ t, exec .pctlWrite s = .next t ∧ memoriesStay s t ∧ t.flag F.FAB_PCTL_err = true ∧
       t.fld F.FAB_STAT_refused = satCount F.FAB_STAT_refused.width (s.fld F.FAB_STAT_refused + 1)) ∧
     (s.pointKind p = 3 → ∃ t, exec .pctlWrite s = .next t ∧ t.pointVer p = (s.pointVer p + 2) % 2 ^ 32 ∧
       t.pointStamp p = s.now % 2 ^ 64 ∧
       t.pointRecord p = (List.range (s.pointWords p)).flatMap fun w => toBytes 4 (s.reg (A.FAB_PDATA w)).toNat)) ∧
    ∀ p : BitVec 17,
      (p.toNat ∈ s.fab.due → s.hostOut = true →
        ∃ t, exec (.mirrorCopy p) s = .next t ∧ p.toNat ∉ t.fab.due ∧ t.regs = s.regs ∧
          memBytes t.hostMem (s.pair A.FAB_HOST_BASE + s.pointOffset p.toNat) (16 + 4 * s.pointWords p.toNat) =
            s.fabBytes (s.pointOffset p.toNat) (16 + 4 * s.pointWords p.toNat) ∧
          ∀ t0, Tab.get (fun _ => none) s.fab.copied p.toNat = some t0 → s.tclkGone = false → t0 + 10000 ≤ t.now) ∧
      (p.toNat ∉ s.fab.due ∨ s.hostOut = false → exec (.mirrorCopy p) s = .next s)

/-! ## Reset, boot and memories -/

/-- DEVICE_RESET, PCIE_FUNDAMENTAL_RESET, SERVICE_WATCHDOG, RESET_RELEASE, BROWNOUT, ALWAYS_ON_SOURCE_SWITCH,
SAFETY_REGION_RESET_RELEASE, MEM_START, TRAINING_DONE, RETRAIN and SCRUB complete. R75, R92, R394, R435, R445, R446,
R451, R455, R464 to R467, R476, R477: a device reset puts the block into BOOT with every group OUT for RESET and keeps
host memory, OTP state and, where the always-on domain stood, its registers and the tally; a PCIe hot reset not
enabled is a reset of the endpoint alone, which keeps BAR0's registers and takes host memory out of reach. A release
starts ridge time at 0 and, where records enter, enters the RESET record. Training, supplies and clocks show in their
registers; what scrubbing corrects in shared SRAM, DRAM and retention memory is counted, what it finds in local data
stands there, and an uncorrectable error marks its word or line. -/
def Obligations.ResetsSuppliesAndMemories : Prop :=
  ∀ (s : State),
    (∀ (cause : ResetCause) (kept : Bool), cause ≠ .hotReset ∨ s.flag F.SEC_RSTCFG_hot = true →
      ∃ t, exec (.deviceReset cause kept) s = .next t ∧ t.cellMode = 1 ∧ t.pwr.held = true ∧
        (∀ g, g < 8 → t.groupState g = 0 ∧ t.fld (F.GRP_STATUS_reason g) = 0) ∧ t.core = [] ∧ t.sram = [] ∧
        t.hostMem = s.hostMem ∧ t.sec.keys = s.sec.keys ∧ t.reg A.SEC_DEVID = s.reg A.SEC_DEVID ∧
        t.reg A.SEC_ROLLBACK = s.reg A.SEC_ROLLBACK ∧
        t.flag F.SEC_PROV_provisioned = s.flag F.SEC_PROV_provisioned ∧
        t.fld F.SEC_DBG_state = (if s.flag F.SEC_PROV_provisioned then 0 else 1) ∧
        (kept = true → t.tly = s.tly ∧ t.reg A.TLY_CFG = s.reg A.TLY_CFG ∧ t.reg A.MEM_CFG = s.reg A.MEM_CFG ∧
          (∀ n, n < 16 → t.cursor n = { s.cursor n with producer := 0 } ∧ t.reg (A.CMD_CFG n) = s.reg (A.CMD_CFG n)) ∧
          t.pair A.SEC_BOOT_ADDR = s.pair A.SEC_BOOT_ADDR ∧ ∀ x, x < 1024 → t.reg (A.MEM_RET x) = s.reg (A.MEM_RET x)) ∧
        (kept = false → t.tly.ring = [] ∧ t.pwr.cause = 4)) ∧
    (∀ kept : Bool, s.flag F.SEC_RSTCFG_hot = false →
      exec (.deviceReset .hotReset kept) s = exec .pcieFundamentalReset s) ∧
    exec .serviceWatchdog s = exec (.deviceReset .serviceWatchdog true) s ∧
    (∃ t, exec .pcieFundamentalReset s = .next t ∧ t.hostUp = false ∧ t.pcie = {} ∧ t.ldg = s.ldg ∧
      t.hostMem = s.hostMem ∧ ∀ a, a ∉ [A.LDG_STAT, A.TLY_MERGED, A.TLY_OCC] → t.reg a = s.reg a) ∧
    (s.pwr.held = true → s.tclkGone = false → ∃ t, exec .resetRelease s = .next t ∧ t.pwr.held = false ∧ t.clk.time = 0 ∧
      t.flag F.PIN_CLK_ref_ok = true ∧ t.flag F.PIN_CLK_timing_lock = true ∧
      t.fld F.SEC_RESET_CAUSE_cause = s.pwr.cause % 8 ∧
      (s.flag F.PIN_SUPPLY_warn = false → ∃ r ∈ t.tly.ring, r.cls = 1 ∧ r.code = 9) ∧
      (s.flag F.MEM_CFG_auto = true → t.flag F.MEM_STAT_training = true)) ∧
    (s.pwr.held = false ∨ s.tclkGone = true → exec .resetRelease s = .next s) ∧
    (∃ t, exec .brownout s = .next t ∧ regsOnly s t [A.PIN_SUPPLY] ∧ t.flag F.PIN_SUPPLY_warn = true) ∧
    (∀ above : Bool, ∃ t, exec (.alwaysOnSourceSwitch above) s = .next t ∧ regsOnly s t [A.MEM_RET_STAT] ∧
      t.flag F.MEM_RET_STAT_on_vbat = !above) ∧
    exec .safetyRegionResetRelease s = .next { s with pwr := { s.pwr with safetyUp := true } } ∧
    (∃ t, exec .memStart s = .next t ∧
      if s.cellMode = 1 ∨ s.cellMode = 2 then
        regsOnly s t [A.MEM_STAT] ∧ t.flag F.MEM_STAT_training = true ∧ t.flag F.MEM_STAT_ready = false ∧
          t.flag F.MEM_STAT_train_err = false ∧ t.fld F.MEM_STAT_step = 0
      else onlyRecorded s t) ∧
    (s.flag F.MEM_STAT_training = true →
      (∀ step : BitVec 3, 1 ≤ step.toNat → step.toNat ≤ 4 →
        ∃ t, exec (.trainingDone (some step)) s = .next t ∧ regsOnly s t [A.MEM_STAT, A.MEM_SIZE] ∧
        t.flag F.MEM_STAT_train_err = true ∧ t.fld F.MEM_STAT_step = step.toNat ∧ t.flag F.MEM_STAT_training = false) ∧
      ∃ t, exec (.trainingDone none) s = .next t ∧ regsOnly s t [A.MEM_STAT, A.MEM_SIZE] ∧
        t.flag F.MEM_STAT_ready = true ∧ t.flag F.MEM_STAT_training = false ∧
        t.fld F.MEM_STAT_trainings = min (s.fld F.MEM_STAT_trainings + 1) 65535 ∧
        t.fld F.MEM_SIZE_mib = 4 * (s.fld F.MEM_CFG_density + 1) * (s.fld F.MEM_CFG_ranks + 1) * 224) ∧
    exec .retrain s = .next s ∧
    ∀ (mem : ScrubMem) (addr : BitVec 33),
      exec (.scrub mem addr none) s = .next s ∧
      (s.scrubs mem addr.toNat = false → ∀ bad, exec (.scrub mem addr (some bad)) s = .next s) ∧
      (s.scrubs mem addr.toNat = true → (∀ f : Fld, mem = .sram ∧ f = F.MEM_SECC_corrected ∨ mem = .dram ∧ f = F.MEM_DECC_corrected ∨
          mem = .retention ∧ f = F.MEM_RET_STAT_corrected →
        ∃ t, exec (.scrub mem addr (some false)) s = .next t ∧ regsOnly s t [f.addr] ∧
          t.fld f = satCount f.width (s.fld f + 1)) ∧
      (mem = .sram → ∃ t, exec (.scrub mem addr (some true)) s = .next t ∧ addr.toNat / 4 * 4 ∈ t.sramBad ∧
        t.sram = s.sram ∧ t.fld F.MEM_SECC_uncorr = min (s.fld F.MEM_SECC_uncorr + 1) 65535) ∧
      (mem = .dram → ∃ t, exec (.scrub mem addr (some true)) s = .next t ∧ addr.toNat / 32 ∈ t.dramBad ∧
        t.dram = s.dram ∧ t.fld F.MEM_DECC_uncorr = min (s.fld F.MEM_DECC_uncorr + 1) 65535) ∧
      (mem = .retention → ∃ t, exec (.scrub mem addr (some true)) s = .next t ∧ logged s t) ∧
      ∀ c : Fin 12, mem = .localData c →
        (∃ t, exec (.scrub mem addr (some false)) s = .next t ∧ c.val * 2 ^ 16 + addr.toNat / 4 * 4 ∈ t.localSoft ∧
          { t with localSoft := s.localSoft } = s) ∧
        ∃ t, exec (.scrub mem addr (some true)) s = .next t ∧ logged s t ∧
          c.val * 2 ^ 16 + addr.toNat / 4 * 4 ∈ t.localBad)

/-- BOOT_FETCH, BOOT_VERIFY, BOOT_COMPLETE, BOOT_RETRY, LOOP_AREA_WRITE, LOOP_AREA_READBACK and FIRMWARE_SWITCHED
complete. R446, R447, R450 to R455: the boot fetches the bundle, verifies its images in order and fails with the
reason of the first that is bad; when all are good the images stand in program memory, the cores run at their idle
addresses, the ledgers are recovered, from the retained records where they all stand, and the cell is in CONFIGURE, or
in DEGRADED where a fault of the safety region, a lost timing clock or a fault that has escalated stands (R22, R24).
In service an accepted image is written once the executions it holds have ended, and a core whose readback differs is
quarantined. -/
def Obligations.BootAndImageLoading : Prop :=
  ∀ (s : State),
    let boot (t : State) : Nat := t.fld F.SEC_BOOT_state
    let base := s.pair A.SEC_BOOT_ADDR
    let failed (t : State) (why index : Nat) : Prop :=
      boot t = 5 ∧ t.fld F.SEC_BOOT_reason = why ∧ t.fld F.SEC_BOOT_index = index % 256 ∧ t.sec.bundle = [] ∧
        t.sec.good = [] ∧ t.prog = s.prog ∧ t.cellMode = s.cellMode ∧ loggedAs s t 12 2
    (∀ ok : Bool, s.cellMode ≠ 1 ∨ s.pwr.held = true ∨ 1 < boot s → exec (.bootFetch ok) s = .next s) ∧
    (s.cellMode = 1 → s.pwr.held = false → boot s ≤ 1 →
      (∀ ok : Bool, s.hostUp = false → ∃ t, exec (.bootFetch ok) s = .next t ∧ boot t = 0 ∧ t.sec.waitTold = true ∧
        (s.sec.waitTold = false → loggedAs s t 12 3)) ∧
      (s.hostUp = true → ∃ t, exec (.bootFetch false) s = .next t ∧ failed t 7 0) ∧
      (s.hostUp = true → ∀ e, bundleEntries s base = .error e →
        ∃ t, exec (.bootFetch true) s = .next t ∧ failed t e.1.code e.2) ∧
      (s.hostUp = true → ∀ es, bundleEntries s base = .ok es →
          (∀ e ∈ es, e.2 ≤ 4194304 ∧ s.readBuffer (base + e.1) e.2 ≠ none) →
          ∃ t, exec (.bootFetch true) s = .next t ∧ boot t = 2 ∧ t.sec.good = [] ∧ t.sec.bundle.length = es.length ∧
            ∀ (i : Nat) (e : Nat × Nat) (bs : List Byte), es[i]? = some e → s.readBuffer (base + e.1) e.2 = some bs →
              t.sec.bundle[i]? = some (i, e.2, bs))) ∧
    (boot s ≠ 2 ∨ s.sec.bundle = [] → exec .bootVerify s = .next s) ∧
    (∀ (i len : Nat) (bs : List Byte) (rest : List (Nat × Nat × List Byte)), boot s = 2 →
      s.sec.bundle = (i, len, bs) :: rest →
      let why := s.imageCheck bs len none
      let im := parseImage bs
      (why ≠ .none → ∃ t, exec .bootVerify s = .next t ∧ failed t why.code i) ∧
      (why = .none → (∀ g ∈ s.sec.good, g.progArea ≠ im.progArea) →
        (rest ≠ [] ∨ im.kind = 2 ∨ ∃ g ∈ s.sec.good, g.kind = 2) →
        ∃ t, exec .bootVerify s = .next t ∧ t.sec.bundle = rest ∧ t.sec.good = s.sec.good ++ [im] ∧
          boot t = (if rest = [] then 3 else 2) ∧ loggedAs s t 12 1)) ∧
    (boot s ≠ 3 ∨ s.cellMode ≠ 1 → exec .bootComplete s = .next s) ∧
    (boot s = 3 → s.cellMode = 1 → (∀ im ∈ s.sec.good, im.area ≤ 8) →
      ∃ t, exec .bootComplete s = .next t ∧ boot t = 4 ∧ t.flag F.LDG_STAT_ready = true ∧
        t.cellMode = (if s.flag F.SYS_FAULT_safety || s.flag F.SYS_FAULT_tclk_lost || s.faults.any OpenFault.escalated then 7
          else 2) ∧
        t.fld F.LDG_STAT_recovery = s.recoverySource ∧
        (s.flag F.MEM_RET_STAT_valid = true → s.ldg.badRecords = [] → t.fld F.LDG_STAT_recovery = 1) ∧
        (∀ c : Fin 12, (t.coreOf c).status = .running ∧ (t.coreOf c).stall = 0 ∧
          (t.coreOf c).pc = s.fld (F.HC_IDLE_addr c)) ∧
        ((s.sec.good.map Image.progArea).Nodup → ∀ im ∈ s.sec.good, im.kind ≠ 2 →
          Tab.get (fun _ => []) t.prog im.area = im.payload)) ∧
    (boot s = 5 → ∃ t, exec .bootRetry s = .next t ∧ regsOnly s t [A.SEC_BOOT] ∧ boot t = 1 ∧
      t.fld F.SEC_BOOT_index = 0 ∧ t.fld F.SEC_BOOT_reason = 0) ∧
    (boot s ≠ 5 → exec .bootRetry s = .next s) ∧
    (s.sec.job = none → ∀ bad : BitVec 12, exec .loopAreaWrite s = .next s ∧ exec (.loopAreaReadback bad) s = .next s ∧
      exec .firmwareSwitched s = .next s) ∧
    ∀ j : LoadJob, s.sec.job = some j → j.image.area ≤ 8 →
      (j.written = false → s.heldRun = true → exec .loopAreaWrite s = .next s) ∧
      (j.written = false → s.heldRun = false → ∃ t, exec .loopAreaWrite s = .next t ∧ t.regs = s.regs ∧
        t.sec.job = some { j with written := true } ∧
        (j.image.kind ≠ 2 → Tab.get (fun _ => []) t.prog j.image.area = j.image.payload) ∧
        ∀ a, a ≠ j.image.progArea → Tab.get (fun _ => []) t.prog a = Tab.get (fun _ => []) s.prog a) ∧
      (∀ bad : BitVec 12, j.written = true → j.loaded = false →
        ∃ t, exec (.loopAreaReadback bad) s = .next t ∧ t.prog = s.prog ∧
          (∀ c, c < 12 → bad.getLsbD c = true → t.quarantined c = true) ∧
          (j.image.kind = 2 → t.sec.job = some { j with loaded := true }) ∧
          (j.image.kind ≠ 2 → t.sec.job = none ∧
            t.reg (A.SEC_LOOPREV j.image.area) = BitVec.ofNat 32 j.image.revision)) ∧
      (j.image.kind = 2 → j.loaded = true → ∃ t, exec .firmwareSwitched s = .next t ∧ t.sec.job = none ∧
        t.prog = s.prog ∧ t.reg A.SEC_FWREV = BitVec.ofNat 32 j.image.revision ∧ logged s t) ∧
      (j.image.kind ≠ 2 ∨ j.loaded = false → exec .firmwareSwitched s = .next s)

/-! ## Security -/

/-- ROLLBACK_ADVANCE, KEY_PROGRAM, KEY_PROGRAMMED, KEY_REVOKE, PROVISION, PROVISIONED, DEBUG_UNLOCK and DEBUG_RELOCK
complete. R456, R457, R458, R460: a rollback counter takes a higher value up to the revision in force, in CONFIGURE; a
key slot of the customer is burned once and can be revoked; an identity is provisioned once; a right response opens
the debug lock for the scope it names, and a wrong one is counted. Every other such write is discarded with a record.
R461: while locked the JTAG port offers no EXTEST, with its scope it does in CONFIGURE, and it never drives the STO,
brake and ACT_OUT balls. -/
def Obligations.KeysIdentityAndDebug : Prop :=
  ∀ (s : State),
    let discarded (i : Instr) : Prop := ∃ t, exec i s = .next t ∧ onlyRecorded s t
    let slot := s.fld F.SEC_KPROG_slot
    let own := 2 ≤ slot ∧ slot ≤ 11
    (∀ (cls : BitVec 2) (value : BitVec 8),
      let c := cls.toNat
      let v := value.toNat
      let counter (t : State) (k : Nat) : Nat := fieldOf (t.reg A.SEC_ROLLBACK) (8 * k) 8
      let allowed : Prop := s.cellMode = 2 ∧ counter s c < v ∧
        ((c = 0 ∧ v ≤ (s.reg A.SEC_FWREV).toNat) ∨
          (c = 1 ∧ (∃ a ∈ s.sec.loaded, a ≤ 8) ∧ ∀ a ∈ s.sec.loaded, a ≤ 8 → v ≤ (s.reg (A.SEC_LOOPREV a)).toNat) ∨
          (c = 2 ∧ s.imageOk = true ∧ v ≤ (s.reg A.SAF_IMG_REV).toNat))
      (allowed → ∃ t, exec (.rollbackAdvance cls value) s = .next t ∧ counter t c = v ∧
        (∀ k, k < 3 → k ≠ c → counter t k = counter s k) ∧ loggedAs s t 12 4) ∧
      (¬allowed → discarded (.rollbackAdvance cls value))) ∧
    (let may : Prop := s.cellMode = 2 ∧ own ∧ s.bitFld F.SEC_KEYSTAT_present slot = false ∧ s.flag F.SEC_KPROG_busy = false
     let key := if s.hostUp then s.readBuffer (s.pair A.SEC_KPROG_ADDR) 1952 else none
     (¬may → discarded .keyProgram) ∧
     (may → (∀ bs, key = some bs → ∃ t, exec .keyProgram s = .next t ∧ regsOnly { s with sec := t.sec } t [A.SEC_KPROG] ∧
         t.sec.burn = some (slot, bs) ∧ t.flag F.SEC_KPROG_busy = true) ∧
       (key = none → ∃ t, exec .keyProgram s = .next t ∧ regsOnly s t [A.SEC_KPROG] ∧ t.flag F.SEC_KPROG_err = true))) ∧
    (∀ same : Bool, s.sec.burn = none → exec (.keyProgrammed same) s = .next s) ∧
    (∀ (k : Fin 12) (bs : List Byte), s.sec.burn = some (k.val, bs) → ∀ same : Bool,
      ∃ t, exec (.keyProgrammed same) s = .next t ∧ t.sec.burn = none ∧ t.flag F.SEC_KPROG_busy = false ∧
        t.bitFld F.SEC_KEYSTAT_present k = true ∧ Tab.get (fun _ => []) t.sec.keys k = bs ∧ logged s t ∧
        (same = false → t.bitFld F.SEC_KEYSTAT_revoked k = true ∧ t.flag F.SEC_KPROG_err = true) ∧
        (same = true → t.fld F.SEC_KEYSTAT_revoked = s.fld F.SEC_KEYSTAT_revoked)) ∧
    (s.cellMode ≠ 1 →
      let live := s.bitFld F.SEC_KEYSTAT_present slot && !s.bitFld F.SEC_KEYSTAT_revoked slot
      (¬own → discarded .keyRevoke) ∧
      (own → live = true → ∃ t, exec .keyRevoke s = .next t ∧ t.bitFld F.SEC_KEYSTAT_revoked slot = true ∧
        logged s t ∧ t.fld F.SEC_KEYSTAT_present = s.fld F.SEC_KEYSTAT_present ∧
        ∀ k, k < 12 → k ≠ slot → t.bitFld F.SEC_KEYSTAT_revoked k = s.bitFld F.SEC_KEYSTAT_revoked k) ∧
      (own → live = false → exec .keyRevoke s = .next s)) ∧
    (let may : Prop := s.cellMode = 2 ∧ s.flag F.SEC_PROV_provisioned = false ∧ s.flag F.SEC_PROV_busy = false
     (may → ∃ t, exec .provision s = .next t ∧ regsOnly s t [A.SEC_PROV] ∧ t.flag F.SEC_PROV_busy = true) ∧
     (¬may → discarded .provision)) ∧
    (∀ healthy : Bool, s.flag F.SEC_PROV_busy = false → exec (.provisioned healthy) s = .next s) ∧
    (s.flag F.SEC_PROV_busy = true →
      (∃ t, exec (.provisioned false) s = .next t ∧ regsOnly s t [A.SEC_PROV] ∧ t.flag F.SEC_PROV_err = true ∧
        t.flag F.SEC_PROV_busy = false ∧ t.flag F.SEC_PROV_provisioned = s.flag F.SEC_PROV_provisioned) ∧
      ∃ t, exec (.provisioned true) s = .next t ∧ t.flag F.SEC_PROV_provisioned = true ∧ t.flag F.SEC_PROV_busy = false ∧
        t.fld F.SEC_DBG_state = 0 ∧ t.sec.seed.length = 32 ∧ logged s t ∧
        ∀ k, k < 488 → t.reg (A.SEC_IDPUB k) = BitVec.ofNat 32 (bytesAt (Config.mlDsaPublic t.sec.seed) (4 * k) 4)) ∧
    (let may : Prop := s.cellMode ∈ [2, 3, 7] ∧ s.fld F.SEC_DBG_fails < 8 ∧ s.fld F.SEC_DBG_state ≠ 1
     let bs := (if s.hostUp then s.readBuffer (s.pair A.SEC_DBG_RESP) 3392 else none).getD []
     (¬may → discarded .debugUnlock) ∧
     (may → ∃ t, exec .debugUnlock s = .next t ∧ t.free = s.free + 4 ∧ logged s t ∧
       if s.responseOk bs then t.fld F.SEC_DBG_state = 2 ∧ t.fld F.SEC_DBG_scope = bytesAt bs 48 1 % 4 ∧
         t.fld F.SEC_DBG_fails = s.fld F.SEC_DBG_fails
       else t.fld F.SEC_DBG_state = s.fld F.SEC_DBG_state ∧ t.fld F.SEC_DBG_fails = s.fld F.SEC_DBG_fails + 1)) ∧
    (s.cellMode ≠ 1 →
      (s.fld F.SEC_DBG_state = 2 → ∃ t, exec .debugRelock s = .next t ∧ t.fld F.SEC_DBG_state = 0 ∧
        t.fld F.SEC_DBG_scope = 0 ∧ logged s t) ∧
      (s.fld F.SEC_DBG_state ≠ 2 → exec .debugRelock s = .next s)) ∧
    (s.fld F.SEC_DBG_state = 0 ∨ s.fld F.SEC_DBG_state = 2 ∧ (s.fld F.SEC_DBG_scope).testBit 1 = false →
      ∀ i : JtagInstr, s.jtagOffers i = decide (i ≠ .extest)) ∧
    (s.fld F.SEC_DBG_state = 2 → (s.fld F.SEC_DBG_scope).testBit 1 = true → s.cellMode = 2 → s.jtagOffers .extest = true) ∧
    ∀ (i : JtagInstr) (b : JtagBall), b ≠ .other → s.jtagDrives i b = false

/-! ## Encoding, reset and an invariant -/

/-- R289 to R292: every well-formed instruction of a loop core is read back from its word. -/
def Obligations.CoreWordsDecodeAsEncoded : Prop :=
  ∀ (i : Instr) (w : Word), i.wf = true → encodeCore i = some w →
    ∃ c : Fin 12, decodeCore c w = some i ∧ ∀ d : Fin 12, (decodeCore d w).isSome = true

/-- R67, R75, R325 (its reset values), R446: the block starts in BOOT with every group OUT for RESET, nothing waiting,
every STO asserted, no core running, and canonical memories. -/
def Obligations.ResetState : Prop :=
  let s := State.reset
  s.cellMode = 1 ∧ s.pending = [] ∧ allOut s ∧ (∀ g, g < 8 → s.fld (F.GRP_STATUS_reason g) = 0 ∧ stoOn s g) ∧
    (∀ c, (s.coreOf c).status = .off) ∧ s.ldg.outst = [] ∧ s.tly.ring = [] ∧ memoryOk s = true ∧
    ∀ a, s.reg a = resetWord a

/-- The canonical form of the memories and of the register table (the model's representation, log 3) is kept by every
instruction of a loop core, whatever core fault, stall or dispatch it leads to. -/
def Obligations.CoreInstructionsKeepMemoryForm : Prop :=
  ∀ (i : Instr) (s : State), (encodeCore i).isSome = true → memoryOk s = true →
    ∃ t, exec i s = .next t ∧ memoryOk t = true
end

