-- ==== Sys2Proof/Laws/State.lean ====
section
/-!
SUPPORT. One lemma per field of the state and per update: what an update leaves as it was. No later proof unfolds a
record update for this.
-/

namespace Sys2Proof.Machine


/-! ## setReg -/

@[simp] theorem State.setReg_pending (s : State) (a : Nat) (w : Word) : (s.setReg a w).pending = s.pending := (rfl)
@[simp] theorem State.setReg_free (s : State) (a : Nat) (w : Word) : (s.setReg a w).free = s.free := (rfl)
@[simp] theorem State.setReg_hostRead (s : State) (a : Nat) (w : Word) : (s.setReg a w).hostRead = s.hostRead := (rfl)
@[simp] theorem State.setReg_irqs (s : State) (a : Nat) (w : Word) : (s.setReg a w).irqs = s.irqs := (rfl)
@[simp] theorem State.setReg_pcie (s : State) (a : Nat) (w : Word) : (s.setReg a w).pcie = s.pcie := (rfl)
@[simp] theorem State.setReg_timed (s : State) (a : Nat) (w : Word) : (s.setReg a w).timed = s.timed := (rfl)
@[simp] theorem State.setReg_raised (s : State) (a : Nat) (w : Word) : (s.setReg a w).raised = s.raised := (rfl)
@[simp] theorem State.setReg_ic (s : State) (a : Nat) (w : Word) : (s.setReg a w).ic = s.ic := (rfl)
@[simp] theorem State.setReg_holdRead (s : State) (a : Nat) (w : Word) : (s.setReg a w).holdRead = s.holdRead := (rfl)
@[simp] theorem State.setReg_holdWrite (s : State) (a : Nat) (w : Word) : (s.setReg a w).holdWrite = s.holdWrite := (rfl)
@[simp] theorem State.setReg_clk (s : State) (a : Nat) (w : Word) : (s.setReg a w).clk = s.clk := (rfl)
@[simp] theorem State.setReg_tly (s : State) (a : Nat) (w : Word) : (s.setReg a w).tly = s.tly := (rfl)
@[simp] theorem State.setReg_ldg (s : State) (a : Nat) (w : Word) : (s.setReg a w).ldg = s.ldg := (rfl)
@[simp] theorem State.setReg_hostMem (s : State) (a : Nat) (w : Word) : (s.setReg a w).hostMem = s.hostMem := (rfl)
@[simp] theorem State.setReg_hostBad (s : State) (a : Nat) (w : Word) : (s.setReg a w).hostBad = s.hostBad := (rfl)
@[simp] theorem State.setReg_faults (s : State) (a : Nat) (w : Word) : (s.setReg a w).faults = s.faults := (rfl)
@[simp] theorem State.setReg_stall (s : State) (a : Nat) (w : Word) : (s.setReg a w).stall = s.stall := (rfl)
@[simp] theorem State.setReg_hwk (s : State) (a : Nat) (w : Word) : (s.setReg a w).hwk = s.hwk := (rfl)
@[simp] theorem State.setReg_core (s : State) (a : Nat) (w : Word) : (s.setReg a w).core = s.core := (rfl)
@[simp] theorem State.setReg_prog (s : State) (a : Nat) (w : Word) : (s.setReg a w).prog = s.prog := (rfl)
@[simp] theorem State.setReg_localMem (s : State) (a : Nat) (w : Word) : (s.setReg a w).localMem = s.localMem := (rfl)
@[simp] theorem State.setReg_localBad (s : State) (a : Nat) (w : Word) : (s.setReg a w).localBad = s.localBad := (rfl)
@[simp] theorem State.setReg_localSoft (s : State) (a : Nat) (w : Word) : (s.setReg a w).localSoft = s.localSoft := (rfl)
@[simp] theorem State.setReg_sram (s : State) (a : Nat) (w : Word) : (s.setReg a w).sram = s.sram := (rfl)
@[simp] theorem State.setReg_sramBad (s : State) (a : Nat) (w : Word) : (s.setReg a w).sramBad = s.sramBad := (rfl)
@[simp] theorem State.setReg_slice (s : State) (a : Nat) (w : Word) : (s.setReg a w).slice = s.slice := (rfl)
@[simp] theorem State.setReg_line (s : State) (a : Nat) (w : Word) : (s.setReg a w).line = s.line := (rfl)
@[simp] theorem State.setReg_serve (s : State) (a : Nat) (w : Word) : (s.setReg a w).serve = s.serve := (rfl)
@[simp] theorem State.setReg_bank (s : State) (a : Nat) (w : Word) : (s.setReg a w).bank = s.bank := (rfl)
@[simp] theorem State.setReg_conv (s : State) (a : Nat) (w : Word) : (s.setReg a w).conv = s.conv := (rfl)
@[simp] theorem State.setReg_mode (s : State) (a : Nat) (w : Word) : (s.setReg a w).mode = s.mode := (rfl)
@[simp] theorem State.setReg_coord (s : State) (a : Nat) (w : Word) : (s.setReg a w).coord = s.coord := (rfl)
@[simp] theorem State.setReg_phase (s : State) (a : Nat) (w : Word) : (s.setReg a w).phase = s.phase := (rfl)
@[simp] theorem State.setReg_dl (s : State) (a : Nat) (w : Word) : (s.setReg a w).dl = s.dl := (rfl)
@[simp] theorem State.setReg_grp (s : State) (a : Nat) (w : Word) : (s.setReg a w).grp = s.grp := (rfl)
@[simp] theorem State.setReg_cmp (s : State) (a : Nat) (w : Word) : (s.setReg a w).cmp = s.cmp := (rfl)
@[simp] theorem State.setReg_step (s : State) (a : Nat) (w : Word) : (s.setReg a w).step = s.step := (rfl)
@[simp] theorem State.setReg_dram (s : State) (a : Nat) (w : Word) : (s.setReg a w).dram = s.dram := (rfl)
@[simp] theorem State.setReg_dramBad (s : State) (a : Nat) (w : Word) : (s.setReg a w).dramBad = s.dramBad := (rfl)
@[simp] theorem State.setReg_fbk (s : State) (a : Nat) (w : Word) : (s.setReg a w).fbk = s.fbk := (rfl)
@[simp] theorem State.setReg_emu (s : State) (a : Nat) (w : Word) : (s.setReg a w).emu = s.emu := (rfl)
@[simp] theorem State.setReg_balls (s : State) (a : Nat) (w : Word) : (s.setReg a w).balls = s.balls := (rfl)
@[simp] theorem State.setReg_tclkGone (s : State) (a : Nat) (w : Word) : (s.setReg a w).tclkGone = s.tclkGone := (rfl)
@[simp] theorem State.setReg_motionHalted (s : State) (a : Nat) (w : Word) : (s.setReg a w).motionHalted = s.motionHalted := (rfl)
@[simp] theorem State.setReg_cmBad (s : State) (a : Nat) (w : Word) : (s.setReg a w).cmBad = s.cmBad := (rfl)
@[simp] theorem State.setReg_cmOut (s : State) (a : Nat) (w : Word) : (s.setReg a w).cmOut = s.cmOut := (rfl)
@[simp] theorem State.setReg_cmLast (s : State) (a : Nat) (w : Word) : (s.setReg a w).cmLast = s.cmLast := (rfl)
@[simp] theorem State.setReg_sramTold (s : State) (a : Nat) (w : Word) : (s.setReg a w).sramTold = s.sramTold := (rfl)
@[simp] theorem State.setReg_saf (s : State) (a : Nat) (w : Word) : (s.setReg a w).saf = s.saf := (rfl)
@[simp] theorem State.setReg_sec (s : State) (a : Nat) (w : Word) : (s.setReg a w).sec = s.sec := (rfl)
@[simp] theorem State.setReg_pwr (s : State) (a : Nat) (w : Word) : (s.setReg a w).pwr = s.pwr := (rfl)
@[simp] theorem State.setReg_twin (s : State) (a : Nat) (w : Word) : (s.setReg a w).twin = s.twin := (rfl)
@[simp] theorem State.setReg_fab (s : State) (a : Nat) (w : Word) : (s.setReg a w).fab = s.fab := (rfl)
@[simp] theorem State.setReg_lnk (s : State) (a : Nat) (w : Word) : (s.setReg a w).lnk = s.lnk := (rfl)

/-! ## setFld -/

@[simp] theorem State.setFld_pending (s : State) (f : Fld) (v : Nat) : (s.setFld f v).pending = s.pending := (rfl)
@[simp] theorem State.setFld_free (s : State) (f : Fld) (v : Nat) : (s.setFld f v).free = s.free := (rfl)
@[simp] theorem State.setFld_hostRead (s : State) (f : Fld) (v : Nat) : (s.setFld f v).hostRead = s.hostRead := (rfl)
@[simp] theorem State.setFld_irqs (s : State) (f : Fld) (v : Nat) : (s.setFld f v).irqs = s.irqs := (rfl)
@[simp] theorem State.setFld_pcie (s : State) (f : Fld) (v : Nat) : (s.setFld f v).pcie = s.pcie := (rfl)
@[simp] theorem State.setFld_timed (s : State) (f : Fld) (v : Nat) : (s.setFld f v).timed = s.timed := (rfl)
@[simp] theorem State.setFld_raised (s : State) (f : Fld) (v : Nat) : (s.setFld f v).raised = s.raised := (rfl)
@[simp] theorem State.setFld_ic (s : State) (f : Fld) (v : Nat) : (s.setFld f v).ic = s.ic := (rfl)
@[simp] theorem State.setFld_holdRead (s : State) (f : Fld) (v : Nat) : (s.setFld f v).holdRead = s.holdRead := (rfl)
@[simp] theorem State.setFld_holdWrite (s : State) (f : Fld) (v : Nat) : (s.setFld f v).holdWrite = s.holdWrite := (rfl)
@[simp] theorem State.setFld_clk (s : State) (f : Fld) (v : Nat) : (s.setFld f v).clk = s.clk := (rfl)
@[simp] theorem State.setFld_tly (s : State) (f : Fld) (v : Nat) : (s.setFld f v).tly = s.tly := (rfl)
@[simp] theorem State.setFld_ldg (s : State) (f : Fld) (v : Nat) : (s.setFld f v).ldg = s.ldg := (rfl)
@[simp] theorem State.setFld_hostMem (s : State) (f : Fld) (v : Nat) : (s.setFld f v).hostMem = s.hostMem := (rfl)
@[simp] theorem State.setFld_hostBad (s : State) (f : Fld) (v : Nat) : (s.setFld f v).hostBad = s.hostBad := (rfl)
@[simp] theorem State.setFld_faults (s : State) (f : Fld) (v : Nat) : (s.setFld f v).faults = s.faults := (rfl)
@[simp] theorem State.setFld_stall (s : State) (f : Fld) (v : Nat) : (s.setFld f v).stall = s.stall := (rfl)
@[simp] theorem State.setFld_hwk (s : State) (f : Fld) (v : Nat) : (s.setFld f v).hwk = s.hwk := (rfl)
@[simp] theorem State.setFld_core (s : State) (f : Fld) (v : Nat) : (s.setFld f v).core = s.core := (rfl)
@[simp] theorem State.setFld_prog (s : State) (f : Fld) (v : Nat) : (s.setFld f v).prog = s.prog := (rfl)
@[simp] theorem State.setFld_localMem (s : State) (f : Fld) (v : Nat) : (s.setFld f v).localMem = s.localMem := (rfl)
@[simp] theorem State.setFld_localBad (s : State) (f : Fld) (v : Nat) : (s.setFld f v).localBad = s.localBad := (rfl)
@[simp] theorem State.setFld_localSoft (s : State) (f : Fld) (v : Nat) : (s.setFld f v).localSoft = s.localSoft := (rfl)
@[simp] theorem State.setFld_sram (s : State) (f : Fld) (v : Nat) : (s.setFld f v).sram = s.sram := (rfl)
@[simp] theorem State.setFld_sramBad (s : State) (f : Fld) (v : Nat) : (s.setFld f v).sramBad = s.sramBad := (rfl)
@[simp] theorem State.setFld_slice (s : State) (f : Fld) (v : Nat) : (s.setFld f v).slice = s.slice := (rfl)
@[simp] theorem State.setFld_line (s : State) (f : Fld) (v : Nat) : (s.setFld f v).line = s.line := (rfl)
@[simp] theorem State.setFld_serve (s : State) (f : Fld) (v : Nat) : (s.setFld f v).serve = s.serve := (rfl)
@[simp] theorem State.setFld_bank (s : State) (f : Fld) (v : Nat) : (s.setFld f v).bank = s.bank := (rfl)
@[simp] theorem State.setFld_conv (s : State) (f : Fld) (v : Nat) : (s.setFld f v).conv = s.conv := (rfl)
@[simp] theorem State.setFld_mode (s : State) (f : Fld) (v : Nat) : (s.setFld f v).mode = s.mode := (rfl)
@[simp] theorem State.setFld_coord (s : State) (f : Fld) (v : Nat) : (s.setFld f v).coord = s.coord := (rfl)
@[simp] theorem State.setFld_phase (s : State) (f : Fld) (v : Nat) : (s.setFld f v).phase = s.phase := (rfl)
@[simp] theorem State.setFld_dl (s : State) (f : Fld) (v : Nat) : (s.setFld f v).dl = s.dl := (rfl)
@[simp] theorem State.setFld_grp (s : State) (f : Fld) (v : Nat) : (s.setFld f v).grp = s.grp := (rfl)
@[simp] theorem State.setFld_cmp (s : State) (f : Fld) (v : Nat) : (s.setFld f v).cmp = s.cmp := (rfl)
@[simp] theorem State.setFld_step (s : State) (f : Fld) (v : Nat) : (s.setFld f v).step = s.step := (rfl)
@[simp] theorem State.setFld_dram (s : State) (f : Fld) (v : Nat) : (s.setFld f v).dram = s.dram := (rfl)
@[simp] theorem State.setFld_dramBad (s : State) (f : Fld) (v : Nat) : (s.setFld f v).dramBad = s.dramBad := (rfl)
@[simp] theorem State.setFld_fbk (s : State) (f : Fld) (v : Nat) : (s.setFld f v).fbk = s.fbk := (rfl)
@[simp] theorem State.setFld_emu (s : State) (f : Fld) (v : Nat) : (s.setFld f v).emu = s.emu := (rfl)
@[simp] theorem State.setFld_balls (s : State) (f : Fld) (v : Nat) : (s.setFld f v).balls = s.balls := (rfl)
@[simp] theorem State.setFld_tclkGone (s : State) (f : Fld) (v : Nat) : (s.setFld f v).tclkGone = s.tclkGone := (rfl)
@[simp] theorem State.setFld_motionHalted (s : State) (f : Fld) (v : Nat) : (s.setFld f v).motionHalted = s.motionHalted := (rfl)
@[simp] theorem State.setFld_cmBad (s : State) (f : Fld) (v : Nat) : (s.setFld f v).cmBad = s.cmBad := (rfl)
@[simp] theorem State.setFld_cmOut (s : State) (f : Fld) (v : Nat) : (s.setFld f v).cmOut = s.cmOut := (rfl)
@[simp] theorem State.setFld_cmLast (s : State) (f : Fld) (v : Nat) : (s.setFld f v).cmLast = s.cmLast := (rfl)
@[simp] theorem State.setFld_sramTold (s : State) (f : Fld) (v : Nat) : (s.setFld f v).sramTold = s.sramTold := (rfl)
@[simp] theorem State.setFld_saf (s : State) (f : Fld) (v : Nat) : (s.setFld f v).saf = s.saf := (rfl)
@[simp] theorem State.setFld_sec (s : State) (f : Fld) (v : Nat) : (s.setFld f v).sec = s.sec := (rfl)
@[simp] theorem State.setFld_pwr (s : State) (f : Fld) (v : Nat) : (s.setFld f v).pwr = s.pwr := (rfl)
@[simp] theorem State.setFld_twin (s : State) (f : Fld) (v : Nat) : (s.setFld f v).twin = s.twin := (rfl)
@[simp] theorem State.setFld_fab (s : State) (f : Fld) (v : Nat) : (s.setFld f v).fab = s.fab := (rfl)
@[simp] theorem State.setFld_lnk (s : State) (f : Fld) (v : Nat) : (s.setFld f v).lnk = s.lnk := (rfl)

/-! ## setFlag -/

@[simp] theorem State.setFlag_pending (s : State) (f : Fld) (b : Bool) : (s.setFlag f b).pending = s.pending := (rfl)
@[simp] theorem State.setFlag_free (s : State) (f : Fld) (b : Bool) : (s.setFlag f b).free = s.free := (rfl)
@[simp] theorem State.setFlag_hostRead (s : State) (f : Fld) (b : Bool) : (s.setFlag f b).hostRead = s.hostRead := (rfl)
@[simp] theorem State.setFlag_irqs (s : State) (f : Fld) (b : Bool) : (s.setFlag f b).irqs = s.irqs := (rfl)
@[simp] theorem State.setFlag_pcie (s : State) (f : Fld) (b : Bool) : (s.setFlag f b).pcie = s.pcie := (rfl)
@[simp] theorem State.setFlag_timed (s : State) (f : Fld) (b : Bool) : (s.setFlag f b).timed = s.timed := (rfl)
@[simp] theorem State.setFlag_raised (s : State) (f : Fld) (b : Bool) : (s.setFlag f b).raised = s.raised := (rfl)
@[simp] theorem State.setFlag_ic (s : State) (f : Fld) (b : Bool) : (s.setFlag f b).ic = s.ic := (rfl)
@[simp] theorem State.setFlag_holdRead (s : State) (f : Fld) (b : Bool) : (s.setFlag f b).holdRead = s.holdRead := (rfl)
@[simp] theorem State.setFlag_holdWrite (s : State) (f : Fld) (b : Bool) : (s.setFlag f b).holdWrite = s.holdWrite := (rfl)
@[simp] theorem State.setFlag_clk (s : State) (f : Fld) (b : Bool) : (s.setFlag f b).clk = s.clk := (rfl)
@[simp] theorem State.setFlag_tly (s : State) (f : Fld) (b : Bool) : (s.setFlag f b).tly = s.tly := (rfl)
@[simp] theorem State.setFlag_ldg (s : State) (f : Fld) (b : Bool) : (s.setFlag f b).ldg = s.ldg := (rfl)
@[simp] theorem State.setFlag_hostMem (s : State) (f : Fld) (b : Bool) : (s.setFlag f b).hostMem = s.hostMem := (rfl)
@[simp] theorem State.setFlag_hostBad (s : State) (f : Fld) (b : Bool) : (s.setFlag f b).hostBad = s.hostBad := (rfl)
@[simp] theorem State.setFlag_faults (s : State) (f : Fld) (b : Bool) : (s.setFlag f b).faults = s.faults := (rfl)
@[simp] theorem State.setFlag_stall (s : State) (f : Fld) (b : Bool) : (s.setFlag f b).stall = s.stall := (rfl)
@[simp] theorem State.setFlag_hwk (s : State) (f : Fld) (b : Bool) : (s.setFlag f b).hwk = s.hwk := (rfl)
@[simp] theorem State.setFlag_core (s : State) (f : Fld) (b : Bool) : (s.setFlag f b).core = s.core := (rfl)
@[simp] theorem State.setFlag_prog (s : State) (f : Fld) (b : Bool) : (s.setFlag f b).prog = s.prog := (rfl)
@[simp] theorem State.setFlag_localMem (s : State) (f : Fld) (b : Bool) : (s.setFlag f b).localMem = s.localMem := (rfl)
@[simp] theorem State.setFlag_localBad (s : State) (f : Fld) (b : Bool) : (s.setFlag f b).localBad = s.localBad := (rfl)
@[simp] theorem State.setFlag_localSoft (s : State) (f : Fld) (b : Bool) : (s.setFlag f b).localSoft = s.localSoft := (rfl)
@[simp] theorem State.setFlag_sram (s : State) (f : Fld) (b : Bool) : (s.setFlag f b).sram = s.sram := (rfl)
@[simp] theorem State.setFlag_sramBad (s : State) (f : Fld) (b : Bool) : (s.setFlag f b).sramBad = s.sramBad := (rfl)
@[simp] theorem State.setFlag_slice (s : State) (f : Fld) (b : Bool) : (s.setFlag f b).slice = s.slice := (rfl)
@[simp] theorem State.setFlag_line (s : State) (f : Fld) (b : Bool) : (s.setFlag f b).line = s.line := (rfl)
@[simp] theorem State.setFlag_serve (s : State) (f : Fld) (b : Bool) : (s.setFlag f b).serve = s.serve := (rfl)
@[simp] theorem State.setFlag_bank (s : State) (f : Fld) (b : Bool) : (s.setFlag f b).bank = s.bank := (rfl)
@[simp] theorem State.setFlag_conv (s : State) (f : Fld) (b : Bool) : (s.setFlag f b).conv = s.conv := (rfl)
@[simp] theorem State.setFlag_mode (s : State) (f : Fld) (b : Bool) : (s.setFlag f b).mode = s.mode := (rfl)
@[simp] theorem State.setFlag_coord (s : State) (f : Fld) (b : Bool) : (s.setFlag f b).coord = s.coord := (rfl)
@[simp] theorem State.setFlag_phase (s : State) (f : Fld) (b : Bool) : (s.setFlag f b).phase = s.phase := (rfl)
@[simp] theorem State.setFlag_dl (s : State) (f : Fld) (b : Bool) : (s.setFlag f b).dl = s.dl := (rfl)
@[simp] theorem State.setFlag_grp (s : State) (f : Fld) (b : Bool) : (s.setFlag f b).grp = s.grp := (rfl)
@[simp] theorem State.setFlag_cmp (s : State) (f : Fld) (b : Bool) : (s.setFlag f b).cmp = s.cmp := (rfl)
@[simp] theorem State.setFlag_step (s : State) (f : Fld) (b : Bool) : (s.setFlag f b).step = s.step := (rfl)
@[simp] theorem State.setFlag_dram (s : State) (f : Fld) (b : Bool) : (s.setFlag f b).dram = s.dram := (rfl)
@[simp] theorem State.setFlag_dramBad (s : State) (f : Fld) (b : Bool) : (s.setFlag f b).dramBad = s.dramBad := (rfl)
@[simp] theorem State.setFlag_fbk (s : State) (f : Fld) (b : Bool) : (s.setFlag f b).fbk = s.fbk := (rfl)
@[simp] theorem State.setFlag_emu (s : State) (f : Fld) (b : Bool) : (s.setFlag f b).emu = s.emu := (rfl)
@[simp] theorem State.setFlag_balls (s : State) (f : Fld) (b : Bool) : (s.setFlag f b).balls = s.balls := (rfl)
@[simp] theorem State.setFlag_tclkGone (s : State) (f : Fld) (b : Bool) : (s.setFlag f b).tclkGone = s.tclkGone := (rfl)
@[simp] theorem State.setFlag_motionHalted (s : State) (f : Fld) (b : Bool) : (s.setFlag f b).motionHalted = s.motionHalted := (rfl)
@[simp] theorem State.setFlag_cmBad (s : State) (f : Fld) (b : Bool) : (s.setFlag f b).cmBad = s.cmBad := (rfl)
@[simp] theorem State.setFlag_cmOut (s : State) (f : Fld) (b : Bool) : (s.setFlag f b).cmOut = s.cmOut := (rfl)
@[simp] theorem State.setFlag_cmLast (s : State) (f : Fld) (b : Bool) : (s.setFlag f b).cmLast = s.cmLast := (rfl)
@[simp] theorem State.setFlag_sramTold (s : State) (f : Fld) (b : Bool) : (s.setFlag f b).sramTold = s.sramTold := (rfl)
@[simp] theorem State.setFlag_saf (s : State) (f : Fld) (b : Bool) : (s.setFlag f b).saf = s.saf := (rfl)
@[simp] theorem State.setFlag_sec (s : State) (f : Fld) (b : Bool) : (s.setFlag f b).sec = s.sec := (rfl)
@[simp] theorem State.setFlag_pwr (s : State) (f : Fld) (b : Bool) : (s.setFlag f b).pwr = s.pwr := (rfl)
@[simp] theorem State.setFlag_twin (s : State) (f : Fld) (b : Bool) : (s.setFlag f b).twin = s.twin := (rfl)
@[simp] theorem State.setFlag_fab (s : State) (f : Fld) (b : Bool) : (s.setFlag f b).fab = s.fab := (rfl)
@[simp] theorem State.setFlag_lnk (s : State) (f : Fld) (b : Bool) : (s.setFlag f b).lnk = s.lnk := (rfl)

/-! ## countFld -/

@[simp] theorem State.countFld_pending (s : State) (f : Fld) (n : Nat) : (s.countFld f n).pending = s.pending := (rfl)
@[simp] theorem State.countFld_free (s : State) (f : Fld) (n : Nat) : (s.countFld f n).free = s.free := (rfl)
@[simp] theorem State.countFld_hostRead (s : State) (f : Fld) (n : Nat) : (s.countFld f n).hostRead = s.hostRead := (rfl)
@[simp] theorem State.countFld_irqs (s : State) (f : Fld) (n : Nat) : (s.countFld f n).irqs = s.irqs := (rfl)
@[simp] theorem State.countFld_pcie (s : State) (f : Fld) (n : Nat) : (s.countFld f n).pcie = s.pcie := (rfl)
@[simp] theorem State.countFld_timed (s : State) (f : Fld) (n : Nat) : (s.countFld f n).timed = s.timed := (rfl)
@[simp] theorem State.countFld_raised (s : State) (f : Fld) (n : Nat) : (s.countFld f n).raised = s.raised := (rfl)
@[simp] theorem State.countFld_ic (s : State) (f : Fld) (n : Nat) : (s.countFld f n).ic = s.ic := (rfl)
@[simp] theorem State.countFld_holdRead (s : State) (f : Fld) (n : Nat) : (s.countFld f n).holdRead = s.holdRead := (rfl)
@[simp] theorem State.countFld_holdWrite (s : State) (f : Fld) (n : Nat) : (s.countFld f n).holdWrite = s.holdWrite := (rfl)
@[simp] theorem State.countFld_clk (s : State) (f : Fld) (n : Nat) : (s.countFld f n).clk = s.clk := (rfl)
@[simp] theorem State.countFld_tly (s : State) (f : Fld) (n : Nat) : (s.countFld f n).tly = s.tly := (rfl)
@[simp] theorem State.countFld_ldg (s : State) (f : Fld) (n : Nat) : (s.countFld f n).ldg = s.ldg := (rfl)
@[simp] theorem State.countFld_hostMem (s : State) (f : Fld) (n : Nat) : (s.countFld f n).hostMem = s.hostMem := (rfl)
@[simp] theorem State.countFld_hostBad (s : State) (f : Fld) (n : Nat) : (s.countFld f n).hostBad = s.hostBad := (rfl)
@[simp] theorem State.countFld_faults (s : State) (f : Fld) (n : Nat) : (s.countFld f n).faults = s.faults := (rfl)
@[simp] theorem State.countFld_stall (s : State) (f : Fld) (n : Nat) : (s.countFld f n).stall = s.stall := (rfl)
@[simp] theorem State.countFld_hwk (s : State) (f : Fld) (n : Nat) : (s.countFld f n).hwk = s.hwk := (rfl)
@[simp] theorem State.countFld_core (s : State) (f : Fld) (n : Nat) : (s.countFld f n).core = s.core := (rfl)
@[simp] theorem State.countFld_prog (s : State) (f : Fld) (n : Nat) : (s.countFld f n).prog = s.prog := (rfl)
@[simp] theorem State.countFld_localMem (s : State) (f : Fld) (n : Nat) : (s.countFld f n).localMem = s.localMem := (rfl)
@[simp] theorem State.countFld_localBad (s : State) (f : Fld) (n : Nat) : (s.countFld f n).localBad = s.localBad := (rfl)
@[simp] theorem State.countFld_localSoft (s : State) (f : Fld) (n : Nat) : (s.countFld f n).localSoft = s.localSoft := (rfl)
@[simp] theorem State.countFld_sram (s : State) (f : Fld) (n : Nat) : (s.countFld f n).sram = s.sram := (rfl)
@[simp] theorem State.countFld_sramBad (s : State) (f : Fld) (n : Nat) : (s.countFld f n).sramBad = s.sramBad := (rfl)
@[simp] theorem State.countFld_slice (s : State) (f : Fld) (n : Nat) : (s.countFld f n).slice = s.slice := (rfl)
@[simp] theorem State.countFld_line (s : State) (f : Fld) (n : Nat) : (s.countFld f n).line = s.line := (rfl)
@[simp] theorem State.countFld_serve (s : State) (f : Fld) (n : Nat) : (s.countFld f n).serve = s.serve := (rfl)
@[simp] theorem State.countFld_bank (s : State) (f : Fld) (n : Nat) : (s.countFld f n).bank = s.bank := (rfl)
@[simp] theorem State.countFld_conv (s : State) (f : Fld) (n : Nat) : (s.countFld f n).conv = s.conv := (rfl)
@[simp] theorem State.countFld_mode (s : State) (f : Fld) (n : Nat) : (s.countFld f n).mode = s.mode := (rfl)
@[simp] theorem State.countFld_coord (s : State) (f : Fld) (n : Nat) : (s.countFld f n).coord = s.coord := (rfl)
@[simp] theorem State.countFld_phase (s : State) (f : Fld) (n : Nat) : (s.countFld f n).phase = s.phase := (rfl)
@[simp] theorem State.countFld_dl (s : State) (f : Fld) (n : Nat) : (s.countFld f n).dl = s.dl := (rfl)
@[simp] theorem State.countFld_grp (s : State) (f : Fld) (n : Nat) : (s.countFld f n).grp = s.grp := (rfl)
@[simp] theorem State.countFld_cmp (s : State) (f : Fld) (n : Nat) : (s.countFld f n).cmp = s.cmp := (rfl)
@[simp] theorem State.countFld_step (s : State) (f : Fld) (n : Nat) : (s.countFld f n).step = s.step := (rfl)
@[simp] theorem State.countFld_dram (s : State) (f : Fld) (n : Nat) : (s.countFld f n).dram = s.dram := (rfl)
@[simp] theorem State.countFld_dramBad (s : State) (f : Fld) (n : Nat) : (s.countFld f n).dramBad = s.dramBad := (rfl)
@[simp] theorem State.countFld_fbk (s : State) (f : Fld) (n : Nat) : (s.countFld f n).fbk = s.fbk := (rfl)
@[simp] theorem State.countFld_emu (s : State) (f : Fld) (n : Nat) : (s.countFld f n).emu = s.emu := (rfl)
@[simp] theorem State.countFld_balls (s : State) (f : Fld) (n : Nat) : (s.countFld f n).balls = s.balls := (rfl)
@[simp] theorem State.countFld_tclkGone (s : State) (f : Fld) (n : Nat) : (s.countFld f n).tclkGone = s.tclkGone := (rfl)
@[simp] theorem State.countFld_motionHalted (s : State) (f : Fld) (n : Nat) : (s.countFld f n).motionHalted = s.motionHalted := (rfl)
@[simp] theorem State.countFld_cmBad (s : State) (f : Fld) (n : Nat) : (s.countFld f n).cmBad = s.cmBad := (rfl)
@[simp] theorem State.countFld_cmOut (s : State) (f : Fld) (n : Nat) : (s.countFld f n).cmOut = s.cmOut := (rfl)
@[simp] theorem State.countFld_cmLast (s : State) (f : Fld) (n : Nat) : (s.countFld f n).cmLast = s.cmLast := (rfl)
@[simp] theorem State.countFld_sramTold (s : State) (f : Fld) (n : Nat) : (s.countFld f n).sramTold = s.sramTold := (rfl)
@[simp] theorem State.countFld_saf (s : State) (f : Fld) (n : Nat) : (s.countFld f n).saf = s.saf := (rfl)
@[simp] theorem State.countFld_sec (s : State) (f : Fld) (n : Nat) : (s.countFld f n).sec = s.sec := (rfl)
@[simp] theorem State.countFld_pwr (s : State) (f : Fld) (n : Nat) : (s.countFld f n).pwr = s.pwr := (rfl)
@[simp] theorem State.countFld_twin (s : State) (f : Fld) (n : Nat) : (s.countFld f n).twin = s.twin := (rfl)
@[simp] theorem State.countFld_fab (s : State) (f : Fld) (n : Nat) : (s.countFld f n).fab = s.fab := (rfl)
@[simp] theorem State.countFld_lnk (s : State) (f : Fld) (n : Nat) : (s.countFld f n).lnk = s.lnk := (rfl)

/-! ## wrapFld -/

@[simp] theorem State.wrapFld_pending (s : State) (f : Fld) (n : Nat) : (s.wrapFld f n).pending = s.pending := (rfl)
@[simp] theorem State.wrapFld_free (s : State) (f : Fld) (n : Nat) : (s.wrapFld f n).free = s.free := (rfl)
@[simp] theorem State.wrapFld_hostRead (s : State) (f : Fld) (n : Nat) : (s.wrapFld f n).hostRead = s.hostRead := (rfl)
@[simp] theorem State.wrapFld_irqs (s : State) (f : Fld) (n : Nat) : (s.wrapFld f n).irqs = s.irqs := (rfl)
@[simp] theorem State.wrapFld_pcie (s : State) (f : Fld) (n : Nat) : (s.wrapFld f n).pcie = s.pcie := (rfl)
@[simp] theorem State.wrapFld_timed (s : State) (f : Fld) (n : Nat) : (s.wrapFld f n).timed = s.timed := (rfl)
@[simp] theorem State.wrapFld_raised (s : State) (f : Fld) (n : Nat) : (s.wrapFld f n).raised = s.raised := (rfl)
@[simp] theorem State.wrapFld_ic (s : State) (f : Fld) (n : Nat) : (s.wrapFld f n).ic = s.ic := (rfl)
@[simp] theorem State.wrapFld_holdRead (s : State) (f : Fld) (n : Nat) : (s.wrapFld f n).holdRead = s.holdRead := (rfl)
@[simp] theorem State.wrapFld_holdWrite (s : State) (f : Fld) (n : Nat) : (s.wrapFld f n).holdWrite = s.holdWrite := (rfl)
@[simp] theorem State.wrapFld_clk (s : State) (f : Fld) (n : Nat) : (s.wrapFld f n).clk = s.clk := (rfl)
@[simp] theorem State.wrapFld_tly (s : State) (f : Fld) (n : Nat) : (s.wrapFld f n).tly = s.tly := (rfl)
@[simp] theorem State.wrapFld_ldg (s : State) (f : Fld) (n : Nat) : (s.wrapFld f n).ldg = s.ldg := (rfl)
@[simp] theorem State.wrapFld_hostMem (s : State) (f : Fld) (n : Nat) : (s.wrapFld f n).hostMem = s.hostMem := (rfl)
@[simp] theorem State.wrapFld_hostBad (s : State) (f : Fld) (n : Nat) : (s.wrapFld f n).hostBad = s.hostBad := (rfl)
@[simp] theorem State.wrapFld_faults (s : State) (f : Fld) (n : Nat) : (s.wrapFld f n).faults = s.faults := (rfl)
@[simp] theorem State.wrapFld_stall (s : State) (f : Fld) (n : Nat) : (s.wrapFld f n).stall = s.stall := (rfl)
@[simp] theorem State.wrapFld_hwk (s : State) (f : Fld) (n : Nat) : (s.wrapFld f n).hwk = s.hwk := (rfl)
@[simp] theorem State.wrapFld_core (s : State) (f : Fld) (n : Nat) : (s.wrapFld f n).core = s.core := (rfl)
@[simp] theorem State.wrapFld_prog (s : State) (f : Fld) (n : Nat) : (s.wrapFld f n).prog = s.prog := (rfl)
@[simp] theorem State.wrapFld_localMem (s : State) (f : Fld) (n : Nat) : (s.wrapFld f n).localMem = s.localMem := (rfl)
@[simp] theorem State.wrapFld_localBad (s : State) (f : Fld) (n : Nat) : (s.wrapFld f n).localBad = s.localBad := (rfl)
@[simp] theorem State.wrapFld_localSoft (s : State) (f : Fld) (n : Nat) : (s.wrapFld f n).localSoft = s.localSoft := (rfl)
@[simp] theorem State.wrapFld_sram (s : State) (f : Fld) (n : Nat) : (s.wrapFld f n).sram = s.sram := (rfl)
@[simp] theorem State.wrapFld_sramBad (s : State) (f : Fld) (n : Nat) : (s.wrapFld f n).sramBad = s.sramBad := (rfl)
@[simp] theorem State.wrapFld_slice (s : State) (f : Fld) (n : Nat) : (s.wrapFld f n).slice = s.slice := (rfl)
@[simp] theorem State.wrapFld_line (s : State) (f : Fld) (n : Nat) : (s.wrapFld f n).line = s.line := (rfl)
@[simp] theorem State.wrapFld_serve (s : State) (f : Fld) (n : Nat) : (s.wrapFld f n).serve = s.serve := (rfl)
@[simp] theorem State.wrapFld_bank (s : State) (f : Fld) (n : Nat) : (s.wrapFld f n).bank = s.bank := (rfl)
@[simp] theorem State.wrapFld_conv (s : State) (f : Fld) (n : Nat) : (s.wrapFld f n).conv = s.conv := (rfl)
@[simp] theorem State.wrapFld_mode (s : State) (f : Fld) (n : Nat) : (s.wrapFld f n).mode = s.mode := (rfl)
@[simp] theorem State.wrapFld_coord (s : State) (f : Fld) (n : Nat) : (s.wrapFld f n).coord = s.coord := (rfl)
@[simp] theorem State.wrapFld_phase (s : State) (f : Fld) (n : Nat) : (s.wrapFld f n).phase = s.phase := (rfl)
@[simp] theorem State.wrapFld_dl (s : State) (f : Fld) (n : Nat) : (s.wrapFld f n).dl = s.dl := (rfl)
@[simp] theorem State.wrapFld_grp (s : State) (f : Fld) (n : Nat) : (s.wrapFld f n).grp = s.grp := (rfl)
@[simp] theorem State.wrapFld_cmp (s : State) (f : Fld) (n : Nat) : (s.wrapFld f n).cmp = s.cmp := (rfl)
@[simp] theorem State.wrapFld_step (s : State) (f : Fld) (n : Nat) : (s.wrapFld f n).step = s.step := (rfl)
@[simp] theorem State.wrapFld_dram (s : State) (f : Fld) (n : Nat) : (s.wrapFld f n).dram = s.dram := (rfl)
@[simp] theorem State.wrapFld_dramBad (s : State) (f : Fld) (n : Nat) : (s.wrapFld f n).dramBad = s.dramBad := (rfl)
@[simp] theorem State.wrapFld_fbk (s : State) (f : Fld) (n : Nat) : (s.wrapFld f n).fbk = s.fbk := (rfl)
@[simp] theorem State.wrapFld_emu (s : State) (f : Fld) (n : Nat) : (s.wrapFld f n).emu = s.emu := (rfl)
@[simp] theorem State.wrapFld_balls (s : State) (f : Fld) (n : Nat) : (s.wrapFld f n).balls = s.balls := (rfl)
@[simp] theorem State.wrapFld_tclkGone (s : State) (f : Fld) (n : Nat) : (s.wrapFld f n).tclkGone = s.tclkGone := (rfl)
@[simp] theorem State.wrapFld_motionHalted (s : State) (f : Fld) (n : Nat) : (s.wrapFld f n).motionHalted = s.motionHalted := (rfl)
@[simp] theorem State.wrapFld_cmBad (s : State) (f : Fld) (n : Nat) : (s.wrapFld f n).cmBad = s.cmBad := (rfl)
@[simp] theorem State.wrapFld_cmOut (s : State) (f : Fld) (n : Nat) : (s.wrapFld f n).cmOut = s.cmOut := (rfl)
@[simp] theorem State.wrapFld_cmLast (s : State) (f : Fld) (n : Nat) : (s.wrapFld f n).cmLast = s.cmLast := (rfl)
@[simp] theorem State.wrapFld_sramTold (s : State) (f : Fld) (n : Nat) : (s.wrapFld f n).sramTold = s.sramTold := (rfl)
@[simp] theorem State.wrapFld_saf (s : State) (f : Fld) (n : Nat) : (s.wrapFld f n).saf = s.saf := (rfl)
@[simp] theorem State.wrapFld_sec (s : State) (f : Fld) (n : Nat) : (s.wrapFld f n).sec = s.sec := (rfl)
@[simp] theorem State.wrapFld_pwr (s : State) (f : Fld) (n : Nat) : (s.wrapFld f n).pwr = s.pwr := (rfl)
@[simp] theorem State.wrapFld_twin (s : State) (f : Fld) (n : Nat) : (s.wrapFld f n).twin = s.twin := (rfl)
@[simp] theorem State.wrapFld_fab (s : State) (f : Fld) (n : Nat) : (s.wrapFld f n).fab = s.fab := (rfl)
@[simp] theorem State.wrapFld_lnk (s : State) (f : Fld) (n : Nat) : (s.wrapFld f n).lnk = s.lnk := (rfl)

/-! ## setBitFld -/

@[simp] theorem State.setBitFld_pending (s : State) (f : Fld) (i : Nat) (b : Bool) : (s.setBitFld f i b).pending = s.pending := (rfl)
@[simp] theorem State.setBitFld_free (s : State) (f : Fld) (i : Nat) (b : Bool) : (s.setBitFld f i b).free = s.free := (rfl)
@[simp] theorem State.setBitFld_hostRead (s : State) (f : Fld) (i : Nat) (b : Bool) : (s.setBitFld f i b).hostRead = s.hostRead := (rfl)
@[simp] theorem State.setBitFld_irqs (s : State) (f : Fld) (i : Nat) (b : Bool) : (s.setBitFld f i b).irqs = s.irqs := (rfl)
@[simp] theorem State.setBitFld_pcie (s : State) (f : Fld) (i : Nat) (b : Bool) : (s.setBitFld f i b).pcie = s.pcie := (rfl)
@[simp] theorem State.setBitFld_timed (s : State) (f : Fld) (i : Nat) (b : Bool) : (s.setBitFld f i b).timed = s.timed := (rfl)
@[simp] theorem State.setBitFld_raised (s : State) (f : Fld) (i : Nat) (b : Bool) : (s.setBitFld f i b).raised = s.raised := (rfl)
@[simp] theorem State.setBitFld_ic (s : State) (f : Fld) (i : Nat) (b : Bool) : (s.setBitFld f i b).ic = s.ic := (rfl)
@[simp] theorem State.setBitFld_holdRead (s : State) (f : Fld) (i : Nat) (b : Bool) : (s.setBitFld f i b).holdRead = s.holdRead := (rfl)
@[simp] theorem State.setBitFld_holdWrite (s : State) (f : Fld) (i : Nat) (b : Bool) : (s.setBitFld f i b).holdWrite = s.holdWrite := (rfl)
@[simp] theorem State.setBitFld_clk (s : State) (f : Fld) (i : Nat) (b : Bool) : (s.setBitFld f i b).clk = s.clk := (rfl)
@[simp] theorem State.setBitFld_tly (s : State) (f : Fld) (i : Nat) (b : Bool) : (s.setBitFld f i b).tly = s.tly := (rfl)
@[simp] theorem State.setBitFld_ldg (s : State) (f : Fld) (i : Nat) (b : Bool) : (s.setBitFld f i b).ldg = s.ldg := (rfl)
@[simp] theorem State.setBitFld_hostMem (s : State) (f : Fld) (i : Nat) (b : Bool) : (s.setBitFld f i b).hostMem = s.hostMem := (rfl)
@[simp] theorem State.setBitFld_hostBad (s : State) (f : Fld) (i : Nat) (b : Bool) : (s.setBitFld f i b).hostBad = s.hostBad := (rfl)
@[simp] theorem State.setBitFld_faults (s : State) (f : Fld) (i : Nat) (b : Bool) : (s.setBitFld f i b).faults = s.faults := (rfl)
@[simp] theorem State.setBitFld_stall (s : State) (f : Fld) (i : Nat) (b : Bool) : (s.setBitFld f i b).stall = s.stall := (rfl)
@[simp] theorem State.setBitFld_hwk (s : State) (f : Fld) (i : Nat) (b : Bool) : (s.setBitFld f i b).hwk = s.hwk := (rfl)
@[simp] theorem State.setBitFld_core (s : State) (f : Fld) (i : Nat) (b : Bool) : (s.setBitFld f i b).core = s.core := (rfl)
@[simp] theorem State.setBitFld_prog (s : State) (f : Fld) (i : Nat) (b : Bool) : (s.setBitFld f i b).prog = s.prog := (rfl)
@[simp] theorem State.setBitFld_localMem (s : State) (f : Fld) (i : Nat) (b : Bool) : (s.setBitFld f i b).localMem = s.localMem := (rfl)
@[simp] theorem State.setBitFld_localBad (s : State) (f : Fld) (i : Nat) (b : Bool) : (s.setBitFld f i b).localBad = s.localBad := (rfl)
@[simp] theorem State.setBitFld_localSoft (s : State) (f : Fld) (i : Nat) (b : Bool) : (s.setBitFld f i b).localSoft = s.localSoft := (rfl)
@[simp] theorem State.setBitFld_sram (s : State) (f : Fld) (i : Nat) (b : Bool) : (s.setBitFld f i b).sram = s.sram := (rfl)
@[simp] theorem State.setBitFld_sramBad (s : State) (f : Fld) (i : Nat) (b : Bool) : (s.setBitFld f i b).sramBad = s.sramBad := (rfl)
@[simp] theorem State.setBitFld_slice (s : State) (f : Fld) (i : Nat) (b : Bool) : (s.setBitFld f i b).slice = s.slice := (rfl)
@[simp] theorem State.setBitFld_line (s : State) (f : Fld) (i : Nat) (b : Bool) : (s.setBitFld f i b).line = s.line := (rfl)
@[simp] theorem State.setBitFld_serve (s : State) (f : Fld) (i : Nat) (b : Bool) : (s.setBitFld f i b).serve = s.serve := (rfl)
@[simp] theorem State.setBitFld_bank (s : State) (f : Fld) (i : Nat) (b : Bool) : (s.setBitFld f i b).bank = s.bank := (rfl)
@[simp] theorem State.setBitFld_conv (s : State) (f : Fld) (i : Nat) (b : Bool) : (s.setBitFld f i b).conv = s.conv := (rfl)
@[simp] theorem State.setBitFld_mode (s : State) (f : Fld) (i : Nat) (b : Bool) : (s.setBitFld f i b).mode = s.mode := (rfl)
@[simp] theorem State.setBitFld_coord (s : State) (f : Fld) (i : Nat) (b : Bool) : (s.setBitFld f i b).coord = s.coord := (rfl)
@[simp] theorem State.setBitFld_phase (s : State) (f : Fld) (i : Nat) (b : Bool) : (s.setBitFld f i b).phase = s.phase := (rfl)
@[simp] theorem State.setBitFld_dl (s : State) (f : Fld) (i : Nat) (b : Bool) : (s.setBitFld f i b).dl = s.dl := (rfl)
@[simp] theorem State.setBitFld_grp (s : State) (f : Fld) (i : Nat) (b : Bool) : (s.setBitFld f i b).grp = s.grp := (rfl)
@[simp] theorem State.setBitFld_cmp (s : State) (f : Fld) (i : Nat) (b : Bool) : (s.setBitFld f i b).cmp = s.cmp := (rfl)
@[simp] theorem State.setBitFld_step (s : State) (f : Fld) (i : Nat) (b : Bool) : (s.setBitFld f i b).step = s.step := (rfl)
@[simp] theorem State.setBitFld_dram (s : State) (f : Fld) (i : Nat) (b : Bool) : (s.setBitFld f i b).dram = s.dram := (rfl)
@[simp] theorem State.setBitFld_dramBad (s : State) (f : Fld) (i : Nat) (b : Bool) : (s.setBitFld f i b).dramBad = s.dramBad := (rfl)
@[simp] theorem State.setBitFld_fbk (s : State) (f : Fld) (i : Nat) (b : Bool) : (s.setBitFld f i b).fbk = s.fbk := (rfl)
@[simp] theorem State.setBitFld_emu (s : State) (f : Fld) (i : Nat) (b : Bool) : (s.setBitFld f i b).emu = s.emu := (rfl)
@[simp] theorem State.setBitFld_balls (s : State) (f : Fld) (i : Nat) (b : Bool) : (s.setBitFld f i b).balls = s.balls := (rfl)
@[simp] theorem State.setBitFld_tclkGone (s : State) (f : Fld) (i : Nat) (b : Bool) : (s.setBitFld f i b).tclkGone = s.tclkGone := (rfl)
@[simp] theorem State.setBitFld_motionHalted (s : State) (f : Fld) (i : Nat) (b : Bool) : (s.setBitFld f i b).motionHalted = s.motionHalted := (rfl)
@[simp] theorem State.setBitFld_cmBad (s : State) (f : Fld) (i : Nat) (b : Bool) : (s.setBitFld f i b).cmBad = s.cmBad := (rfl)
@[simp] theorem State.setBitFld_cmOut (s : State) (f : Fld) (i : Nat) (b : Bool) : (s.setBitFld f i b).cmOut = s.cmOut := (rfl)
@[simp] theorem State.setBitFld_cmLast (s : State) (f : Fld) (i : Nat) (b : Bool) : (s.setBitFld f i b).cmLast = s.cmLast := (rfl)
@[simp] theorem State.setBitFld_sramTold (s : State) (f : Fld) (i : Nat) (b : Bool) : (s.setBitFld f i b).sramTold = s.sramTold := (rfl)
@[simp] theorem State.setBitFld_saf (s : State) (f : Fld) (i : Nat) (b : Bool) : (s.setBitFld f i b).saf = s.saf := (rfl)
@[simp] theorem State.setBitFld_sec (s : State) (f : Fld) (i : Nat) (b : Bool) : (s.setBitFld f i b).sec = s.sec := (rfl)
@[simp] theorem State.setBitFld_pwr (s : State) (f : Fld) (i : Nat) (b : Bool) : (s.setBitFld f i b).pwr = s.pwr := (rfl)
@[simp] theorem State.setBitFld_twin (s : State) (f : Fld) (i : Nat) (b : Bool) : (s.setBitFld f i b).twin = s.twin := (rfl)
@[simp] theorem State.setBitFld_fab (s : State) (f : Fld) (i : Nat) (b : Bool) : (s.setBitFld f i b).fab = s.fab := (rfl)
@[simp] theorem State.setBitFld_lnk (s : State) (f : Fld) (i : Nat) (b : Bool) : (s.setBitFld f i b).lnk = s.lnk := (rfl)

/-! ## setPair -/

@[simp] theorem State.setPair_pending (s : State) (a v : Nat) : (s.setPair a v).pending = s.pending := (rfl)
@[simp] theorem State.setPair_free (s : State) (a v : Nat) : (s.setPair a v).free = s.free := (rfl)
@[simp] theorem State.setPair_hostRead (s : State) (a v : Nat) : (s.setPair a v).hostRead = s.hostRead := (rfl)
@[simp] theorem State.setPair_irqs (s : State) (a v : Nat) : (s.setPair a v).irqs = s.irqs := (rfl)
@[simp] theorem State.setPair_pcie (s : State) (a v : Nat) : (s.setPair a v).pcie = s.pcie := (rfl)
@[simp] theorem State.setPair_timed (s : State) (a v : Nat) : (s.setPair a v).timed = s.timed := (rfl)
@[simp] theorem State.setPair_raised (s : State) (a v : Nat) : (s.setPair a v).raised = s.raised := (rfl)
@[simp] theorem State.setPair_ic (s : State) (a v : Nat) : (s.setPair a v).ic = s.ic := (rfl)
@[simp] theorem State.setPair_holdRead (s : State) (a v : Nat) : (s.setPair a v).holdRead = s.holdRead := (rfl)
@[simp] theorem State.setPair_holdWrite (s : State) (a v : Nat) : (s.setPair a v).holdWrite = s.holdWrite := (rfl)
@[simp] theorem State.setPair_clk (s : State) (a v : Nat) : (s.setPair a v).clk = s.clk := (rfl)
@[simp] theorem State.setPair_tly (s : State) (a v : Nat) : (s.setPair a v).tly = s.tly := (rfl)
@[simp] theorem State.setPair_ldg (s : State) (a v : Nat) : (s.setPair a v).ldg = s.ldg := (rfl)
@[simp] theorem State.setPair_hostMem (s : State) (a v : Nat) : (s.setPair a v).hostMem = s.hostMem := (rfl)
@[simp] theorem State.setPair_hostBad (s : State) (a v : Nat) : (s.setPair a v).hostBad = s.hostBad := (rfl)
@[simp] theorem State.setPair_faults (s : State) (a v : Nat) : (s.setPair a v).faults = s.faults := (rfl)
@[simp] theorem State.setPair_stall (s : State) (a v : Nat) : (s.setPair a v).stall = s.stall := (rfl)
@[simp] theorem State.setPair_hwk (s : State) (a v : Nat) : (s.setPair a v).hwk = s.hwk := (rfl)
@[simp] theorem State.setPair_core (s : State) (a v : Nat) : (s.setPair a v).core = s.core := (rfl)
@[simp] theorem State.setPair_prog (s : State) (a v : Nat) : (s.setPair a v).prog = s.prog := (rfl)
@[simp] theorem State.setPair_localMem (s : State) (a v : Nat) : (s.setPair a v).localMem = s.localMem := (rfl)
@[simp] theorem State.setPair_localBad (s : State) (a v : Nat) : (s.setPair a v).localBad = s.localBad := (rfl)
@[simp] theorem State.setPair_localSoft (s : State) (a v : Nat) : (s.setPair a v).localSoft = s.localSoft := (rfl)
@[simp] theorem State.setPair_sram (s : State) (a v : Nat) : (s.setPair a v).sram = s.sram := (rfl)
@[simp] theorem State.setPair_sramBad (s : State) (a v : Nat) : (s.setPair a v).sramBad = s.sramBad := (rfl)
@[simp] theorem State.setPair_slice (s : State) (a v : Nat) : (s.setPair a v).slice = s.slice := (rfl)
@[simp] theorem State.setPair_line (s : State) (a v : Nat) : (s.setPair a v).line = s.line := (rfl)
@[simp] theorem State.setPair_serve (s : State) (a v : Nat) : (s.setPair a v).serve = s.serve := (rfl)
@[simp] theorem State.setPair_bank (s : State) (a v : Nat) : (s.setPair a v).bank = s.bank := (rfl)
@[simp] theorem State.setPair_conv (s : State) (a v : Nat) : (s.setPair a v).conv = s.conv := (rfl)
@[simp] theorem State.setPair_mode (s : State) (a v : Nat) : (s.setPair a v).mode = s.mode := (rfl)
@[simp] theorem State.setPair_coord (s : State) (a v : Nat) : (s.setPair a v).coord = s.coord := (rfl)
@[simp] theorem State.setPair_phase (s : State) (a v : Nat) : (s.setPair a v).phase = s.phase := (rfl)
@[simp] theorem State.setPair_dl (s : State) (a v : Nat) : (s.setPair a v).dl = s.dl := (rfl)
@[simp] theorem State.setPair_grp (s : State) (a v : Nat) : (s.setPair a v).grp = s.grp := (rfl)
@[simp] theorem State.setPair_cmp (s : State) (a v : Nat) : (s.setPair a v).cmp = s.cmp := (rfl)
@[simp] theorem State.setPair_step (s : State) (a v : Nat) : (s.setPair a v).step = s.step := (rfl)
@[simp] theorem State.setPair_dram (s : State) (a v : Nat) : (s.setPair a v).dram = s.dram := (rfl)
@[simp] theorem State.setPair_dramBad (s : State) (a v : Nat) : (s.setPair a v).dramBad = s.dramBad := (rfl)
@[simp] theorem State.setPair_fbk (s : State) (a v : Nat) : (s.setPair a v).fbk = s.fbk := (rfl)
@[simp] theorem State.setPair_emu (s : State) (a v : Nat) : (s.setPair a v).emu = s.emu := (rfl)
@[simp] theorem State.setPair_balls (s : State) (a v : Nat) : (s.setPair a v).balls = s.balls := (rfl)
@[simp] theorem State.setPair_tclkGone (s : State) (a v : Nat) : (s.setPair a v).tclkGone = s.tclkGone := (rfl)
@[simp] theorem State.setPair_motionHalted (s : State) (a v : Nat) : (s.setPair a v).motionHalted = s.motionHalted := (rfl)
@[simp] theorem State.setPair_cmBad (s : State) (a v : Nat) : (s.setPair a v).cmBad = s.cmBad := (rfl)
@[simp] theorem State.setPair_cmOut (s : State) (a v : Nat) : (s.setPair a v).cmOut = s.cmOut := (rfl)
@[simp] theorem State.setPair_cmLast (s : State) (a v : Nat) : (s.setPair a v).cmLast = s.cmLast := (rfl)
@[simp] theorem State.setPair_sramTold (s : State) (a v : Nat) : (s.setPair a v).sramTold = s.sramTold := (rfl)
@[simp] theorem State.setPair_saf (s : State) (a v : Nat) : (s.setPair a v).saf = s.saf := (rfl)
@[simp] theorem State.setPair_sec (s : State) (a v : Nat) : (s.setPair a v).sec = s.sec := (rfl)
@[simp] theorem State.setPair_pwr (s : State) (a v : Nat) : (s.setPair a v).pwr = s.pwr := (rfl)
@[simp] theorem State.setPair_twin (s : State) (a v : Nat) : (s.setPair a v).twin = s.twin := (rfl)
@[simp] theorem State.setPair_fab (s : State) (a v : Nat) : (s.setPair a v).fab = s.fab := (rfl)
@[simp] theorem State.setPair_lnk (s : State) (a v : Nat) : (s.setPair a v).lnk = s.lnk := (rfl)

/-! ## raiseBits -/

@[simp] theorem State.raiseBits_pending (s : State) (f : Fld) (v : Nat) : (s.raiseBits f v).pending = s.pending := (rfl)
@[simp] theorem State.raiseBits_free (s : State) (f : Fld) (v : Nat) : (s.raiseBits f v).free = s.free := (rfl)
@[simp] theorem State.raiseBits_hostRead (s : State) (f : Fld) (v : Nat) : (s.raiseBits f v).hostRead = s.hostRead := (rfl)
@[simp] theorem State.raiseBits_irqs (s : State) (f : Fld) (v : Nat) : (s.raiseBits f v).irqs = s.irqs := (rfl)
@[simp] theorem State.raiseBits_pcie (s : State) (f : Fld) (v : Nat) : (s.raiseBits f v).pcie = s.pcie := (rfl)
@[simp] theorem State.raiseBits_timed (s : State) (f : Fld) (v : Nat) : (s.raiseBits f v).timed = s.timed := (rfl)
@[simp] theorem State.raiseBits_ic (s : State) (f : Fld) (v : Nat) : (s.raiseBits f v).ic = s.ic := (rfl)
@[simp] theorem State.raiseBits_holdRead (s : State) (f : Fld) (v : Nat) : (s.raiseBits f v).holdRead = s.holdRead := (rfl)
@[simp] theorem State.raiseBits_holdWrite (s : State) (f : Fld) (v : Nat) : (s.raiseBits f v).holdWrite = s.holdWrite := (rfl)
@[simp] theorem State.raiseBits_clk (s : State) (f : Fld) (v : Nat) : (s.raiseBits f v).clk = s.clk := (rfl)
@[simp] theorem State.raiseBits_tly (s : State) (f : Fld) (v : Nat) : (s.raiseBits f v).tly = s.tly := (rfl)
@[simp] theorem State.raiseBits_ldg (s : State) (f : Fld) (v : Nat) : (s.raiseBits f v).ldg = s.ldg := (rfl)
@[simp] theorem State.raiseBits_hostMem (s : State) (f : Fld) (v : Nat) : (s.raiseBits f v).hostMem = s.hostMem := (rfl)
@[simp] theorem State.raiseBits_hostBad (s : State) (f : Fld) (v : Nat) : (s.raiseBits f v).hostBad = s.hostBad := (rfl)
@[simp] theorem State.raiseBits_faults (s : State) (f : Fld) (v : Nat) : (s.raiseBits f v).faults = s.faults := (rfl)
@[simp] theorem State.raiseBits_stall (s : State) (f : Fld) (v : Nat) : (s.raiseBits f v).stall = s.stall := (rfl)
@[simp] theorem State.raiseBits_hwk (s : State) (f : Fld) (v : Nat) : (s.raiseBits f v).hwk = s.hwk := (rfl)
@[simp] theorem State.raiseBits_core (s : State) (f : Fld) (v : Nat) : (s.raiseBits f v).core = s.core := (rfl)
@[simp] theorem State.raiseBits_prog (s : State) (f : Fld) (v : Nat) : (s.raiseBits f v).prog = s.prog := (rfl)
@[simp] theorem State.raiseBits_localMem (s : State) (f : Fld) (v : Nat) : (s.raiseBits f v).localMem = s.localMem := (rfl)
@[simp] theorem State.raiseBits_localBad (s : State) (f : Fld) (v : Nat) : (s.raiseBits f v).localBad = s.localBad := (rfl)
@[simp] theorem State.raiseBits_localSoft (s : State) (f : Fld) (v : Nat) : (s.raiseBits f v).localSoft = s.localSoft := (rfl)
@[simp] theorem State.raiseBits_sram (s : State) (f : Fld) (v : Nat) : (s.raiseBits f v).sram = s.sram := (rfl)
@[simp] theorem State.raiseBits_sramBad (s : State) (f : Fld) (v : Nat) : (s.raiseBits f v).sramBad = s.sramBad := (rfl)
@[simp] theorem State.raiseBits_slice (s : State) (f : Fld) (v : Nat) : (s.raiseBits f v).slice = s.slice := (rfl)
@[simp] theorem State.raiseBits_line (s : State) (f : Fld) (v : Nat) : (s.raiseBits f v).line = s.line := (rfl)
@[simp] theorem State.raiseBits_serve (s : State) (f : Fld) (v : Nat) : (s.raiseBits f v).serve = s.serve := (rfl)
@[simp] theorem State.raiseBits_bank (s : State) (f : Fld) (v : Nat) : (s.raiseBits f v).bank = s.bank := (rfl)
@[simp] theorem State.raiseBits_conv (s : State) (f : Fld) (v : Nat) : (s.raiseBits f v).conv = s.conv := (rfl)
@[simp] theorem State.raiseBits_mode (s : State) (f : Fld) (v : Nat) : (s.raiseBits f v).mode = s.mode := (rfl)
@[simp] theorem State.raiseBits_coord (s : State) (f : Fld) (v : Nat) : (s.raiseBits f v).coord = s.coord := (rfl)
@[simp] theorem State.raiseBits_phase (s : State) (f : Fld) (v : Nat) : (s.raiseBits f v).phase = s.phase := (rfl)
@[simp] theorem State.raiseBits_dl (s : State) (f : Fld) (v : Nat) : (s.raiseBits f v).dl = s.dl := (rfl)
@[simp] theorem State.raiseBits_grp (s : State) (f : Fld) (v : Nat) : (s.raiseBits f v).grp = s.grp := (rfl)
@[simp] theorem State.raiseBits_cmp (s : State) (f : Fld) (v : Nat) : (s.raiseBits f v).cmp = s.cmp := (rfl)
@[simp] theorem State.raiseBits_step (s : State) (f : Fld) (v : Nat) : (s.raiseBits f v).step = s.step := (rfl)
@[simp] theorem State.raiseBits_dram (s : State) (f : Fld) (v : Nat) : (s.raiseBits f v).dram = s.dram := (rfl)
@[simp] theorem State.raiseBits_dramBad (s : State) (f : Fld) (v : Nat) : (s.raiseBits f v).dramBad = s.dramBad := (rfl)
@[simp] theorem State.raiseBits_fbk (s : State) (f : Fld) (v : Nat) : (s.raiseBits f v).fbk = s.fbk := (rfl)
@[simp] theorem State.raiseBits_emu (s : State) (f : Fld) (v : Nat) : (s.raiseBits f v).emu = s.emu := (rfl)
@[simp] theorem State.raiseBits_balls (s : State) (f : Fld) (v : Nat) : (s.raiseBits f v).balls = s.balls := (rfl)
@[simp] theorem State.raiseBits_tclkGone (s : State) (f : Fld) (v : Nat) : (s.raiseBits f v).tclkGone = s.tclkGone := (rfl)
@[simp] theorem State.raiseBits_motionHalted (s : State) (f : Fld) (v : Nat) : (s.raiseBits f v).motionHalted = s.motionHalted := (rfl)
@[simp] theorem State.raiseBits_cmBad (s : State) (f : Fld) (v : Nat) : (s.raiseBits f v).cmBad = s.cmBad := (rfl)
@[simp] theorem State.raiseBits_cmOut (s : State) (f : Fld) (v : Nat) : (s.raiseBits f v).cmOut = s.cmOut := (rfl)
@[simp] theorem State.raiseBits_cmLast (s : State) (f : Fld) (v : Nat) : (s.raiseBits f v).cmLast = s.cmLast := (rfl)
@[simp] theorem State.raiseBits_sramTold (s : State) (f : Fld) (v : Nat) : (s.raiseBits f v).sramTold = s.sramTold := (rfl)
@[simp] theorem State.raiseBits_saf (s : State) (f : Fld) (v : Nat) : (s.raiseBits f v).saf = s.saf := (rfl)
@[simp] theorem State.raiseBits_sec (s : State) (f : Fld) (v : Nat) : (s.raiseBits f v).sec = s.sec := (rfl)
@[simp] theorem State.raiseBits_pwr (s : State) (f : Fld) (v : Nat) : (s.raiseBits f v).pwr = s.pwr := (rfl)
@[simp] theorem State.raiseBits_twin (s : State) (f : Fld) (v : Nat) : (s.raiseBits f v).twin = s.twin := (rfl)
@[simp] theorem State.raiseBits_fab (s : State) (f : Fld) (v : Nat) : (s.raiseBits f v).fab = s.fab := (rfl)
@[simp] theorem State.raiseBits_lnk (s : State) (f : Fld) (v : Nat) : (s.raiseBits f v).lnk = s.lnk := (rfl)

/-! ## raise -/

@[simp] theorem State.raise_pending (s : State) (f : Fld) : (s.raise f).pending = s.pending := (rfl)
@[simp] theorem State.raise_free (s : State) (f : Fld) : (s.raise f).free = s.free := (rfl)
@[simp] theorem State.raise_hostRead (s : State) (f : Fld) : (s.raise f).hostRead = s.hostRead := (rfl)
@[simp] theorem State.raise_irqs (s : State) (f : Fld) : (s.raise f).irqs = s.irqs := (rfl)
@[simp] theorem State.raise_pcie (s : State) (f : Fld) : (s.raise f).pcie = s.pcie := (rfl)
@[simp] theorem State.raise_timed (s : State) (f : Fld) : (s.raise f).timed = s.timed := (rfl)
@[simp] theorem State.raise_ic (s : State) (f : Fld) : (s.raise f).ic = s.ic := (rfl)
@[simp] theorem State.raise_holdRead (s : State) (f : Fld) : (s.raise f).holdRead = s.holdRead := (rfl)
@[simp] theorem State.raise_holdWrite (s : State) (f : Fld) : (s.raise f).holdWrite = s.holdWrite := (rfl)
@[simp] theorem State.raise_clk (s : State) (f : Fld) : (s.raise f).clk = s.clk := (rfl)
@[simp] theorem State.raise_tly (s : State) (f : Fld) : (s.raise f).tly = s.tly := (rfl)
@[simp] theorem State.raise_ldg (s : State) (f : Fld) : (s.raise f).ldg = s.ldg := (rfl)
@[simp] theorem State.raise_hostMem (s : State) (f : Fld) : (s.raise f).hostMem = s.hostMem := (rfl)
@[simp] theorem State.raise_hostBad (s : State) (f : Fld) : (s.raise f).hostBad = s.hostBad := (rfl)
@[simp] theorem State.raise_faults (s : State) (f : Fld) : (s.raise f).faults = s.faults := (rfl)
@[simp] theorem State.raise_stall (s : State) (f : Fld) : (s.raise f).stall = s.stall := (rfl)
@[simp] theorem State.raise_hwk (s : State) (f : Fld) : (s.raise f).hwk = s.hwk := (rfl)
@[simp] theorem State.raise_core (s : State) (f : Fld) : (s.raise f).core = s.core := (rfl)
@[simp] theorem State.raise_prog (s : State) (f : Fld) : (s.raise f).prog = s.prog := (rfl)
@[simp] theorem State.raise_localMem (s : State) (f : Fld) : (s.raise f).localMem = s.localMem := (rfl)
@[simp] theorem State.raise_localBad (s : State) (f : Fld) : (s.raise f).localBad = s.localBad := (rfl)
@[simp] theorem State.raise_localSoft (s : State) (f : Fld) : (s.raise f).localSoft = s.localSoft := (rfl)
@[simp] theorem State.raise_sram (s : State) (f : Fld) : (s.raise f).sram = s.sram := (rfl)
@[simp] theorem State.raise_sramBad (s : State) (f : Fld) : (s.raise f).sramBad = s.sramBad := (rfl)
@[simp] theorem State.raise_slice (s : State) (f : Fld) : (s.raise f).slice = s.slice := (rfl)
@[simp] theorem State.raise_line (s : State) (f : Fld) : (s.raise f).line = s.line := (rfl)
@[simp] theorem State.raise_serve (s : State) (f : Fld) : (s.raise f).serve = s.serve := (rfl)
@[simp] theorem State.raise_bank (s : State) (f : Fld) : (s.raise f).bank = s.bank := (rfl)
@[simp] theorem State.raise_conv (s : State) (f : Fld) : (s.raise f).conv = s.conv := (rfl)
@[simp] theorem State.raise_mode (s : State) (f : Fld) : (s.raise f).mode = s.mode := (rfl)
@[simp] theorem State.raise_coord (s : State) (f : Fld) : (s.raise f).coord = s.coord := (rfl)
@[simp] theorem State.raise_phase (s : State) (f : Fld) : (s.raise f).phase = s.phase := (rfl)
@[simp] theorem State.raise_dl (s : State) (f : Fld) : (s.raise f).dl = s.dl := (rfl)
@[simp] theorem State.raise_grp (s : State) (f : Fld) : (s.raise f).grp = s.grp := (rfl)
@[simp] theorem State.raise_cmp (s : State) (f : Fld) : (s.raise f).cmp = s.cmp := (rfl)
@[simp] theorem State.raise_step (s : State) (f : Fld) : (s.raise f).step = s.step := (rfl)
@[simp] theorem State.raise_dram (s : State) (f : Fld) : (s.raise f).dram = s.dram := (rfl)
@[simp] theorem State.raise_dramBad (s : State) (f : Fld) : (s.raise f).dramBad = s.dramBad := (rfl)
@[simp] theorem State.raise_fbk (s : State) (f : Fld) : (s.raise f).fbk = s.fbk := (rfl)
@[simp] theorem State.raise_emu (s : State) (f : Fld) : (s.raise f).emu = s.emu := (rfl)
@[simp] theorem State.raise_balls (s : State) (f : Fld) : (s.raise f).balls = s.balls := (rfl)
@[simp] theorem State.raise_tclkGone (s : State) (f : Fld) : (s.raise f).tclkGone = s.tclkGone := (rfl)
@[simp] theorem State.raise_motionHalted (s : State) (f : Fld) : (s.raise f).motionHalted = s.motionHalted := (rfl)
@[simp] theorem State.raise_cmBad (s : State) (f : Fld) : (s.raise f).cmBad = s.cmBad := (rfl)
@[simp] theorem State.raise_cmOut (s : State) (f : Fld) : (s.raise f).cmOut = s.cmOut := (rfl)
@[simp] theorem State.raise_cmLast (s : State) (f : Fld) : (s.raise f).cmLast = s.cmLast := (rfl)
@[simp] theorem State.raise_sramTold (s : State) (f : Fld) : (s.raise f).sramTold = s.sramTold := (rfl)
@[simp] theorem State.raise_saf (s : State) (f : Fld) : (s.raise f).saf = s.saf := (rfl)
@[simp] theorem State.raise_sec (s : State) (f : Fld) : (s.raise f).sec = s.sec := (rfl)
@[simp] theorem State.raise_pwr (s : State) (f : Fld) : (s.raise f).pwr = s.pwr := (rfl)
@[simp] theorem State.raise_twin (s : State) (f : Fld) : (s.raise f).twin = s.twin := (rfl)
@[simp] theorem State.raise_fab (s : State) (f : Fld) : (s.raise f).fab = s.fab := (rfl)
@[simp] theorem State.raise_lnk (s : State) (f : Fld) : (s.raise f).lnk = s.lnk := (rfl)

/-! ## usedFree -/

@[simp] theorem State.usedFree_pending (s : State) : (s.usedFree).pending = s.pending := (rfl)
@[simp] theorem State.usedFree_hostRead (s : State) : (s.usedFree).hostRead = s.hostRead := (rfl)
@[simp] theorem State.usedFree_irqs (s : State) : (s.usedFree).irqs = s.irqs := (rfl)
@[simp] theorem State.usedFree_pcie (s : State) : (s.usedFree).pcie = s.pcie := (rfl)
@[simp] theorem State.usedFree_regs (s : State) : (s.usedFree).regs = s.regs := (rfl)
@[simp] theorem State.usedFree_timed (s : State) : (s.usedFree).timed = s.timed := (rfl)
@[simp] theorem State.usedFree_raised (s : State) : (s.usedFree).raised = s.raised := (rfl)
@[simp] theorem State.usedFree_ic (s : State) : (s.usedFree).ic = s.ic := (rfl)
@[simp] theorem State.usedFree_holdRead (s : State) : (s.usedFree).holdRead = s.holdRead := (rfl)
@[simp] theorem State.usedFree_holdWrite (s : State) : (s.usedFree).holdWrite = s.holdWrite := (rfl)
@[simp] theorem State.usedFree_clk (s : State) : (s.usedFree).clk = s.clk := (rfl)
@[simp] theorem State.usedFree_tly (s : State) : (s.usedFree).tly = s.tly := (rfl)
@[simp] theorem State.usedFree_ldg (s : State) : (s.usedFree).ldg = s.ldg := (rfl)
@[simp] theorem State.usedFree_hostMem (s : State) : (s.usedFree).hostMem = s.hostMem := (rfl)
@[simp] theorem State.usedFree_hostBad (s : State) : (s.usedFree).hostBad = s.hostBad := (rfl)
@[simp] theorem State.usedFree_faults (s : State) : (s.usedFree).faults = s.faults := (rfl)
@[simp] theorem State.usedFree_stall (s : State) : (s.usedFree).stall = s.stall := (rfl)
@[simp] theorem State.usedFree_hwk (s : State) : (s.usedFree).hwk = s.hwk := (rfl)
@[simp] theorem State.usedFree_core (s : State) : (s.usedFree).core = s.core := (rfl)
@[simp] theorem State.usedFree_prog (s : State) : (s.usedFree).prog = s.prog := (rfl)
@[simp] theorem State.usedFree_localMem (s : State) : (s.usedFree).localMem = s.localMem := (rfl)
@[simp] theorem State.usedFree_localBad (s : State) : (s.usedFree).localBad = s.localBad := (rfl)
@[simp] theorem State.usedFree_localSoft (s : State) : (s.usedFree).localSoft = s.localSoft := (rfl)
@[simp] theorem State.usedFree_sram (s : State) : (s.usedFree).sram = s.sram := (rfl)
@[simp] theorem State.usedFree_sramBad (s : State) : (s.usedFree).sramBad = s.sramBad := (rfl)
@[simp] theorem State.usedFree_slice (s : State) : (s.usedFree).slice = s.slice := (rfl)
@[simp] theorem State.usedFree_line (s : State) : (s.usedFree).line = s.line := (rfl)
@[simp] theorem State.usedFree_serve (s : State) : (s.usedFree).serve = s.serve := (rfl)
@[simp] theorem State.usedFree_bank (s : State) : (s.usedFree).bank = s.bank := (rfl)
@[simp] theorem State.usedFree_conv (s : State) : (s.usedFree).conv = s.conv := (rfl)
@[simp] theorem State.usedFree_mode (s : State) : (s.usedFree).mode = s.mode := (rfl)
@[simp] theorem State.usedFree_coord (s : State) : (s.usedFree).coord = s.coord := (rfl)
@[simp] theorem State.usedFree_phase (s : State) : (s.usedFree).phase = s.phase := (rfl)
@[simp] theorem State.usedFree_dl (s : State) : (s.usedFree).dl = s.dl := (rfl)
@[simp] theorem State.usedFree_grp (s : State) : (s.usedFree).grp = s.grp := (rfl)
@[simp] theorem State.usedFree_cmp (s : State) : (s.usedFree).cmp = s.cmp := (rfl)
@[simp] theorem State.usedFree_step (s : State) : (s.usedFree).step = s.step := (rfl)
@[simp] theorem State.usedFree_dram (s : State) : (s.usedFree).dram = s.dram := (rfl)
@[simp] theorem State.usedFree_dramBad (s : State) : (s.usedFree).dramBad = s.dramBad := (rfl)
@[simp] theorem State.usedFree_fbk (s : State) : (s.usedFree).fbk = s.fbk := (rfl)
@[simp] theorem State.usedFree_emu (s : State) : (s.usedFree).emu = s.emu := (rfl)
@[simp] theorem State.usedFree_balls (s : State) : (s.usedFree).balls = s.balls := (rfl)
@[simp] theorem State.usedFree_tclkGone (s : State) : (s.usedFree).tclkGone = s.tclkGone := (rfl)
@[simp] theorem State.usedFree_motionHalted (s : State) : (s.usedFree).motionHalted = s.motionHalted := (rfl)
@[simp] theorem State.usedFree_cmBad (s : State) : (s.usedFree).cmBad = s.cmBad := (rfl)
@[simp] theorem State.usedFree_cmOut (s : State) : (s.usedFree).cmOut = s.cmOut := (rfl)
@[simp] theorem State.usedFree_cmLast (s : State) : (s.usedFree).cmLast = s.cmLast := (rfl)
@[simp] theorem State.usedFree_sramTold (s : State) : (s.usedFree).sramTold = s.sramTold := (rfl)
@[simp] theorem State.usedFree_saf (s : State) : (s.usedFree).saf = s.saf := (rfl)
@[simp] theorem State.usedFree_sec (s : State) : (s.usedFree).sec = s.sec := (rfl)
@[simp] theorem State.usedFree_pwr (s : State) : (s.usedFree).pwr = s.pwr := (rfl)
@[simp] theorem State.usedFree_twin (s : State) : (s.usedFree).twin = s.twin := (rfl)
@[simp] theorem State.usedFree_fab (s : State) : (s.usedFree).fab = s.fab := (rfl)
@[simp] theorem State.usedFree_lnk (s : State) : (s.usedFree).lnk = s.lnk := (rfl)

/-! ## grant -/

@[simp] theorem State.grant_pending (s : State) (k : Nat) : (s.grant k).pending = s.pending := (rfl)
@[simp] theorem State.grant_free (s : State) (k : Nat) : (s.grant k).free = s.free := (rfl)
@[simp] theorem State.grant_hostRead (s : State) (k : Nat) : (s.grant k).hostRead = s.hostRead := (rfl)
@[simp] theorem State.grant_irqs (s : State) (k : Nat) : (s.grant k).irqs = s.irqs := (rfl)
@[simp] theorem State.grant_pcie (s : State) (k : Nat) : (s.grant k).pcie = s.pcie := (rfl)
@[simp] theorem State.grant_regs (s : State) (k : Nat) : (s.grant k).regs = s.regs := (rfl)
@[simp] theorem State.grant_timed (s : State) (k : Nat) : (s.grant k).timed = s.timed := (rfl)
@[simp] theorem State.grant_raised (s : State) (k : Nat) : (s.grant k).raised = s.raised := (rfl)
@[simp] theorem State.grant_holdRead (s : State) (k : Nat) : (s.grant k).holdRead = s.holdRead := (rfl)
@[simp] theorem State.grant_holdWrite (s : State) (k : Nat) : (s.grant k).holdWrite = s.holdWrite := (rfl)
@[simp] theorem State.grant_clk (s : State) (k : Nat) : (s.grant k).clk = s.clk := (rfl)
@[simp] theorem State.grant_tly (s : State) (k : Nat) : (s.grant k).tly = s.tly := (rfl)
@[simp] theorem State.grant_ldg (s : State) (k : Nat) : (s.grant k).ldg = s.ldg := (rfl)
@[simp] theorem State.grant_hostMem (s : State) (k : Nat) : (s.grant k).hostMem = s.hostMem := (rfl)
@[simp] theorem State.grant_hostBad (s : State) (k : Nat) : (s.grant k).hostBad = s.hostBad := (rfl)
@[simp] theorem State.grant_faults (s : State) (k : Nat) : (s.grant k).faults = s.faults := (rfl)
@[simp] theorem State.grant_stall (s : State) (k : Nat) : (s.grant k).stall = s.stall := (rfl)
@[simp] theorem State.grant_hwk (s : State) (k : Nat) : (s.grant k).hwk = s.hwk := (rfl)
@[simp] theorem State.grant_core (s : State) (k : Nat) : (s.grant k).core = s.core := (rfl)
@[simp] theorem State.grant_prog (s : State) (k : Nat) : (s.grant k).prog = s.prog := (rfl)
@[simp] theorem State.grant_localMem (s : State) (k : Nat) : (s.grant k).localMem = s.localMem := (rfl)
@[simp] theorem State.grant_localBad (s : State) (k : Nat) : (s.grant k).localBad = s.localBad := (rfl)
@[simp] theorem State.grant_localSoft (s : State) (k : Nat) : (s.grant k).localSoft = s.localSoft := (rfl)
@[simp] theorem State.grant_sram (s : State) (k : Nat) : (s.grant k).sram = s.sram := (rfl)
@[simp] theorem State.grant_sramBad (s : State) (k : Nat) : (s.grant k).sramBad = s.sramBad := (rfl)
@[simp] theorem State.grant_slice (s : State) (k : Nat) : (s.grant k).slice = s.slice := (rfl)
@[simp] theorem State.grant_line (s : State) (k : Nat) : (s.grant k).line = s.line := (rfl)
@[simp] theorem State.grant_serve (s : State) (k : Nat) : (s.grant k).serve = s.serve := (rfl)
@[simp] theorem State.grant_bank (s : State) (k : Nat) : (s.grant k).bank = s.bank := (rfl)
@[simp] theorem State.grant_conv (s : State) (k : Nat) : (s.grant k).conv = s.conv := (rfl)
@[simp] theorem State.grant_mode (s : State) (k : Nat) : (s.grant k).mode = s.mode := (rfl)
@[simp] theorem State.grant_coord (s : State) (k : Nat) : (s.grant k).coord = s.coord := (rfl)
@[simp] theorem State.grant_phase (s : State) (k : Nat) : (s.grant k).phase = s.phase := (rfl)
@[simp] theorem State.grant_dl (s : State) (k : Nat) : (s.grant k).dl = s.dl := (rfl)
@[simp] theorem State.grant_grp (s : State) (k : Nat) : (s.grant k).grp = s.grp := (rfl)
@[simp] theorem State.grant_cmp (s : State) (k : Nat) : (s.grant k).cmp = s.cmp := (rfl)
@[simp] theorem State.grant_step (s : State) (k : Nat) : (s.grant k).step = s.step := (rfl)
@[simp] theorem State.grant_dram (s : State) (k : Nat) : (s.grant k).dram = s.dram := (rfl)
@[simp] theorem State.grant_dramBad (s : State) (k : Nat) : (s.grant k).dramBad = s.dramBad := (rfl)
@[simp] theorem State.grant_fbk (s : State) (k : Nat) : (s.grant k).fbk = s.fbk := (rfl)
@[simp] theorem State.grant_emu (s : State) (k : Nat) : (s.grant k).emu = s.emu := (rfl)
@[simp] theorem State.grant_balls (s : State) (k : Nat) : (s.grant k).balls = s.balls := (rfl)
@[simp] theorem State.grant_tclkGone (s : State) (k : Nat) : (s.grant k).tclkGone = s.tclkGone := (rfl)
@[simp] theorem State.grant_motionHalted (s : State) (k : Nat) : (s.grant k).motionHalted = s.motionHalted := (rfl)
@[simp] theorem State.grant_cmBad (s : State) (k : Nat) : (s.grant k).cmBad = s.cmBad := (rfl)
@[simp] theorem State.grant_cmOut (s : State) (k : Nat) : (s.grant k).cmOut = s.cmOut := (rfl)
@[simp] theorem State.grant_cmLast (s : State) (k : Nat) : (s.grant k).cmLast = s.cmLast := (rfl)
@[simp] theorem State.grant_sramTold (s : State) (k : Nat) : (s.grant k).sramTold = s.sramTold := (rfl)
@[simp] theorem State.grant_saf (s : State) (k : Nat) : (s.grant k).saf = s.saf := (rfl)
@[simp] theorem State.grant_sec (s : State) (k : Nat) : (s.grant k).sec = s.sec := (rfl)
@[simp] theorem State.grant_pwr (s : State) (k : Nat) : (s.grant k).pwr = s.pwr := (rfl)
@[simp] theorem State.grant_twin (s : State) (k : Nat) : (s.grant k).twin = s.twin := (rfl)
@[simp] theorem State.grant_fab (s : State) (k : Nat) : (s.grant k).fab = s.fab := (rfl)
@[simp] theorem State.grant_lnk (s : State) (k : Nat) : (s.grant k).lnk = s.lnk := (rfl)

/-! ## grantSram -/

@[simp] theorem State.grantSram_pending (s : State) (c : Nat) : (s.grantSram c).pending = s.pending := (rfl)
@[simp] theorem State.grantSram_free (s : State) (c : Nat) : (s.grantSram c).free = s.free := (rfl)
@[simp] theorem State.grantSram_hostRead (s : State) (c : Nat) : (s.grantSram c).hostRead = s.hostRead := (rfl)
@[simp] theorem State.grantSram_irqs (s : State) (c : Nat) : (s.grantSram c).irqs = s.irqs := (rfl)
@[simp] theorem State.grantSram_pcie (s : State) (c : Nat) : (s.grantSram c).pcie = s.pcie := (rfl)
@[simp] theorem State.grantSram_regs (s : State) (c : Nat) : (s.grantSram c).regs = s.regs := (rfl)
@[simp] theorem State.grantSram_timed (s : State) (c : Nat) : (s.grantSram c).timed = s.timed := (rfl)
@[simp] theorem State.grantSram_raised (s : State) (c : Nat) : (s.grantSram c).raised = s.raised := (rfl)
@[simp] theorem State.grantSram_holdRead (s : State) (c : Nat) : (s.grantSram c).holdRead = s.holdRead := (rfl)
@[simp] theorem State.grantSram_holdWrite (s : State) (c : Nat) : (s.grantSram c).holdWrite = s.holdWrite := (rfl)
@[simp] theorem State.grantSram_clk (s : State) (c : Nat) : (s.grantSram c).clk = s.clk := (rfl)
@[simp] theorem State.grantSram_tly (s : State) (c : Nat) : (s.grantSram c).tly = s.tly := (rfl)
@[simp] theorem State.grantSram_ldg (s : State) (c : Nat) : (s.grantSram c).ldg = s.ldg := (rfl)
@[simp] theorem State.grantSram_hostMem (s : State) (c : Nat) : (s.grantSram c).hostMem = s.hostMem := (rfl)
@[simp] theorem State.grantSram_hostBad (s : State) (c : Nat) : (s.grantSram c).hostBad = s.hostBad := (rfl)
@[simp] theorem State.grantSram_faults (s : State) (c : Nat) : (s.grantSram c).faults = s.faults := (rfl)
@[simp] theorem State.grantSram_stall (s : State) (c : Nat) : (s.grantSram c).stall = s.stall := (rfl)
@[simp] theorem State.grantSram_hwk (s : State) (c : Nat) : (s.grantSram c).hwk = s.hwk := (rfl)
@[simp] theorem State.grantSram_core (s : State) (c : Nat) : (s.grantSram c).core = s.core := (rfl)
@[simp] theorem State.grantSram_prog (s : State) (c : Nat) : (s.grantSram c).prog = s.prog := (rfl)
@[simp] theorem State.grantSram_localMem (s : State) (c : Nat) : (s.grantSram c).localMem = s.localMem := (rfl)
@[simp] theorem State.grantSram_localBad (s : State) (c : Nat) : (s.grantSram c).localBad = s.localBad := (rfl)
@[simp] theorem State.grantSram_localSoft (s : State) (c : Nat) : (s.grantSram c).localSoft = s.localSoft := (rfl)
@[simp] theorem State.grantSram_sram (s : State) (c : Nat) : (s.grantSram c).sram = s.sram := (rfl)
@[simp] theorem State.grantSram_sramBad (s : State) (c : Nat) : (s.grantSram c).sramBad = s.sramBad := (rfl)
@[simp] theorem State.grantSram_slice (s : State) (c : Nat) : (s.grantSram c).slice = s.slice := (rfl)
@[simp] theorem State.grantSram_line (s : State) (c : Nat) : (s.grantSram c).line = s.line := (rfl)
@[simp] theorem State.grantSram_serve (s : State) (c : Nat) : (s.grantSram c).serve = s.serve := (rfl)
@[simp] theorem State.grantSram_bank (s : State) (c : Nat) : (s.grantSram c).bank = s.bank := (rfl)
@[simp] theorem State.grantSram_conv (s : State) (c : Nat) : (s.grantSram c).conv = s.conv := (rfl)
@[simp] theorem State.grantSram_mode (s : State) (c : Nat) : (s.grantSram c).mode = s.mode := (rfl)
@[simp] theorem State.grantSram_coord (s : State) (c : Nat) : (s.grantSram c).coord = s.coord := (rfl)
@[simp] theorem State.grantSram_phase (s : State) (c : Nat) : (s.grantSram c).phase = s.phase := (rfl)
@[simp] theorem State.grantSram_dl (s : State) (c : Nat) : (s.grantSram c).dl = s.dl := (rfl)
@[simp] theorem State.grantSram_grp (s : State) (c : Nat) : (s.grantSram c).grp = s.grp := (rfl)
@[simp] theorem State.grantSram_cmp (s : State) (c : Nat) : (s.grantSram c).cmp = s.cmp := (rfl)
@[simp] theorem State.grantSram_step (s : State) (c : Nat) : (s.grantSram c).step = s.step := (rfl)
@[simp] theorem State.grantSram_dram (s : State) (c : Nat) : (s.grantSram c).dram = s.dram := (rfl)
@[simp] theorem State.grantSram_dramBad (s : State) (c : Nat) : (s.grantSram c).dramBad = s.dramBad := (rfl)
@[simp] theorem State.grantSram_fbk (s : State) (c : Nat) : (s.grantSram c).fbk = s.fbk := (rfl)
@[simp] theorem State.grantSram_emu (s : State) (c : Nat) : (s.grantSram c).emu = s.emu := (rfl)
@[simp] theorem State.grantSram_balls (s : State) (c : Nat) : (s.grantSram c).balls = s.balls := (rfl)
@[simp] theorem State.grantSram_tclkGone (s : State) (c : Nat) : (s.grantSram c).tclkGone = s.tclkGone := (rfl)
@[simp] theorem State.grantSram_motionHalted (s : State) (c : Nat) : (s.grantSram c).motionHalted = s.motionHalted := (rfl)
@[simp] theorem State.grantSram_cmBad (s : State) (c : Nat) : (s.grantSram c).cmBad = s.cmBad := (rfl)
@[simp] theorem State.grantSram_cmOut (s : State) (c : Nat) : (s.grantSram c).cmOut = s.cmOut := (rfl)
@[simp] theorem State.grantSram_cmLast (s : State) (c : Nat) : (s.grantSram c).cmLast = s.cmLast := (rfl)
@[simp] theorem State.grantSram_sramTold (s : State) (c : Nat) : (s.grantSram c).sramTold = s.sramTold := (rfl)
@[simp] theorem State.grantSram_saf (s : State) (c : Nat) : (s.grantSram c).saf = s.saf := (rfl)
@[simp] theorem State.grantSram_sec (s : State) (c : Nat) : (s.grantSram c).sec = s.sec := (rfl)
@[simp] theorem State.grantSram_pwr (s : State) (c : Nat) : (s.grantSram c).pwr = s.pwr := (rfl)
@[simp] theorem State.grantSram_twin (s : State) (c : Nat) : (s.grantSram c).twin = s.twin := (rfl)
@[simp] theorem State.grantSram_fab (s : State) (c : Nat) : (s.grantSram c).fab = s.fab := (rfl)
@[simp] theorem State.grantSram_lnk (s : State) (c : Nat) : (s.grantSram c).lnk = s.lnk := (rfl)

/-! ## hostWrite -/

@[simp] theorem State.hostWrite_pending (s : State) (a : Nat) (bs : List Byte) : (s.hostWrite a bs).pending = s.pending := (rfl)
@[simp] theorem State.hostWrite_free (s : State) (a : Nat) (bs : List Byte) : (s.hostWrite a bs).free = s.free := (rfl)
@[simp] theorem State.hostWrite_hostRead (s : State) (a : Nat) (bs : List Byte) : (s.hostWrite a bs).hostRead = s.hostRead := (rfl)
@[simp] theorem State.hostWrite_irqs (s : State) (a : Nat) (bs : List Byte) : (s.hostWrite a bs).irqs = s.irqs := (rfl)
@[simp] theorem State.hostWrite_pcie (s : State) (a : Nat) (bs : List Byte) : (s.hostWrite a bs).pcie = s.pcie := (rfl)
@[simp] theorem State.hostWrite_regs (s : State) (a : Nat) (bs : List Byte) : (s.hostWrite a bs).regs = s.regs := (rfl)
@[simp] theorem State.hostWrite_timed (s : State) (a : Nat) (bs : List Byte) : (s.hostWrite a bs).timed = s.timed := (rfl)
@[simp] theorem State.hostWrite_raised (s : State) (a : Nat) (bs : List Byte) : (s.hostWrite a bs).raised = s.raised := (rfl)
@[simp] theorem State.hostWrite_ic (s : State) (a : Nat) (bs : List Byte) : (s.hostWrite a bs).ic = s.ic := (rfl)
@[simp] theorem State.hostWrite_holdRead (s : State) (a : Nat) (bs : List Byte) : (s.hostWrite a bs).holdRead = s.holdRead := (rfl)
@[simp] theorem State.hostWrite_holdWrite (s : State) (a : Nat) (bs : List Byte) : (s.hostWrite a bs).holdWrite = s.holdWrite := (rfl)
@[simp] theorem State.hostWrite_clk (s : State) (a : Nat) (bs : List Byte) : (s.hostWrite a bs).clk = s.clk := (rfl)
@[simp] theorem State.hostWrite_tly (s : State) (a : Nat) (bs : List Byte) : (s.hostWrite a bs).tly = s.tly := (rfl)
@[simp] theorem State.hostWrite_ldg (s : State) (a : Nat) (bs : List Byte) : (s.hostWrite a bs).ldg = s.ldg := (rfl)
@[simp] theorem State.hostWrite_hostBad (s : State) (a : Nat) (bs : List Byte) : (s.hostWrite a bs).hostBad = s.hostBad := (rfl)
@[simp] theorem State.hostWrite_faults (s : State) (a : Nat) (bs : List Byte) : (s.hostWrite a bs).faults = s.faults := (rfl)
@[simp] theorem State.hostWrite_stall (s : State) (a : Nat) (bs : List Byte) : (s.hostWrite a bs).stall = s.stall := (rfl)
@[simp] theorem State.hostWrite_hwk (s : State) (a : Nat) (bs : List Byte) : (s.hostWrite a bs).hwk = s.hwk := (rfl)
@[simp] theorem State.hostWrite_core (s : State) (a : Nat) (bs : List Byte) : (s.hostWrite a bs).core = s.core := (rfl)
@[simp] theorem State.hostWrite_prog (s : State) (a : Nat) (bs : List Byte) : (s.hostWrite a bs).prog = s.prog := (rfl)
@[simp] theorem State.hostWrite_localMem (s : State) (a : Nat) (bs : List Byte) : (s.hostWrite a bs).localMem = s.localMem := (rfl)
@[simp] theorem State.hostWrite_localBad (s : State) (a : Nat) (bs : List Byte) : (s.hostWrite a bs).localBad = s.localBad := (rfl)
@[simp] theorem State.hostWrite_localSoft (s : State) (a : Nat) (bs : List Byte) : (s.hostWrite a bs).localSoft = s.localSoft := (rfl)
@[simp] theorem State.hostWrite_sram (s : State) (a : Nat) (bs : List Byte) : (s.hostWrite a bs).sram = s.sram := (rfl)
@[simp] theorem State.hostWrite_sramBad (s : State) (a : Nat) (bs : List Byte) : (s.hostWrite a bs).sramBad = s.sramBad := (rfl)
@[simp] theorem State.hostWrite_slice (s : State) (a : Nat) (bs : List Byte) : (s.hostWrite a bs).slice = s.slice := (rfl)
@[simp] theorem State.hostWrite_line (s : State) (a : Nat) (bs : List Byte) : (s.hostWrite a bs).line = s.line := (rfl)
@[simp] theorem State.hostWrite_serve (s : State) (a : Nat) (bs : List Byte) : (s.hostWrite a bs).serve = s.serve := (rfl)
@[simp] theorem State.hostWrite_bank (s : State) (a : Nat) (bs : List Byte) : (s.hostWrite a bs).bank = s.bank := (rfl)
@[simp] theorem State.hostWrite_conv (s : State) (a : Nat) (bs : List Byte) : (s.hostWrite a bs).conv = s.conv := (rfl)
@[simp] theorem State.hostWrite_mode (s : State) (a : Nat) (bs : List Byte) : (s.hostWrite a bs).mode = s.mode := (rfl)
@[simp] theorem State.hostWrite_coord (s : State) (a : Nat) (bs : List Byte) : (s.hostWrite a bs).coord = s.coord := (rfl)
@[simp] theorem State.hostWrite_phase (s : State) (a : Nat) (bs : List Byte) : (s.hostWrite a bs).phase = s.phase := (rfl)
@[simp] theorem State.hostWrite_dl (s : State) (a : Nat) (bs : List Byte) : (s.hostWrite a bs).dl = s.dl := (rfl)
@[simp] theorem State.hostWrite_grp (s : State) (a : Nat) (bs : List Byte) : (s.hostWrite a bs).grp = s.grp := (rfl)
@[simp] theorem State.hostWrite_cmp (s : State) (a : Nat) (bs : List Byte) : (s.hostWrite a bs).cmp = s.cmp := (rfl)
@[simp] theorem State.hostWrite_step (s : State) (a : Nat) (bs : List Byte) : (s.hostWrite a bs).step = s.step := (rfl)
@[simp] theorem State.hostWrite_dram (s : State) (a : Nat) (bs : List Byte) : (s.hostWrite a bs).dram = s.dram := (rfl)
@[simp] theorem State.hostWrite_dramBad (s : State) (a : Nat) (bs : List Byte) : (s.hostWrite a bs).dramBad = s.dramBad := (rfl)
@[simp] theorem State.hostWrite_fbk (s : State) (a : Nat) (bs : List Byte) : (s.hostWrite a bs).fbk = s.fbk := (rfl)
@[simp] theorem State.hostWrite_emu (s : State) (a : Nat) (bs : List Byte) : (s.hostWrite a bs).emu = s.emu := (rfl)
@[simp] theorem State.hostWrite_balls (s : State) (a : Nat) (bs : List Byte) : (s.hostWrite a bs).balls = s.balls := (rfl)
@[simp] theorem State.hostWrite_tclkGone (s : State) (a : Nat) (bs : List Byte) : (s.hostWrite a bs).tclkGone = s.tclkGone := (rfl)
@[simp] theorem State.hostWrite_motionHalted (s : State) (a : Nat) (bs : List Byte) : (s.hostWrite a bs).motionHalted = s.motionHalted := (rfl)
@[simp] theorem State.hostWrite_cmBad (s : State) (a : Nat) (bs : List Byte) : (s.hostWrite a bs).cmBad = s.cmBad := (rfl)
@[simp] theorem State.hostWrite_cmOut (s : State) (a : Nat) (bs : List Byte) : (s.hostWrite a bs).cmOut = s.cmOut := (rfl)
@[simp] theorem State.hostWrite_cmLast (s : State) (a : Nat) (bs : List Byte) : (s.hostWrite a bs).cmLast = s.cmLast := (rfl)
@[simp] theorem State.hostWrite_sramTold (s : State) (a : Nat) (bs : List Byte) : (s.hostWrite a bs).sramTold = s.sramTold := (rfl)
@[simp] theorem State.hostWrite_saf (s : State) (a : Nat) (bs : List Byte) : (s.hostWrite a bs).saf = s.saf := (rfl)
@[simp] theorem State.hostWrite_sec (s : State) (a : Nat) (bs : List Byte) : (s.hostWrite a bs).sec = s.sec := (rfl)
@[simp] theorem State.hostWrite_pwr (s : State) (a : Nat) (bs : List Byte) : (s.hostWrite a bs).pwr = s.pwr := (rfl)
@[simp] theorem State.hostWrite_twin (s : State) (a : Nat) (bs : List Byte) : (s.hostWrite a bs).twin = s.twin := (rfl)
@[simp] theorem State.hostWrite_fab (s : State) (a : Nat) (bs : List Byte) : (s.hostWrite a bs).fab = s.fab := (rfl)
@[simp] theorem State.hostWrite_lnk (s : State) (a : Nat) (bs : List Byte) : (s.hostWrite a bs).lnk = s.lnk := (rfl)

/-! ## setCursor -/

@[simp] theorem State.setCursor_pending (s : State) (n : Nat) (c : CmdCursor) : (s.setCursor n c).pending = s.pending := (rfl)
@[simp] theorem State.setCursor_free (s : State) (n : Nat) (c : CmdCursor) : (s.setCursor n c).free = s.free := (rfl)
@[simp] theorem State.setCursor_hostRead (s : State) (n : Nat) (c : CmdCursor) : (s.setCursor n c).hostRead = s.hostRead := (rfl)
@[simp] theorem State.setCursor_irqs (s : State) (n : Nat) (c : CmdCursor) : (s.setCursor n c).irqs = s.irqs := (rfl)
@[simp] theorem State.setCursor_pcie (s : State) (n : Nat) (c : CmdCursor) : (s.setCursor n c).pcie = s.pcie := (rfl)
@[simp] theorem State.setCursor_regs (s : State) (n : Nat) (c : CmdCursor) : (s.setCursor n c).regs = s.regs := (rfl)
@[simp] theorem State.setCursor_timed (s : State) (n : Nat) (c : CmdCursor) : (s.setCursor n c).timed = s.timed := (rfl)
@[simp] theorem State.setCursor_raised (s : State) (n : Nat) (c : CmdCursor) : (s.setCursor n c).raised = s.raised := (rfl)
@[simp] theorem State.setCursor_ic (s : State) (n : Nat) (c : CmdCursor) : (s.setCursor n c).ic = s.ic := (rfl)
@[simp] theorem State.setCursor_holdRead (s : State) (n : Nat) (c : CmdCursor) : (s.setCursor n c).holdRead = s.holdRead := (rfl)
@[simp] theorem State.setCursor_holdWrite (s : State) (n : Nat) (c : CmdCursor) : (s.setCursor n c).holdWrite = s.holdWrite := (rfl)
@[simp] theorem State.setCursor_clk (s : State) (n : Nat) (c : CmdCursor) : (s.setCursor n c).clk = s.clk := (rfl)
@[simp] theorem State.setCursor_tly (s : State) (n : Nat) (c : CmdCursor) : (s.setCursor n c).tly = s.tly := (rfl)
@[simp] theorem State.setCursor_hostMem (s : State) (n : Nat) (c : CmdCursor) : (s.setCursor n c).hostMem = s.hostMem := (rfl)
@[simp] theorem State.setCursor_hostBad (s : State) (n : Nat) (c : CmdCursor) : (s.setCursor n c).hostBad = s.hostBad := (rfl)
@[simp] theorem State.setCursor_faults (s : State) (n : Nat) (c : CmdCursor) : (s.setCursor n c).faults = s.faults := (rfl)
@[simp] theorem State.setCursor_stall (s : State) (n : Nat) (c : CmdCursor) : (s.setCursor n c).stall = s.stall := (rfl)
@[simp] theorem State.setCursor_hwk (s : State) (n : Nat) (c : CmdCursor) : (s.setCursor n c).hwk = s.hwk := (rfl)
@[simp] theorem State.setCursor_core (s : State) (n : Nat) (c : CmdCursor) : (s.setCursor n c).core = s.core := (rfl)
@[simp] theorem State.setCursor_prog (s : State) (n : Nat) (c : CmdCursor) : (s.setCursor n c).prog = s.prog := (rfl)
@[simp] theorem State.setCursor_localMem (s : State) (n : Nat) (c : CmdCursor) : (s.setCursor n c).localMem = s.localMem := (rfl)
@[simp] theorem State.setCursor_localBad (s : State) (n : Nat) (c : CmdCursor) : (s.setCursor n c).localBad = s.localBad := (rfl)
@[simp] theorem State.setCursor_localSoft (s : State) (n : Nat) (c : CmdCursor) : (s.setCursor n c).localSoft = s.localSoft := (rfl)
@[simp] theorem State.setCursor_sram (s : State) (n : Nat) (c : CmdCursor) : (s.setCursor n c).sram = s.sram := (rfl)
@[simp] theorem State.setCursor_sramBad (s : State) (n : Nat) (c : CmdCursor) : (s.setCursor n c).sramBad = s.sramBad := (rfl)
@[simp] theorem State.setCursor_slice (s : State) (n : Nat) (c : CmdCursor) : (s.setCursor n c).slice = s.slice := (rfl)
@[simp] theorem State.setCursor_line (s : State) (n : Nat) (c : CmdCursor) : (s.setCursor n c).line = s.line := (rfl)
@[simp] theorem State.setCursor_serve (s : State) (n : Nat) (c : CmdCursor) : (s.setCursor n c).serve = s.serve := (rfl)
@[simp] theorem State.setCursor_bank (s : State) (n : Nat) (c : CmdCursor) : (s.setCursor n c).bank = s.bank := (rfl)
@[simp] theorem State.setCursor_conv (s : State) (n : Nat) (c : CmdCursor) : (s.setCursor n c).conv = s.conv := (rfl)
@[simp] theorem State.setCursor_mode (s : State) (n : Nat) (c : CmdCursor) : (s.setCursor n c).mode = s.mode := (rfl)
@[simp] theorem State.setCursor_coord (s : State) (n : Nat) (c : CmdCursor) : (s.setCursor n c).coord = s.coord := (rfl)
@[simp] theorem State.setCursor_phase (s : State) (n : Nat) (c : CmdCursor) : (s.setCursor n c).phase = s.phase := (rfl)
@[simp] theorem State.setCursor_dl (s : State) (n : Nat) (c : CmdCursor) : (s.setCursor n c).dl = s.dl := (rfl)
@[simp] theorem State.setCursor_grp (s : State) (n : Nat) (c : CmdCursor) : (s.setCursor n c).grp = s.grp := (rfl)
@[simp] theorem State.setCursor_cmp (s : State) (n : Nat) (c : CmdCursor) : (s.setCursor n c).cmp = s.cmp := (rfl)
@[simp] theorem State.setCursor_step (s : State) (n : Nat) (c : CmdCursor) : (s.setCursor n c).step = s.step := (rfl)
@[simp] theorem State.setCursor_dram (s : State) (n : Nat) (c : CmdCursor) : (s.setCursor n c).dram = s.dram := (rfl)
@[simp] theorem State.setCursor_dramBad (s : State) (n : Nat) (c : CmdCursor) : (s.setCursor n c).dramBad = s.dramBad := (rfl)
@[simp] theorem State.setCursor_fbk (s : State) (n : Nat) (c : CmdCursor) : (s.setCursor n c).fbk = s.fbk := (rfl)
@[simp] theorem State.setCursor_emu (s : State) (n : Nat) (c : CmdCursor) : (s.setCursor n c).emu = s.emu := (rfl)
@[simp] theorem State.setCursor_balls (s : State) (n : Nat) (c : CmdCursor) : (s.setCursor n c).balls = s.balls := (rfl)
@[simp] theorem State.setCursor_tclkGone (s : State) (n : Nat) (c : CmdCursor) : (s.setCursor n c).tclkGone = s.tclkGone := (rfl)
@[simp] theorem State.setCursor_motionHalted (s : State) (n : Nat) (c : CmdCursor) : (s.setCursor n c).motionHalted = s.motionHalted := (rfl)
@[simp] theorem State.setCursor_cmBad (s : State) (n : Nat) (c : CmdCursor) : (s.setCursor n c).cmBad = s.cmBad := (rfl)
@[simp] theorem State.setCursor_cmOut (s : State) (n : Nat) (c : CmdCursor) : (s.setCursor n c).cmOut = s.cmOut := (rfl)
@[simp] theorem State.setCursor_cmLast (s : State) (n : Nat) (c : CmdCursor) : (s.setCursor n c).cmLast = s.cmLast := (rfl)
@[simp] theorem State.setCursor_sramTold (s : State) (n : Nat) (c : CmdCursor) : (s.setCursor n c).sramTold = s.sramTold := (rfl)
@[simp] theorem State.setCursor_saf (s : State) (n : Nat) (c : CmdCursor) : (s.setCursor n c).saf = s.saf := (rfl)
@[simp] theorem State.setCursor_sec (s : State) (n : Nat) (c : CmdCursor) : (s.setCursor n c).sec = s.sec := (rfl)
@[simp] theorem State.setCursor_pwr (s : State) (n : Nat) (c : CmdCursor) : (s.setCursor n c).pwr = s.pwr := (rfl)
@[simp] theorem State.setCursor_twin (s : State) (n : Nat) (c : CmdCursor) : (s.setCursor n c).twin = s.twin := (rfl)
@[simp] theorem State.setCursor_fab (s : State) (n : Nat) (c : CmdCursor) : (s.setCursor n c).fab = s.fab := (rfl)
@[simp] theorem State.setCursor_lnk (s : State) (n : Nat) (c : CmdCursor) : (s.setCursor n c).lnk = s.lnk := (rfl)

/-! ## setCplSide -/

@[simp] theorem State.setCplSide_pending (s : State) (m : Nat) (r : RingSide) : (s.setCplSide m r).pending = s.pending := (rfl)
@[simp] theorem State.setCplSide_free (s : State) (m : Nat) (r : RingSide) : (s.setCplSide m r).free = s.free := (rfl)
@[simp] theorem State.setCplSide_hostRead (s : State) (m : Nat) (r : RingSide) : (s.setCplSide m r).hostRead = s.hostRead := (rfl)
@[simp] theorem State.setCplSide_irqs (s : State) (m : Nat) (r : RingSide) : (s.setCplSide m r).irqs = s.irqs := (rfl)
@[simp] theorem State.setCplSide_pcie (s : State) (m : Nat) (r : RingSide) : (s.setCplSide m r).pcie = s.pcie := (rfl)
@[simp] theorem State.setCplSide_regs (s : State) (m : Nat) (r : RingSide) : (s.setCplSide m r).regs = s.regs := (rfl)
@[simp] theorem State.setCplSide_timed (s : State) (m : Nat) (r : RingSide) : (s.setCplSide m r).timed = s.timed := (rfl)
@[simp] theorem State.setCplSide_raised (s : State) (m : Nat) (r : RingSide) : (s.setCplSide m r).raised = s.raised := (rfl)
@[simp] theorem State.setCplSide_ic (s : State) (m : Nat) (r : RingSide) : (s.setCplSide m r).ic = s.ic := (rfl)
@[simp] theorem State.setCplSide_holdRead (s : State) (m : Nat) (r : RingSide) : (s.setCplSide m r).holdRead = s.holdRead := (rfl)
@[simp] theorem State.setCplSide_holdWrite (s : State) (m : Nat) (r : RingSide) : (s.setCplSide m r).holdWrite = s.holdWrite := (rfl)
@[simp] theorem State.setCplSide_clk (s : State) (m : Nat) (r : RingSide) : (s.setCplSide m r).clk = s.clk := (rfl)
@[simp] theorem State.setCplSide_tly (s : State) (m : Nat) (r : RingSide) : (s.setCplSide m r).tly = s.tly := (rfl)
@[simp] theorem State.setCplSide_hostMem (s : State) (m : Nat) (r : RingSide) : (s.setCplSide m r).hostMem = s.hostMem := (rfl)
@[simp] theorem State.setCplSide_hostBad (s : State) (m : Nat) (r : RingSide) : (s.setCplSide m r).hostBad = s.hostBad := (rfl)
@[simp] theorem State.setCplSide_faults (s : State) (m : Nat) (r : RingSide) : (s.setCplSide m r).faults = s.faults := (rfl)
@[simp] theorem State.setCplSide_stall (s : State) (m : Nat) (r : RingSide) : (s.setCplSide m r).stall = s.stall := (rfl)
@[simp] theorem State.setCplSide_hwk (s : State) (m : Nat) (r : RingSide) : (s.setCplSide m r).hwk = s.hwk := (rfl)
@[simp] theorem State.setCplSide_core (s : State) (m : Nat) (r : RingSide) : (s.setCplSide m r).core = s.core := (rfl)
@[simp] theorem State.setCplSide_prog (s : State) (m : Nat) (r : RingSide) : (s.setCplSide m r).prog = s.prog := (rfl)
@[simp] theorem State.setCplSide_localMem (s : State) (m : Nat) (r : RingSide) : (s.setCplSide m r).localMem = s.localMem := (rfl)
@[simp] theorem State.setCplSide_localBad (s : State) (m : Nat) (r : RingSide) : (s.setCplSide m r).localBad = s.localBad := (rfl)
@[simp] theorem State.setCplSide_localSoft (s : State) (m : Nat) (r : RingSide) : (s.setCplSide m r).localSoft = s.localSoft := (rfl)
@[simp] theorem State.setCplSide_sram (s : State) (m : Nat) (r : RingSide) : (s.setCplSide m r).sram = s.sram := (rfl)
@[simp] theorem State.setCplSide_sramBad (s : State) (m : Nat) (r : RingSide) : (s.setCplSide m r).sramBad = s.sramBad := (rfl)
@[simp] theorem State.setCplSide_slice (s : State) (m : Nat) (r : RingSide) : (s.setCplSide m r).slice = s.slice := (rfl)
@[simp] theorem State.setCplSide_line (s : State) (m : Nat) (r : RingSide) : (s.setCplSide m r).line = s.line := (rfl)
@[simp] theorem State.setCplSide_serve (s : State) (m : Nat) (r : RingSide) : (s.setCplSide m r).serve = s.serve := (rfl)
@[simp] theorem State.setCplSide_bank (s : State) (m : Nat) (r : RingSide) : (s.setCplSide m r).bank = s.bank := (rfl)
@[simp] theorem State.setCplSide_conv (s : State) (m : Nat) (r : RingSide) : (s.setCplSide m r).conv = s.conv := (rfl)
@[simp] theorem State.setCplSide_mode (s : State) (m : Nat) (r : RingSide) : (s.setCplSide m r).mode = s.mode := (rfl)
@[simp] theorem State.setCplSide_coord (s : State) (m : Nat) (r : RingSide) : (s.setCplSide m r).coord = s.coord := (rfl)
@[simp] theorem State.setCplSide_phase (s : State) (m : Nat) (r : RingSide) : (s.setCplSide m r).phase = s.phase := (rfl)
@[simp] theorem State.setCplSide_dl (s : State) (m : Nat) (r : RingSide) : (s.setCplSide m r).dl = s.dl := (rfl)
@[simp] theorem State.setCplSide_grp (s : State) (m : Nat) (r : RingSide) : (s.setCplSide m r).grp = s.grp := (rfl)
@[simp] theorem State.setCplSide_cmp (s : State) (m : Nat) (r : RingSide) : (s.setCplSide m r).cmp = s.cmp := (rfl)
@[simp] theorem State.setCplSide_step (s : State) (m : Nat) (r : RingSide) : (s.setCplSide m r).step = s.step := (rfl)
@[simp] theorem State.setCplSide_dram (s : State) (m : Nat) (r : RingSide) : (s.setCplSide m r).dram = s.dram := (rfl)
@[simp] theorem State.setCplSide_dramBad (s : State) (m : Nat) (r : RingSide) : (s.setCplSide m r).dramBad = s.dramBad := (rfl)
@[simp] theorem State.setCplSide_fbk (s : State) (m : Nat) (r : RingSide) : (s.setCplSide m r).fbk = s.fbk := (rfl)
@[simp] theorem State.setCplSide_emu (s : State) (m : Nat) (r : RingSide) : (s.setCplSide m r).emu = s.emu := (rfl)
@[simp] theorem State.setCplSide_balls (s : State) (m : Nat) (r : RingSide) : (s.setCplSide m r).balls = s.balls := (rfl)
@[simp] theorem State.setCplSide_tclkGone (s : State) (m : Nat) (r : RingSide) : (s.setCplSide m r).tclkGone = s.tclkGone := (rfl)
@[simp] theorem State.setCplSide_motionHalted (s : State) (m : Nat) (r : RingSide) : (s.setCplSide m r).motionHalted = s.motionHalted := (rfl)
@[simp] theorem State.setCplSide_cmBad (s : State) (m : Nat) (r : RingSide) : (s.setCplSide m r).cmBad = s.cmBad := (rfl)
@[simp] theorem State.setCplSide_cmOut (s : State) (m : Nat) (r : RingSide) : (s.setCplSide m r).cmOut = s.cmOut := (rfl)
@[simp] theorem State.setCplSide_cmLast (s : State) (m : Nat) (r : RingSide) : (s.setCplSide m r).cmLast = s.cmLast := (rfl)
@[simp] theorem State.setCplSide_sramTold (s : State) (m : Nat) (r : RingSide) : (s.setCplSide m r).sramTold = s.sramTold := (rfl)
@[simp] theorem State.setCplSide_saf (s : State) (m : Nat) (r : RingSide) : (s.setCplSide m r).saf = s.saf := (rfl)
@[simp] theorem State.setCplSide_sec (s : State) (m : Nat) (r : RingSide) : (s.setCplSide m r).sec = s.sec := (rfl)
@[simp] theorem State.setCplSide_pwr (s : State) (m : Nat) (r : RingSide) : (s.setCplSide m r).pwr = s.pwr := (rfl)
@[simp] theorem State.setCplSide_twin (s : State) (m : Nat) (r : RingSide) : (s.setCplSide m r).twin = s.twin := (rfl)
@[simp] theorem State.setCplSide_fab (s : State) (m : Nat) (r : RingSide) : (s.setCplSide m r).fab = s.fab := (rfl)
@[simp] theorem State.setCplSide_lnk (s : State) (m : Nat) (r : RingSide) : (s.setCplSide m r).lnk = s.lnk := (rfl)

/-! ## setTalSide -/

@[simp] theorem State.setTalSide_pending (s : State) (k : Nat) (r : RingSide) : (s.setTalSide k r).pending = s.pending := (rfl)
@[simp] theorem State.setTalSide_free (s : State) (k : Nat) (r : RingSide) : (s.setTalSide k r).free = s.free := (rfl)
@[simp] theorem State.setTalSide_hostRead (s : State) (k : Nat) (r : RingSide) : (s.setTalSide k r).hostRead = s.hostRead := (rfl)
@[simp] theorem State.setTalSide_irqs (s : State) (k : Nat) (r : RingSide) : (s.setTalSide k r).irqs = s.irqs := (rfl)
@[simp] theorem State.setTalSide_pcie (s : State) (k : Nat) (r : RingSide) : (s.setTalSide k r).pcie = s.pcie := (rfl)
@[simp] theorem State.setTalSide_regs (s : State) (k : Nat) (r : RingSide) : (s.setTalSide k r).regs = s.regs := (rfl)
@[simp] theorem State.setTalSide_timed (s : State) (k : Nat) (r : RingSide) : (s.setTalSide k r).timed = s.timed := (rfl)
@[simp] theorem State.setTalSide_raised (s : State) (k : Nat) (r : RingSide) : (s.setTalSide k r).raised = s.raised := (rfl)
@[simp] theorem State.setTalSide_ic (s : State) (k : Nat) (r : RingSide) : (s.setTalSide k r).ic = s.ic := (rfl)
@[simp] theorem State.setTalSide_holdRead (s : State) (k : Nat) (r : RingSide) : (s.setTalSide k r).holdRead = s.holdRead := (rfl)
@[simp] theorem State.setTalSide_holdWrite (s : State) (k : Nat) (r : RingSide) : (s.setTalSide k r).holdWrite = s.holdWrite := (rfl)
@[simp] theorem State.setTalSide_clk (s : State) (k : Nat) (r : RingSide) : (s.setTalSide k r).clk = s.clk := (rfl)
@[simp] theorem State.setTalSide_tly (s : State) (k : Nat) (r : RingSide) : (s.setTalSide k r).tly = s.tly := (rfl)
@[simp] theorem State.setTalSide_hostMem (s : State) (k : Nat) (r : RingSide) : (s.setTalSide k r).hostMem = s.hostMem := (rfl)
@[simp] theorem State.setTalSide_hostBad (s : State) (k : Nat) (r : RingSide) : (s.setTalSide k r).hostBad = s.hostBad := (rfl)
@[simp] theorem State.setTalSide_faults (s : State) (k : Nat) (r : RingSide) : (s.setTalSide k r).faults = s.faults := (rfl)
@[simp] theorem State.setTalSide_stall (s : State) (k : Nat) (r : RingSide) : (s.setTalSide k r).stall = s.stall := (rfl)
@[simp] theorem State.setTalSide_hwk (s : State) (k : Nat) (r : RingSide) : (s.setTalSide k r).hwk = s.hwk := (rfl)
@[simp] theorem State.setTalSide_core (s : State) (k : Nat) (r : RingSide) : (s.setTalSide k r).core = s.core := (rfl)
@[simp] theorem State.setTalSide_prog (s : State) (k : Nat) (r : RingSide) : (s.setTalSide k r).prog = s.prog := (rfl)
@[simp] theorem State.setTalSide_localMem (s : State) (k : Nat) (r : RingSide) : (s.setTalSide k r).localMem = s.localMem := (rfl)
@[simp] theorem State.setTalSide_localBad (s : State) (k : Nat) (r : RingSide) : (s.setTalSide k r).localBad = s.localBad := (rfl)
@[simp] theorem State.setTalSide_localSoft (s : State) (k : Nat) (r : RingSide) : (s.setTalSide k r).localSoft = s.localSoft := (rfl)
@[simp] theorem State.setTalSide_sram (s : State) (k : Nat) (r : RingSide) : (s.setTalSide k r).sram = s.sram := (rfl)
@[simp] theorem State.setTalSide_sramBad (s : State) (k : Nat) (r : RingSide) : (s.setTalSide k r).sramBad = s.sramBad := (rfl)
@[simp] theorem State.setTalSide_slice (s : State) (k : Nat) (r : RingSide) : (s.setTalSide k r).slice = s.slice := (rfl)
@[simp] theorem State.setTalSide_line (s : State) (k : Nat) (r : RingSide) : (s.setTalSide k r).line = s.line := (rfl)
@[simp] theorem State.setTalSide_serve (s : State) (k : Nat) (r : RingSide) : (s.setTalSide k r).serve = s.serve := (rfl)
@[simp] theorem State.setTalSide_bank (s : State) (k : Nat) (r : RingSide) : (s.setTalSide k r).bank = s.bank := (rfl)
@[simp] theorem State.setTalSide_conv (s : State) (k : Nat) (r : RingSide) : (s.setTalSide k r).conv = s.conv := (rfl)
@[simp] theorem State.setTalSide_mode (s : State) (k : Nat) (r : RingSide) : (s.setTalSide k r).mode = s.mode := (rfl)
@[simp] theorem State.setTalSide_coord (s : State) (k : Nat) (r : RingSide) : (s.setTalSide k r).coord = s.coord := (rfl)
@[simp] theorem State.setTalSide_phase (s : State) (k : Nat) (r : RingSide) : (s.setTalSide k r).phase = s.phase := (rfl)
@[simp] theorem State.setTalSide_dl (s : State) (k : Nat) (r : RingSide) : (s.setTalSide k r).dl = s.dl := (rfl)
@[simp] theorem State.setTalSide_grp (s : State) (k : Nat) (r : RingSide) : (s.setTalSide k r).grp = s.grp := (rfl)
@[simp] theorem State.setTalSide_cmp (s : State) (k : Nat) (r : RingSide) : (s.setTalSide k r).cmp = s.cmp := (rfl)
@[simp] theorem State.setTalSide_step (s : State) (k : Nat) (r : RingSide) : (s.setTalSide k r).step = s.step := (rfl)
@[simp] theorem State.setTalSide_dram (s : State) (k : Nat) (r : RingSide) : (s.setTalSide k r).dram = s.dram := (rfl)
@[simp] theorem State.setTalSide_dramBad (s : State) (k : Nat) (r : RingSide) : (s.setTalSide k r).dramBad = s.dramBad := (rfl)
@[simp] theorem State.setTalSide_fbk (s : State) (k : Nat) (r : RingSide) : (s.setTalSide k r).fbk = s.fbk := (rfl)
@[simp] theorem State.setTalSide_emu (s : State) (k : Nat) (r : RingSide) : (s.setTalSide k r).emu = s.emu := (rfl)
@[simp] theorem State.setTalSide_balls (s : State) (k : Nat) (r : RingSide) : (s.setTalSide k r).balls = s.balls := (rfl)
@[simp] theorem State.setTalSide_tclkGone (s : State) (k : Nat) (r : RingSide) : (s.setTalSide k r).tclkGone = s.tclkGone := (rfl)
@[simp] theorem State.setTalSide_motionHalted (s : State) (k : Nat) (r : RingSide) : (s.setTalSide k r).motionHalted = s.motionHalted := (rfl)
@[simp] theorem State.setTalSide_cmBad (s : State) (k : Nat) (r : RingSide) : (s.setTalSide k r).cmBad = s.cmBad := (rfl)
@[simp] theorem State.setTalSide_cmOut (s : State) (k : Nat) (r : RingSide) : (s.setTalSide k r).cmOut = s.cmOut := (rfl)
@[simp] theorem State.setTalSide_cmLast (s : State) (k : Nat) (r : RingSide) : (s.setTalSide k r).cmLast = s.cmLast := (rfl)
@[simp] theorem State.setTalSide_sramTold (s : State) (k : Nat) (r : RingSide) : (s.setTalSide k r).sramTold = s.sramTold := (rfl)
@[simp] theorem State.setTalSide_saf (s : State) (k : Nat) (r : RingSide) : (s.setTalSide k r).saf = s.saf := (rfl)
@[simp] theorem State.setTalSide_sec (s : State) (k : Nat) (r : RingSide) : (s.setTalSide k r).sec = s.sec := (rfl)
@[simp] theorem State.setTalSide_pwr (s : State) (k : Nat) (r : RingSide) : (s.setTalSide k r).pwr = s.pwr := (rfl)
@[simp] theorem State.setTalSide_twin (s : State) (k : Nat) (r : RingSide) : (s.setTalSide k r).twin = s.twin := (rfl)
@[simp] theorem State.setTalSide_fab (s : State) (k : Nat) (r : RingSide) : (s.setTalSide k r).fab = s.fab := (rfl)
@[simp] theorem State.setTalSide_lnk (s : State) (k : Nat) (r : RingSide) : (s.setTalSide k r).lnk = s.lnk := (rfl)

/-! ## setSlice -/

@[simp] theorem State.setSlice_pending (s : State) (n : Nat) (x : Slice) : (s.setSlice n x).pending = s.pending := (rfl)
@[simp] theorem State.setSlice_free (s : State) (n : Nat) (x : Slice) : (s.setSlice n x).free = s.free := (rfl)
@[simp] theorem State.setSlice_hostRead (s : State) (n : Nat) (x : Slice) : (s.setSlice n x).hostRead = s.hostRead := (rfl)
@[simp] theorem State.setSlice_irqs (s : State) (n : Nat) (x : Slice) : (s.setSlice n x).irqs = s.irqs := (rfl)
@[simp] theorem State.setSlice_pcie (s : State) (n : Nat) (x : Slice) : (s.setSlice n x).pcie = s.pcie := (rfl)
@[simp] theorem State.setSlice_regs (s : State) (n : Nat) (x : Slice) : (s.setSlice n x).regs = s.regs := (rfl)
@[simp] theorem State.setSlice_timed (s : State) (n : Nat) (x : Slice) : (s.setSlice n x).timed = s.timed := (rfl)
@[simp] theorem State.setSlice_raised (s : State) (n : Nat) (x : Slice) : (s.setSlice n x).raised = s.raised := (rfl)
@[simp] theorem State.setSlice_ic (s : State) (n : Nat) (x : Slice) : (s.setSlice n x).ic = s.ic := (rfl)
@[simp] theorem State.setSlice_holdRead (s : State) (n : Nat) (x : Slice) : (s.setSlice n x).holdRead = s.holdRead := (rfl)
@[simp] theorem State.setSlice_holdWrite (s : State) (n : Nat) (x : Slice) : (s.setSlice n x).holdWrite = s.holdWrite := (rfl)
@[simp] theorem State.setSlice_clk (s : State) (n : Nat) (x : Slice) : (s.setSlice n x).clk = s.clk := (rfl)
@[simp] theorem State.setSlice_tly (s : State) (n : Nat) (x : Slice) : (s.setSlice n x).tly = s.tly := (rfl)
@[simp] theorem State.setSlice_ldg (s : State) (n : Nat) (x : Slice) : (s.setSlice n x).ldg = s.ldg := (rfl)
@[simp] theorem State.setSlice_hostMem (s : State) (n : Nat) (x : Slice) : (s.setSlice n x).hostMem = s.hostMem := (rfl)
@[simp] theorem State.setSlice_hostBad (s : State) (n : Nat) (x : Slice) : (s.setSlice n x).hostBad = s.hostBad := (rfl)
@[simp] theorem State.setSlice_faults (s : State) (n : Nat) (x : Slice) : (s.setSlice n x).faults = s.faults := (rfl)
@[simp] theorem State.setSlice_stall (s : State) (n : Nat) (x : Slice) : (s.setSlice n x).stall = s.stall := (rfl)
@[simp] theorem State.setSlice_hwk (s : State) (n : Nat) (x : Slice) : (s.setSlice n x).hwk = s.hwk := (rfl)
@[simp] theorem State.setSlice_core (s : State) (n : Nat) (x : Slice) : (s.setSlice n x).core = s.core := (rfl)
@[simp] theorem State.setSlice_prog (s : State) (n : Nat) (x : Slice) : (s.setSlice n x).prog = s.prog := (rfl)
@[simp] theorem State.setSlice_localMem (s : State) (n : Nat) (x : Slice) : (s.setSlice n x).localMem = s.localMem := (rfl)
@[simp] theorem State.setSlice_localBad (s : State) (n : Nat) (x : Slice) : (s.setSlice n x).localBad = s.localBad := (rfl)
@[simp] theorem State.setSlice_localSoft (s : State) (n : Nat) (x : Slice) : (s.setSlice n x).localSoft = s.localSoft := (rfl)
@[simp] theorem State.setSlice_sram (s : State) (n : Nat) (x : Slice) : (s.setSlice n x).sram = s.sram := (rfl)
@[simp] theorem State.setSlice_sramBad (s : State) (n : Nat) (x : Slice) : (s.setSlice n x).sramBad = s.sramBad := (rfl)
@[simp] theorem State.setSlice_line (s : State) (n : Nat) (x : Slice) : (s.setSlice n x).line = s.line := (rfl)
@[simp] theorem State.setSlice_serve (s : State) (n : Nat) (x : Slice) : (s.setSlice n x).serve = s.serve := (rfl)
@[simp] theorem State.setSlice_bank (s : State) (n : Nat) (x : Slice) : (s.setSlice n x).bank = s.bank := (rfl)
@[simp] theorem State.setSlice_conv (s : State) (n : Nat) (x : Slice) : (s.setSlice n x).conv = s.conv := (rfl)
@[simp] theorem State.setSlice_mode (s : State) (n : Nat) (x : Slice) : (s.setSlice n x).mode = s.mode := (rfl)
@[simp] theorem State.setSlice_coord (s : State) (n : Nat) (x : Slice) : (s.setSlice n x).coord = s.coord := (rfl)
@[simp] theorem State.setSlice_phase (s : State) (n : Nat) (x : Slice) : (s.setSlice n x).phase = s.phase := (rfl)
@[simp] theorem State.setSlice_dl (s : State) (n : Nat) (x : Slice) : (s.setSlice n x).dl = s.dl := (rfl)
@[simp] theorem State.setSlice_grp (s : State) (n : Nat) (x : Slice) : (s.setSlice n x).grp = s.grp := (rfl)
@[simp] theorem State.setSlice_cmp (s : State) (n : Nat) (x : Slice) : (s.setSlice n x).cmp = s.cmp := (rfl)
@[simp] theorem State.setSlice_step (s : State) (n : Nat) (x : Slice) : (s.setSlice n x).step = s.step := (rfl)
@[simp] theorem State.setSlice_dram (s : State) (n : Nat) (x : Slice) : (s.setSlice n x).dram = s.dram := (rfl)
@[simp] theorem State.setSlice_dramBad (s : State) (n : Nat) (x : Slice) : (s.setSlice n x).dramBad = s.dramBad := (rfl)
@[simp] theorem State.setSlice_fbk (s : State) (n : Nat) (x : Slice) : (s.setSlice n x).fbk = s.fbk := (rfl)
@[simp] theorem State.setSlice_emu (s : State) (n : Nat) (x : Slice) : (s.setSlice n x).emu = s.emu := (rfl)
@[simp] theorem State.setSlice_balls (s : State) (n : Nat) (x : Slice) : (s.setSlice n x).balls = s.balls := (rfl)
@[simp] theorem State.setSlice_tclkGone (s : State) (n : Nat) (x : Slice) : (s.setSlice n x).tclkGone = s.tclkGone := (rfl)
@[simp] theorem State.setSlice_motionHalted (s : State) (n : Nat) (x : Slice) : (s.setSlice n x).motionHalted = s.motionHalted := (rfl)
@[simp] theorem State.setSlice_cmBad (s : State) (n : Nat) (x : Slice) : (s.setSlice n x).cmBad = s.cmBad := (rfl)
@[simp] theorem State.setSlice_cmOut (s : State) (n : Nat) (x : Slice) : (s.setSlice n x).cmOut = s.cmOut := (rfl)
@[simp] theorem State.setSlice_cmLast (s : State) (n : Nat) (x : Slice) : (s.setSlice n x).cmLast = s.cmLast := (rfl)
@[simp] theorem State.setSlice_sramTold (s : State) (n : Nat) (x : Slice) : (s.setSlice n x).sramTold = s.sramTold := (rfl)
@[simp] theorem State.setSlice_saf (s : State) (n : Nat) (x : Slice) : (s.setSlice n x).saf = s.saf := (rfl)
@[simp] theorem State.setSlice_sec (s : State) (n : Nat) (x : Slice) : (s.setSlice n x).sec = s.sec := (rfl)
@[simp] theorem State.setSlice_pwr (s : State) (n : Nat) (x : Slice) : (s.setSlice n x).pwr = s.pwr := (rfl)
@[simp] theorem State.setSlice_twin (s : State) (n : Nat) (x : Slice) : (s.setSlice n x).twin = s.twin := (rfl)
@[simp] theorem State.setSlice_fab (s : State) (n : Nat) (x : Slice) : (s.setSlice n x).fab = s.fab := (rfl)
@[simp] theorem State.setSlice_lnk (s : State) (n : Nat) (x : Slice) : (s.setSlice n x).lnk = s.lnk := (rfl)

/-! ## setBank -/

@[simp] theorem State.setBank_pending (s : State) (b : Nat) (x : Bank) : (s.setBank b x).pending = s.pending := (rfl)
@[simp] theorem State.setBank_free (s : State) (b : Nat) (x : Bank) : (s.setBank b x).free = s.free := (rfl)
@[simp] theorem State.setBank_hostRead (s : State) (b : Nat) (x : Bank) : (s.setBank b x).hostRead = s.hostRead := (rfl)
@[simp] theorem State.setBank_irqs (s : State) (b : Nat) (x : Bank) : (s.setBank b x).irqs = s.irqs := (rfl)
@[simp] theorem State.setBank_pcie (s : State) (b : Nat) (x : Bank) : (s.setBank b x).pcie = s.pcie := (rfl)
@[simp] theorem State.setBank_regs (s : State) (b : Nat) (x : Bank) : (s.setBank b x).regs = s.regs := (rfl)
@[simp] theorem State.setBank_timed (s : State) (b : Nat) (x : Bank) : (s.setBank b x).timed = s.timed := (rfl)
@[simp] theorem State.setBank_raised (s : State) (b : Nat) (x : Bank) : (s.setBank b x).raised = s.raised := (rfl)
@[simp] theorem State.setBank_ic (s : State) (b : Nat) (x : Bank) : (s.setBank b x).ic = s.ic := (rfl)
@[simp] theorem State.setBank_holdRead (s : State) (b : Nat) (x : Bank) : (s.setBank b x).holdRead = s.holdRead := (rfl)
@[simp] theorem State.setBank_holdWrite (s : State) (b : Nat) (x : Bank) : (s.setBank b x).holdWrite = s.holdWrite := (rfl)
@[simp] theorem State.setBank_clk (s : State) (b : Nat) (x : Bank) : (s.setBank b x).clk = s.clk := (rfl)
@[simp] theorem State.setBank_tly (s : State) (b : Nat) (x : Bank) : (s.setBank b x).tly = s.tly := (rfl)
@[simp] theorem State.setBank_ldg (s : State) (b : Nat) (x : Bank) : (s.setBank b x).ldg = s.ldg := (rfl)
@[simp] theorem State.setBank_hostMem (s : State) (b : Nat) (x : Bank) : (s.setBank b x).hostMem = s.hostMem := (rfl)
@[simp] theorem State.setBank_hostBad (s : State) (b : Nat) (x : Bank) : (s.setBank b x).hostBad = s.hostBad := (rfl)
@[simp] theorem State.setBank_faults (s : State) (b : Nat) (x : Bank) : (s.setBank b x).faults = s.faults := (rfl)
@[simp] theorem State.setBank_stall (s : State) (b : Nat) (x : Bank) : (s.setBank b x).stall = s.stall := (rfl)
@[simp] theorem State.setBank_hwk (s : State) (b : Nat) (x : Bank) : (s.setBank b x).hwk = s.hwk := (rfl)
@[simp] theorem State.setBank_core (s : State) (b : Nat) (x : Bank) : (s.setBank b x).core = s.core := (rfl)
@[simp] theorem State.setBank_prog (s : State) (b : Nat) (x : Bank) : (s.setBank b x).prog = s.prog := (rfl)
@[simp] theorem State.setBank_localMem (s : State) (b : Nat) (x : Bank) : (s.setBank b x).localMem = s.localMem := (rfl)
@[simp] theorem State.setBank_localBad (s : State) (b : Nat) (x : Bank) : (s.setBank b x).localBad = s.localBad := (rfl)
@[simp] theorem State.setBank_localSoft (s : State) (b : Nat) (x : Bank) : (s.setBank b x).localSoft = s.localSoft := (rfl)
@[simp] theorem State.setBank_sram (s : State) (b : Nat) (x : Bank) : (s.setBank b x).sram = s.sram := (rfl)
@[simp] theorem State.setBank_sramBad (s : State) (b : Nat) (x : Bank) : (s.setBank b x).sramBad = s.sramBad := (rfl)
@[simp] theorem State.setBank_slice (s : State) (b : Nat) (x : Bank) : (s.setBank b x).slice = s.slice := (rfl)
@[simp] theorem State.setBank_line (s : State) (b : Nat) (x : Bank) : (s.setBank b x).line = s.line := (rfl)
@[simp] theorem State.setBank_serve (s : State) (b : Nat) (x : Bank) : (s.setBank b x).serve = s.serve := (rfl)
@[simp] theorem State.setBank_conv (s : State) (b : Nat) (x : Bank) : (s.setBank b x).conv = s.conv := (rfl)
@[simp] theorem State.setBank_mode (s : State) (b : Nat) (x : Bank) : (s.setBank b x).mode = s.mode := (rfl)
@[simp] theorem State.setBank_coord (s : State) (b : Nat) (x : Bank) : (s.setBank b x).coord = s.coord := (rfl)
@[simp] theorem State.setBank_phase (s : State) (b : Nat) (x : Bank) : (s.setBank b x).phase = s.phase := (rfl)
@[simp] theorem State.setBank_dl (s : State) (b : Nat) (x : Bank) : (s.setBank b x).dl = s.dl := (rfl)
@[simp] theorem State.setBank_grp (s : State) (b : Nat) (x : Bank) : (s.setBank b x).grp = s.grp := (rfl)
@[simp] theorem State.setBank_cmp (s : State) (b : Nat) (x : Bank) : (s.setBank b x).cmp = s.cmp := (rfl)
@[simp] theorem State.setBank_step (s : State) (b : Nat) (x : Bank) : (s.setBank b x).step = s.step := (rfl)
@[simp] theorem State.setBank_dram (s : State) (b : Nat) (x : Bank) : (s.setBank b x).dram = s.dram := (rfl)
@[simp] theorem State.setBank_dramBad (s : State) (b : Nat) (x : Bank) : (s.setBank b x).dramBad = s.dramBad := (rfl)
@[simp] theorem State.setBank_fbk (s : State) (b : Nat) (x : Bank) : (s.setBank b x).fbk = s.fbk := (rfl)
@[simp] theorem State.setBank_emu (s : State) (b : Nat) (x : Bank) : (s.setBank b x).emu = s.emu := (rfl)
@[simp] theorem State.setBank_balls (s : State) (b : Nat) (x : Bank) : (s.setBank b x).balls = s.balls := (rfl)
@[simp] theorem State.setBank_tclkGone (s : State) (b : Nat) (x : Bank) : (s.setBank b x).tclkGone = s.tclkGone := (rfl)
@[simp] theorem State.setBank_motionHalted (s : State) (b : Nat) (x : Bank) : (s.setBank b x).motionHalted = s.motionHalted := (rfl)
@[simp] theorem State.setBank_cmBad (s : State) (b : Nat) (x : Bank) : (s.setBank b x).cmBad = s.cmBad := (rfl)
@[simp] theorem State.setBank_cmOut (s : State) (b : Nat) (x : Bank) : (s.setBank b x).cmOut = s.cmOut := (rfl)
@[simp] theorem State.setBank_cmLast (s : State) (b : Nat) (x : Bank) : (s.setBank b x).cmLast = s.cmLast := (rfl)
@[simp] theorem State.setBank_sramTold (s : State) (b : Nat) (x : Bank) : (s.setBank b x).sramTold = s.sramTold := (rfl)
@[simp] theorem State.setBank_saf (s : State) (b : Nat) (x : Bank) : (s.setBank b x).saf = s.saf := (rfl)
@[simp] theorem State.setBank_sec (s : State) (b : Nat) (x : Bank) : (s.setBank b x).sec = s.sec := (rfl)
@[simp] theorem State.setBank_pwr (s : State) (b : Nat) (x : Bank) : (s.setBank b x).pwr = s.pwr := (rfl)
@[simp] theorem State.setBank_twin (s : State) (b : Nat) (x : Bank) : (s.setBank b x).twin = s.twin := (rfl)
@[simp] theorem State.setBank_fab (s : State) (b : Nat) (x : Bank) : (s.setBank b x).fab = s.fab := (rfl)
@[simp] theorem State.setBank_lnk (s : State) (b : Nat) (x : Bank) : (s.setBank b x).lnk = s.lnk := (rfl)

/-! ## setFbk -/

@[simp] theorem State.setFbk_pending (s : State) (n : Nat) (x : Fbk) : (s.setFbk n x).pending = s.pending := (rfl)
@[simp] theorem State.setFbk_free (s : State) (n : Nat) (x : Fbk) : (s.setFbk n x).free = s.free := (rfl)
@[simp] theorem State.setFbk_hostRead (s : State) (n : Nat) (x : Fbk) : (s.setFbk n x).hostRead = s.hostRead := (rfl)
@[simp] theorem State.setFbk_irqs (s : State) (n : Nat) (x : Fbk) : (s.setFbk n x).irqs = s.irqs := (rfl)
@[simp] theorem State.setFbk_pcie (s : State) (n : Nat) (x : Fbk) : (s.setFbk n x).pcie = s.pcie := (rfl)
@[simp] theorem State.setFbk_regs (s : State) (n : Nat) (x : Fbk) : (s.setFbk n x).regs = s.regs := (rfl)
@[simp] theorem State.setFbk_timed (s : State) (n : Nat) (x : Fbk) : (s.setFbk n x).timed = s.timed := (rfl)
@[simp] theorem State.setFbk_raised (s : State) (n : Nat) (x : Fbk) : (s.setFbk n x).raised = s.raised := (rfl)
@[simp] theorem State.setFbk_ic (s : State) (n : Nat) (x : Fbk) : (s.setFbk n x).ic = s.ic := (rfl)
@[simp] theorem State.setFbk_holdRead (s : State) (n : Nat) (x : Fbk) : (s.setFbk n x).holdRead = s.holdRead := (rfl)
@[simp] theorem State.setFbk_holdWrite (s : State) (n : Nat) (x : Fbk) : (s.setFbk n x).holdWrite = s.holdWrite := (rfl)
@[simp] theorem State.setFbk_clk (s : State) (n : Nat) (x : Fbk) : (s.setFbk n x).clk = s.clk := (rfl)
@[simp] theorem State.setFbk_tly (s : State) (n : Nat) (x : Fbk) : (s.setFbk n x).tly = s.tly := (rfl)
@[simp] theorem State.setFbk_ldg (s : State) (n : Nat) (x : Fbk) : (s.setFbk n x).ldg = s.ldg := (rfl)
@[simp] theorem State.setFbk_hostMem (s : State) (n : Nat) (x : Fbk) : (s.setFbk n x).hostMem = s.hostMem := (rfl)
@[simp] theorem State.setFbk_hostBad (s : State) (n : Nat) (x : Fbk) : (s.setFbk n x).hostBad = s.hostBad := (rfl)
@[simp] theorem State.setFbk_faults (s : State) (n : Nat) (x : Fbk) : (s.setFbk n x).faults = s.faults := (rfl)
@[simp] theorem State.setFbk_stall (s : State) (n : Nat) (x : Fbk) : (s.setFbk n x).stall = s.stall := (rfl)
@[simp] theorem State.setFbk_hwk (s : State) (n : Nat) (x : Fbk) : (s.setFbk n x).hwk = s.hwk := (rfl)
@[simp] theorem State.setFbk_core (s : State) (n : Nat) (x : Fbk) : (s.setFbk n x).core = s.core := (rfl)
@[simp] theorem State.setFbk_prog (s : State) (n : Nat) (x : Fbk) : (s.setFbk n x).prog = s.prog := (rfl)
@[simp] theorem State.setFbk_localMem (s : State) (n : Nat) (x : Fbk) : (s.setFbk n x).localMem = s.localMem := (rfl)
@[simp] theorem State.setFbk_localBad (s : State) (n : Nat) (x : Fbk) : (s.setFbk n x).localBad = s.localBad := (rfl)
@[simp] theorem State.setFbk_localSoft (s : State) (n : Nat) (x : Fbk) : (s.setFbk n x).localSoft = s.localSoft := (rfl)
@[simp] theorem State.setFbk_sram (s : State) (n : Nat) (x : Fbk) : (s.setFbk n x).sram = s.sram := (rfl)
@[simp] theorem State.setFbk_sramBad (s : State) (n : Nat) (x : Fbk) : (s.setFbk n x).sramBad = s.sramBad := (rfl)
@[simp] theorem State.setFbk_slice (s : State) (n : Nat) (x : Fbk) : (s.setFbk n x).slice = s.slice := (rfl)
@[simp] theorem State.setFbk_line (s : State) (n : Nat) (x : Fbk) : (s.setFbk n x).line = s.line := (rfl)
@[simp] theorem State.setFbk_serve (s : State) (n : Nat) (x : Fbk) : (s.setFbk n x).serve = s.serve := (rfl)
@[simp] theorem State.setFbk_bank (s : State) (n : Nat) (x : Fbk) : (s.setFbk n x).bank = s.bank := (rfl)
@[simp] theorem State.setFbk_conv (s : State) (n : Nat) (x : Fbk) : (s.setFbk n x).conv = s.conv := (rfl)
@[simp] theorem State.setFbk_mode (s : State) (n : Nat) (x : Fbk) : (s.setFbk n x).mode = s.mode := (rfl)
@[simp] theorem State.setFbk_coord (s : State) (n : Nat) (x : Fbk) : (s.setFbk n x).coord = s.coord := (rfl)
@[simp] theorem State.setFbk_phase (s : State) (n : Nat) (x : Fbk) : (s.setFbk n x).phase = s.phase := (rfl)
@[simp] theorem State.setFbk_dl (s : State) (n : Nat) (x : Fbk) : (s.setFbk n x).dl = s.dl := (rfl)
@[simp] theorem State.setFbk_grp (s : State) (n : Nat) (x : Fbk) : (s.setFbk n x).grp = s.grp := (rfl)
@[simp] theorem State.setFbk_cmp (s : State) (n : Nat) (x : Fbk) : (s.setFbk n x).cmp = s.cmp := (rfl)
@[simp] theorem State.setFbk_step (s : State) (n : Nat) (x : Fbk) : (s.setFbk n x).step = s.step := (rfl)
@[simp] theorem State.setFbk_dram (s : State) (n : Nat) (x : Fbk) : (s.setFbk n x).dram = s.dram := (rfl)
@[simp] theorem State.setFbk_dramBad (s : State) (n : Nat) (x : Fbk) : (s.setFbk n x).dramBad = s.dramBad := (rfl)
@[simp] theorem State.setFbk_emu (s : State) (n : Nat) (x : Fbk) : (s.setFbk n x).emu = s.emu := (rfl)
@[simp] theorem State.setFbk_balls (s : State) (n : Nat) (x : Fbk) : (s.setFbk n x).balls = s.balls := (rfl)
@[simp] theorem State.setFbk_tclkGone (s : State) (n : Nat) (x : Fbk) : (s.setFbk n x).tclkGone = s.tclkGone := (rfl)
@[simp] theorem State.setFbk_motionHalted (s : State) (n : Nat) (x : Fbk) : (s.setFbk n x).motionHalted = s.motionHalted := (rfl)
@[simp] theorem State.setFbk_cmBad (s : State) (n : Nat) (x : Fbk) : (s.setFbk n x).cmBad = s.cmBad := (rfl)
@[simp] theorem State.setFbk_cmOut (s : State) (n : Nat) (x : Fbk) : (s.setFbk n x).cmOut = s.cmOut := (rfl)
@[simp] theorem State.setFbk_cmLast (s : State) (n : Nat) (x : Fbk) : (s.setFbk n x).cmLast = s.cmLast := (rfl)
@[simp] theorem State.setFbk_sramTold (s : State) (n : Nat) (x : Fbk) : (s.setFbk n x).sramTold = s.sramTold := (rfl)
@[simp] theorem State.setFbk_saf (s : State) (n : Nat) (x : Fbk) : (s.setFbk n x).saf = s.saf := (rfl)
@[simp] theorem State.setFbk_sec (s : State) (n : Nat) (x : Fbk) : (s.setFbk n x).sec = s.sec := (rfl)
@[simp] theorem State.setFbk_pwr (s : State) (n : Nat) (x : Fbk) : (s.setFbk n x).pwr = s.pwr := (rfl)
@[simp] theorem State.setFbk_twin (s : State) (n : Nat) (x : Fbk) : (s.setFbk n x).twin = s.twin := (rfl)
@[simp] theorem State.setFbk_fab (s : State) (n : Nat) (x : Fbk) : (s.setFbk n x).fab = s.fab := (rfl)
@[simp] theorem State.setFbk_lnk (s : State) (n : Nat) (x : Fbk) : (s.setFbk n x).lnk = s.lnk := (rfl)

/-! ## setConv -/

@[simp] theorem State.setConv_pending (s : State) (c : Nat) (x : Conv) : (s.setConv c x).pending = s.pending := (rfl)
@[simp] theorem State.setConv_free (s : State) (c : Nat) (x : Conv) : (s.setConv c x).free = s.free := (rfl)
@[simp] theorem State.setConv_hostRead (s : State) (c : Nat) (x : Conv) : (s.setConv c x).hostRead = s.hostRead := (rfl)
@[simp] theorem State.setConv_irqs (s : State) (c : Nat) (x : Conv) : (s.setConv c x).irqs = s.irqs := (rfl)
@[simp] theorem State.setConv_pcie (s : State) (c : Nat) (x : Conv) : (s.setConv c x).pcie = s.pcie := (rfl)
@[simp] theorem State.setConv_regs (s : State) (c : Nat) (x : Conv) : (s.setConv c x).regs = s.regs := (rfl)
@[simp] theorem State.setConv_timed (s : State) (c : Nat) (x : Conv) : (s.setConv c x).timed = s.timed := (rfl)
@[simp] theorem State.setConv_raised (s : State) (c : Nat) (x : Conv) : (s.setConv c x).raised = s.raised := (rfl)
@[simp] theorem State.setConv_ic (s : State) (c : Nat) (x : Conv) : (s.setConv c x).ic = s.ic := (rfl)
@[simp] theorem State.setConv_holdRead (s : State) (c : Nat) (x : Conv) : (s.setConv c x).holdRead = s.holdRead := (rfl)
@[simp] theorem State.setConv_holdWrite (s : State) (c : Nat) (x : Conv) : (s.setConv c x).holdWrite = s.holdWrite := (rfl)
@[simp] theorem State.setConv_clk (s : State) (c : Nat) (x : Conv) : (s.setConv c x).clk = s.clk := (rfl)
@[simp] theorem State.setConv_tly (s : State) (c : Nat) (x : Conv) : (s.setConv c x).tly = s.tly := (rfl)
@[simp] theorem State.setConv_ldg (s : State) (c : Nat) (x : Conv) : (s.setConv c x).ldg = s.ldg := (rfl)
@[simp] theorem State.setConv_hostMem (s : State) (c : Nat) (x : Conv) : (s.setConv c x).hostMem = s.hostMem := (rfl)
@[simp] theorem State.setConv_hostBad (s : State) (c : Nat) (x : Conv) : (s.setConv c x).hostBad = s.hostBad := (rfl)
@[simp] theorem State.setConv_faults (s : State) (c : Nat) (x : Conv) : (s.setConv c x).faults = s.faults := (rfl)
@[simp] theorem State.setConv_stall (s : State) (c : Nat) (x : Conv) : (s.setConv c x).stall = s.stall := (rfl)
@[simp] theorem State.setConv_hwk (s : State) (c : Nat) (x : Conv) : (s.setConv c x).hwk = s.hwk := (rfl)
@[simp] theorem State.setConv_core (s : State) (c : Nat) (x : Conv) : (s.setConv c x).core = s.core := (rfl)
@[simp] theorem State.setConv_prog (s : State) (c : Nat) (x : Conv) : (s.setConv c x).prog = s.prog := (rfl)
@[simp] theorem State.setConv_localMem (s : State) (c : Nat) (x : Conv) : (s.setConv c x).localMem = s.localMem := (rfl)
@[simp] theorem State.setConv_localBad (s : State) (c : Nat) (x : Conv) : (s.setConv c x).localBad = s.localBad := (rfl)
@[simp] theorem State.setConv_localSoft (s : State) (c : Nat) (x : Conv) : (s.setConv c x).localSoft = s.localSoft := (rfl)
@[simp] theorem State.setConv_sram (s : State) (c : Nat) (x : Conv) : (s.setConv c x).sram = s.sram := (rfl)
@[simp] theorem State.setConv_sramBad (s : State) (c : Nat) (x : Conv) : (s.setConv c x).sramBad = s.sramBad := (rfl)
@[simp] theorem State.setConv_slice (s : State) (c : Nat) (x : Conv) : (s.setConv c x).slice = s.slice := (rfl)
@[simp] theorem State.setConv_line (s : State) (c : Nat) (x : Conv) : (s.setConv c x).line = s.line := (rfl)
@[simp] theorem State.setConv_serve (s : State) (c : Nat) (x : Conv) : (s.setConv c x).serve = s.serve := (rfl)
@[simp] theorem State.setConv_bank (s : State) (c : Nat) (x : Conv) : (s.setConv c x).bank = s.bank := (rfl)
@[simp] theorem State.setConv_mode (s : State) (c : Nat) (x : Conv) : (s.setConv c x).mode = s.mode := (rfl)
@[simp] theorem State.setConv_coord (s : State) (c : Nat) (x : Conv) : (s.setConv c x).coord = s.coord := (rfl)
@[simp] theorem State.setConv_phase (s : State) (c : Nat) (x : Conv) : (s.setConv c x).phase = s.phase := (rfl)
@[simp] theorem State.setConv_dl (s : State) (c : Nat) (x : Conv) : (s.setConv c x).dl = s.dl := (rfl)
@[simp] theorem State.setConv_grp (s : State) (c : Nat) (x : Conv) : (s.setConv c x).grp = s.grp := (rfl)
@[simp] theorem State.setConv_cmp (s : State) (c : Nat) (x : Conv) : (s.setConv c x).cmp = s.cmp := (rfl)
@[simp] theorem State.setConv_step (s : State) (c : Nat) (x : Conv) : (s.setConv c x).step = s.step := (rfl)
@[simp] theorem State.setConv_dram (s : State) (c : Nat) (x : Conv) : (s.setConv c x).dram = s.dram := (rfl)
@[simp] theorem State.setConv_dramBad (s : State) (c : Nat) (x : Conv) : (s.setConv c x).dramBad = s.dramBad := (rfl)
@[simp] theorem State.setConv_fbk (s : State) (c : Nat) (x : Conv) : (s.setConv c x).fbk = s.fbk := (rfl)
@[simp] theorem State.setConv_emu (s : State) (c : Nat) (x : Conv) : (s.setConv c x).emu = s.emu := (rfl)
@[simp] theorem State.setConv_balls (s : State) (c : Nat) (x : Conv) : (s.setConv c x).balls = s.balls := (rfl)
@[simp] theorem State.setConv_tclkGone (s : State) (c : Nat) (x : Conv) : (s.setConv c x).tclkGone = s.tclkGone := (rfl)
@[simp] theorem State.setConv_motionHalted (s : State) (c : Nat) (x : Conv) : (s.setConv c x).motionHalted = s.motionHalted := (rfl)
@[simp] theorem State.setConv_cmBad (s : State) (c : Nat) (x : Conv) : (s.setConv c x).cmBad = s.cmBad := (rfl)
@[simp] theorem State.setConv_cmOut (s : State) (c : Nat) (x : Conv) : (s.setConv c x).cmOut = s.cmOut := (rfl)
@[simp] theorem State.setConv_cmLast (s : State) (c : Nat) (x : Conv) : (s.setConv c x).cmLast = s.cmLast := (rfl)
@[simp] theorem State.setConv_sramTold (s : State) (c : Nat) (x : Conv) : (s.setConv c x).sramTold = s.sramTold := (rfl)
@[simp] theorem State.setConv_saf (s : State) (c : Nat) (x : Conv) : (s.setConv c x).saf = s.saf := (rfl)
@[simp] theorem State.setConv_sec (s : State) (c : Nat) (x : Conv) : (s.setConv c x).sec = s.sec := (rfl)
@[simp] theorem State.setConv_pwr (s : State) (c : Nat) (x : Conv) : (s.setConv c x).pwr = s.pwr := (rfl)
@[simp] theorem State.setConv_twin (s : State) (c : Nat) (x : Conv) : (s.setConv c x).twin = s.twin := (rfl)
@[simp] theorem State.setConv_fab (s : State) (c : Nat) (x : Conv) : (s.setConv c x).fab = s.fab := (rfl)
@[simp] theorem State.setConv_lnk (s : State) (c : Nat) (x : Conv) : (s.setConv c x).lnk = s.lnk := (rfl)

/-! ## setStall -/

@[simp] theorem State.setStall_pending (s : State) (n : Nat) (x : Stall) : (s.setStall n x).pending = s.pending := (rfl)
@[simp] theorem State.setStall_free (s : State) (n : Nat) (x : Stall) : (s.setStall n x).free = s.free := (rfl)
@[simp] theorem State.setStall_hostRead (s : State) (n : Nat) (x : Stall) : (s.setStall n x).hostRead = s.hostRead := (rfl)
@[simp] theorem State.setStall_irqs (s : State) (n : Nat) (x : Stall) : (s.setStall n x).irqs = s.irqs := (rfl)
@[simp] theorem State.setStall_pcie (s : State) (n : Nat) (x : Stall) : (s.setStall n x).pcie = s.pcie := (rfl)
@[simp] theorem State.setStall_regs (s : State) (n : Nat) (x : Stall) : (s.setStall n x).regs = s.regs := (rfl)
@[simp] theorem State.setStall_timed (s : State) (n : Nat) (x : Stall) : (s.setStall n x).timed = s.timed := (rfl)
@[simp] theorem State.setStall_raised (s : State) (n : Nat) (x : Stall) : (s.setStall n x).raised = s.raised := (rfl)
@[simp] theorem State.setStall_ic (s : State) (n : Nat) (x : Stall) : (s.setStall n x).ic = s.ic := (rfl)
@[simp] theorem State.setStall_holdRead (s : State) (n : Nat) (x : Stall) : (s.setStall n x).holdRead = s.holdRead := (rfl)
@[simp] theorem State.setStall_holdWrite (s : State) (n : Nat) (x : Stall) : (s.setStall n x).holdWrite = s.holdWrite := (rfl)
@[simp] theorem State.setStall_clk (s : State) (n : Nat) (x : Stall) : (s.setStall n x).clk = s.clk := (rfl)
@[simp] theorem State.setStall_tly (s : State) (n : Nat) (x : Stall) : (s.setStall n x).tly = s.tly := (rfl)
@[simp] theorem State.setStall_ldg (s : State) (n : Nat) (x : Stall) : (s.setStall n x).ldg = s.ldg := (rfl)
@[simp] theorem State.setStall_hostMem (s : State) (n : Nat) (x : Stall) : (s.setStall n x).hostMem = s.hostMem := (rfl)
@[simp] theorem State.setStall_hostBad (s : State) (n : Nat) (x : Stall) : (s.setStall n x).hostBad = s.hostBad := (rfl)
@[simp] theorem State.setStall_faults (s : State) (n : Nat) (x : Stall) : (s.setStall n x).faults = s.faults := (rfl)
@[simp] theorem State.setStall_hwk (s : State) (n : Nat) (x : Stall) : (s.setStall n x).hwk = s.hwk := (rfl)
@[simp] theorem State.setStall_core (s : State) (n : Nat) (x : Stall) : (s.setStall n x).core = s.core := (rfl)
@[simp] theorem State.setStall_prog (s : State) (n : Nat) (x : Stall) : (s.setStall n x).prog = s.prog := (rfl)
@[simp] theorem State.setStall_localMem (s : State) (n : Nat) (x : Stall) : (s.setStall n x).localMem = s.localMem := (rfl)
@[simp] theorem State.setStall_localBad (s : State) (n : Nat) (x : Stall) : (s.setStall n x).localBad = s.localBad := (rfl)
@[simp] theorem State.setStall_localSoft (s : State) (n : Nat) (x : Stall) : (s.setStall n x).localSoft = s.localSoft := (rfl)
@[simp] theorem State.setStall_sram (s : State) (n : Nat) (x : Stall) : (s.setStall n x).sram = s.sram := (rfl)
@[simp] theorem State.setStall_sramBad (s : State) (n : Nat) (x : Stall) : (s.setStall n x).sramBad = s.sramBad := (rfl)
@[simp] theorem State.setStall_slice (s : State) (n : Nat) (x : Stall) : (s.setStall n x).slice = s.slice := (rfl)
@[simp] theorem State.setStall_line (s : State) (n : Nat) (x : Stall) : (s.setStall n x).line = s.line := (rfl)
@[simp] theorem State.setStall_serve (s : State) (n : Nat) (x : Stall) : (s.setStall n x).serve = s.serve := (rfl)
@[simp] theorem State.setStall_bank (s : State) (n : Nat) (x : Stall) : (s.setStall n x).bank = s.bank := (rfl)
@[simp] theorem State.setStall_conv (s : State) (n : Nat) (x : Stall) : (s.setStall n x).conv = s.conv := (rfl)
@[simp] theorem State.setStall_mode (s : State) (n : Nat) (x : Stall) : (s.setStall n x).mode = s.mode := (rfl)
@[simp] theorem State.setStall_coord (s : State) (n : Nat) (x : Stall) : (s.setStall n x).coord = s.coord := (rfl)
@[simp] theorem State.setStall_phase (s : State) (n : Nat) (x : Stall) : (s.setStall n x).phase = s.phase := (rfl)
@[simp] theorem State.setStall_dl (s : State) (n : Nat) (x : Stall) : (s.setStall n x).dl = s.dl := (rfl)
@[simp] theorem State.setStall_grp (s : State) (n : Nat) (x : Stall) : (s.setStall n x).grp = s.grp := (rfl)
@[simp] theorem State.setStall_cmp (s : State) (n : Nat) (x : Stall) : (s.setStall n x).cmp = s.cmp := (rfl)
@[simp] theorem State.setStall_step (s : State) (n : Nat) (x : Stall) : (s.setStall n x).step = s.step := (rfl)
@[simp] theorem State.setStall_dram (s : State) (n : Nat) (x : Stall) : (s.setStall n x).dram = s.dram := (rfl)
@[simp] theorem State.setStall_dramBad (s : State) (n : Nat) (x : Stall) : (s.setStall n x).dramBad = s.dramBad := (rfl)
@[simp] theorem State.setStall_fbk (s : State) (n : Nat) (x : Stall) : (s.setStall n x).fbk = s.fbk := (rfl)
@[simp] theorem State.setStall_emu (s : State) (n : Nat) (x : Stall) : (s.setStall n x).emu = s.emu := (rfl)
@[simp] theorem State.setStall_balls (s : State) (n : Nat) (x : Stall) : (s.setStall n x).balls = s.balls := (rfl)
@[simp] theorem State.setStall_tclkGone (s : State) (n : Nat) (x : Stall) : (s.setStall n x).tclkGone = s.tclkGone := (rfl)
@[simp] theorem State.setStall_motionHalted (s : State) (n : Nat) (x : Stall) : (s.setStall n x).motionHalted = s.motionHalted := (rfl)
@[simp] theorem State.setStall_cmBad (s : State) (n : Nat) (x : Stall) : (s.setStall n x).cmBad = s.cmBad := (rfl)
@[simp] theorem State.setStall_cmOut (s : State) (n : Nat) (x : Stall) : (s.setStall n x).cmOut = s.cmOut := (rfl)
@[simp] theorem State.setStall_cmLast (s : State) (n : Nat) (x : Stall) : (s.setStall n x).cmLast = s.cmLast := (rfl)
@[simp] theorem State.setStall_sramTold (s : State) (n : Nat) (x : Stall) : (s.setStall n x).sramTold = s.sramTold := (rfl)
@[simp] theorem State.setStall_saf (s : State) (n : Nat) (x : Stall) : (s.setStall n x).saf = s.saf := (rfl)
@[simp] theorem State.setStall_sec (s : State) (n : Nat) (x : Stall) : (s.setStall n x).sec = s.sec := (rfl)
@[simp] theorem State.setStall_pwr (s : State) (n : Nat) (x : Stall) : (s.setStall n x).pwr = s.pwr := (rfl)
@[simp] theorem State.setStall_twin (s : State) (n : Nat) (x : Stall) : (s.setStall n x).twin = s.twin := (rfl)
@[simp] theorem State.setStall_fab (s : State) (n : Nat) (x : Stall) : (s.setStall n x).fab = s.fab := (rfl)
@[simp] theorem State.setStall_lnk (s : State) (n : Nat) (x : Stall) : (s.setStall n x).lnk = s.lnk := (rfl)

/-! ## setCore -/

@[simp] theorem State.setCore_pending (s : State) (c : Nat) (x : LCore) : (s.setCore c x).pending = s.pending := (rfl)
@[simp] theorem State.setCore_free (s : State) (c : Nat) (x : LCore) : (s.setCore c x).free = s.free := (rfl)
@[simp] theorem State.setCore_hostRead (s : State) (c : Nat) (x : LCore) : (s.setCore c x).hostRead = s.hostRead := (rfl)
@[simp] theorem State.setCore_irqs (s : State) (c : Nat) (x : LCore) : (s.setCore c x).irqs = s.irqs := (rfl)
@[simp] theorem State.setCore_pcie (s : State) (c : Nat) (x : LCore) : (s.setCore c x).pcie = s.pcie := (rfl)
@[simp] theorem State.setCore_regs (s : State) (c : Nat) (x : LCore) : (s.setCore c x).regs = s.regs := (rfl)
@[simp] theorem State.setCore_timed (s : State) (c : Nat) (x : LCore) : (s.setCore c x).timed = s.timed := (rfl)
@[simp] theorem State.setCore_raised (s : State) (c : Nat) (x : LCore) : (s.setCore c x).raised = s.raised := (rfl)
@[simp] theorem State.setCore_ic (s : State) (c : Nat) (x : LCore) : (s.setCore c x).ic = s.ic := (rfl)
@[simp] theorem State.setCore_holdRead (s : State) (c : Nat) (x : LCore) : (s.setCore c x).holdRead = s.holdRead := (rfl)
@[simp] theorem State.setCore_holdWrite (s : State) (c : Nat) (x : LCore) : (s.setCore c x).holdWrite = s.holdWrite := (rfl)
@[simp] theorem State.setCore_clk (s : State) (c : Nat) (x : LCore) : (s.setCore c x).clk = s.clk := (rfl)
@[simp] theorem State.setCore_tly (s : State) (c : Nat) (x : LCore) : (s.setCore c x).tly = s.tly := (rfl)
@[simp] theorem State.setCore_ldg (s : State) (c : Nat) (x : LCore) : (s.setCore c x).ldg = s.ldg := (rfl)
@[simp] theorem State.setCore_hostMem (s : State) (c : Nat) (x : LCore) : (s.setCore c x).hostMem = s.hostMem := (rfl)
@[simp] theorem State.setCore_hostBad (s : State) (c : Nat) (x : LCore) : (s.setCore c x).hostBad = s.hostBad := (rfl)
@[simp] theorem State.setCore_faults (s : State) (c : Nat) (x : LCore) : (s.setCore c x).faults = s.faults := (rfl)
@[simp] theorem State.setCore_stall (s : State) (c : Nat) (x : LCore) : (s.setCore c x).stall = s.stall := (rfl)
@[simp] theorem State.setCore_hwk (s : State) (c : Nat) (x : LCore) : (s.setCore c x).hwk = s.hwk := (rfl)
@[simp] theorem State.setCore_prog (s : State) (c : Nat) (x : LCore) : (s.setCore c x).prog = s.prog := (rfl)
@[simp] theorem State.setCore_localMem (s : State) (c : Nat) (x : LCore) : (s.setCore c x).localMem = s.localMem := (rfl)
@[simp] theorem State.setCore_localBad (s : State) (c : Nat) (x : LCore) : (s.setCore c x).localBad = s.localBad := (rfl)
@[simp] theorem State.setCore_localSoft (s : State) (c : Nat) (x : LCore) : (s.setCore c x).localSoft = s.localSoft := (rfl)
@[simp] theorem State.setCore_sram (s : State) (c : Nat) (x : LCore) : (s.setCore c x).sram = s.sram := (rfl)
@[simp] theorem State.setCore_sramBad (s : State) (c : Nat) (x : LCore) : (s.setCore c x).sramBad = s.sramBad := (rfl)
@[simp] theorem State.setCore_slice (s : State) (c : Nat) (x : LCore) : (s.setCore c x).slice = s.slice := (rfl)
@[simp] theorem State.setCore_line (s : State) (c : Nat) (x : LCore) : (s.setCore c x).line = s.line := (rfl)
@[simp] theorem State.setCore_serve (s : State) (c : Nat) (x : LCore) : (s.setCore c x).serve = s.serve := (rfl)
@[simp] theorem State.setCore_bank (s : State) (c : Nat) (x : LCore) : (s.setCore c x).bank = s.bank := (rfl)
@[simp] theorem State.setCore_conv (s : State) (c : Nat) (x : LCore) : (s.setCore c x).conv = s.conv := (rfl)
@[simp] theorem State.setCore_mode (s : State) (c : Nat) (x : LCore) : (s.setCore c x).mode = s.mode := (rfl)
@[simp] theorem State.setCore_coord (s : State) (c : Nat) (x : LCore) : (s.setCore c x).coord = s.coord := (rfl)
@[simp] theorem State.setCore_phase (s : State) (c : Nat) (x : LCore) : (s.setCore c x).phase = s.phase := (rfl)
@[simp] theorem State.setCore_dl (s : State) (c : Nat) (x : LCore) : (s.setCore c x).dl = s.dl := (rfl)
@[simp] theorem State.setCore_grp (s : State) (c : Nat) (x : LCore) : (s.setCore c x).grp = s.grp := (rfl)
@[simp] theorem State.setCore_cmp (s : State) (c : Nat) (x : LCore) : (s.setCore c x).cmp = s.cmp := (rfl)
@[simp] theorem State.setCore_step (s : State) (c : Nat) (x : LCore) : (s.setCore c x).step = s.step := (rfl)
@[simp] theorem State.setCore_dram (s : State) (c : Nat) (x : LCore) : (s.setCore c x).dram = s.dram := (rfl)
@[simp] theorem State.setCore_dramBad (s : State) (c : Nat) (x : LCore) : (s.setCore c x).dramBad = s.dramBad := (rfl)
@[simp] theorem State.setCore_fbk (s : State) (c : Nat) (x : LCore) : (s.setCore c x).fbk = s.fbk := (rfl)
@[simp] theorem State.setCore_emu (s : State) (c : Nat) (x : LCore) : (s.setCore c x).emu = s.emu := (rfl)
@[simp] theorem State.setCore_balls (s : State) (c : Nat) (x : LCore) : (s.setCore c x).balls = s.balls := (rfl)
@[simp] theorem State.setCore_tclkGone (s : State) (c : Nat) (x : LCore) : (s.setCore c x).tclkGone = s.tclkGone := (rfl)
@[simp] theorem State.setCore_motionHalted (s : State) (c : Nat) (x : LCore) : (s.setCore c x).motionHalted = s.motionHalted := (rfl)
@[simp] theorem State.setCore_cmBad (s : State) (c : Nat) (x : LCore) : (s.setCore c x).cmBad = s.cmBad := (rfl)
@[simp] theorem State.setCore_cmOut (s : State) (c : Nat) (x : LCore) : (s.setCore c x).cmOut = s.cmOut := (rfl)
@[simp] theorem State.setCore_cmLast (s : State) (c : Nat) (x : LCore) : (s.setCore c x).cmLast = s.cmLast := (rfl)
@[simp] theorem State.setCore_sramTold (s : State) (c : Nat) (x : LCore) : (s.setCore c x).sramTold = s.sramTold := (rfl)
@[simp] theorem State.setCore_saf (s : State) (c : Nat) (x : LCore) : (s.setCore c x).saf = s.saf := (rfl)
@[simp] theorem State.setCore_sec (s : State) (c : Nat) (x : LCore) : (s.setCore c x).sec = s.sec := (rfl)
@[simp] theorem State.setCore_pwr (s : State) (c : Nat) (x : LCore) : (s.setCore c x).pwr = s.pwr := (rfl)
@[simp] theorem State.setCore_twin (s : State) (c : Nat) (x : LCore) : (s.setCore c x).twin = s.twin := (rfl)
@[simp] theorem State.setCore_fab (s : State) (c : Nat) (x : LCore) : (s.setCore c x).fab = s.fab := (rfl)
@[simp] theorem State.setCore_lnk (s : State) (c : Nat) (x : LCore) : (s.setCore c x).lnk = s.lnk := (rfl)

/-! ## setCoord -/

@[simp] theorem State.setCoord_pending (s : State) (n : Nat) (c : Coord) : (s.setCoord n c).pending = s.pending := (rfl)
@[simp] theorem State.setCoord_free (s : State) (n : Nat) (c : Coord) : (s.setCoord n c).free = s.free := (rfl)
@[simp] theorem State.setCoord_hostRead (s : State) (n : Nat) (c : Coord) : (s.setCoord n c).hostRead = s.hostRead := (rfl)
@[simp] theorem State.setCoord_irqs (s : State) (n : Nat) (c : Coord) : (s.setCoord n c).irqs = s.irqs := (rfl)
@[simp] theorem State.setCoord_pcie (s : State) (n : Nat) (c : Coord) : (s.setCoord n c).pcie = s.pcie := (rfl)
@[simp] theorem State.setCoord_regs (s : State) (n : Nat) (c : Coord) : (s.setCoord n c).regs = s.regs := (rfl)
@[simp] theorem State.setCoord_timed (s : State) (n : Nat) (c : Coord) : (s.setCoord n c).timed = s.timed := (rfl)
@[simp] theorem State.setCoord_raised (s : State) (n : Nat) (c : Coord) : (s.setCoord n c).raised = s.raised := (rfl)
@[simp] theorem State.setCoord_ic (s : State) (n : Nat) (c : Coord) : (s.setCoord n c).ic = s.ic := (rfl)
@[simp] theorem State.setCoord_holdRead (s : State) (n : Nat) (c : Coord) : (s.setCoord n c).holdRead = s.holdRead := (rfl)
@[simp] theorem State.setCoord_holdWrite (s : State) (n : Nat) (c : Coord) : (s.setCoord n c).holdWrite = s.holdWrite := (rfl)
@[simp] theorem State.setCoord_clk (s : State) (n : Nat) (c : Coord) : (s.setCoord n c).clk = s.clk := (rfl)
@[simp] theorem State.setCoord_tly (s : State) (n : Nat) (c : Coord) : (s.setCoord n c).tly = s.tly := (rfl)
@[simp] theorem State.setCoord_ldg (s : State) (n : Nat) (c : Coord) : (s.setCoord n c).ldg = s.ldg := (rfl)
@[simp] theorem State.setCoord_hostMem (s : State) (n : Nat) (c : Coord) : (s.setCoord n c).hostMem = s.hostMem := (rfl)
@[simp] theorem State.setCoord_hostBad (s : State) (n : Nat) (c : Coord) : (s.setCoord n c).hostBad = s.hostBad := (rfl)
@[simp] theorem State.setCoord_faults (s : State) (n : Nat) (c : Coord) : (s.setCoord n c).faults = s.faults := (rfl)
@[simp] theorem State.setCoord_stall (s : State) (n : Nat) (c : Coord) : (s.setCoord n c).stall = s.stall := (rfl)
@[simp] theorem State.setCoord_hwk (s : State) (n : Nat) (c : Coord) : (s.setCoord n c).hwk = s.hwk := (rfl)
@[simp] theorem State.setCoord_core (s : State) (n : Nat) (c : Coord) : (s.setCoord n c).core = s.core := (rfl)
@[simp] theorem State.setCoord_prog (s : State) (n : Nat) (c : Coord) : (s.setCoord n c).prog = s.prog := (rfl)
@[simp] theorem State.setCoord_localMem (s : State) (n : Nat) (c : Coord) : (s.setCoord n c).localMem = s.localMem := (rfl)
@[simp] theorem State.setCoord_localBad (s : State) (n : Nat) (c : Coord) : (s.setCoord n c).localBad = s.localBad := (rfl)
@[simp] theorem State.setCoord_localSoft (s : State) (n : Nat) (c : Coord) : (s.setCoord n c).localSoft = s.localSoft := (rfl)
@[simp] theorem State.setCoord_sram (s : State) (n : Nat) (c : Coord) : (s.setCoord n c).sram = s.sram := (rfl)
@[simp] theorem State.setCoord_sramBad (s : State) (n : Nat) (c : Coord) : (s.setCoord n c).sramBad = s.sramBad := (rfl)
@[simp] theorem State.setCoord_slice (s : State) (n : Nat) (c : Coord) : (s.setCoord n c).slice = s.slice := (rfl)
@[simp] theorem State.setCoord_line (s : State) (n : Nat) (c : Coord) : (s.setCoord n c).line = s.line := (rfl)
@[simp] theorem State.setCoord_serve (s : State) (n : Nat) (c : Coord) : (s.setCoord n c).serve = s.serve := (rfl)
@[simp] theorem State.setCoord_bank (s : State) (n : Nat) (c : Coord) : (s.setCoord n c).bank = s.bank := (rfl)
@[simp] theorem State.setCoord_conv (s : State) (n : Nat) (c : Coord) : (s.setCoord n c).conv = s.conv := (rfl)
@[simp] theorem State.setCoord_mode (s : State) (n : Nat) (c : Coord) : (s.setCoord n c).mode = s.mode := (rfl)
@[simp] theorem State.setCoord_phase (s : State) (n : Nat) (c : Coord) : (s.setCoord n c).phase = s.phase := (rfl)
@[simp] theorem State.setCoord_dl (s : State) (n : Nat) (c : Coord) : (s.setCoord n c).dl = s.dl := (rfl)
@[simp] theorem State.setCoord_grp (s : State) (n : Nat) (c : Coord) : (s.setCoord n c).grp = s.grp := (rfl)
@[simp] theorem State.setCoord_cmp (s : State) (n : Nat) (c : Coord) : (s.setCoord n c).cmp = s.cmp := (rfl)
@[simp] theorem State.setCoord_step (s : State) (n : Nat) (c : Coord) : (s.setCoord n c).step = s.step := (rfl)
@[simp] theorem State.setCoord_dram (s : State) (n : Nat) (c : Coord) : (s.setCoord n c).dram = s.dram := (rfl)
@[simp] theorem State.setCoord_dramBad (s : State) (n : Nat) (c : Coord) : (s.setCoord n c).dramBad = s.dramBad := (rfl)
@[simp] theorem State.setCoord_fbk (s : State) (n : Nat) (c : Coord) : (s.setCoord n c).fbk = s.fbk := (rfl)
@[simp] theorem State.setCoord_emu (s : State) (n : Nat) (c : Coord) : (s.setCoord n c).emu = s.emu := (rfl)
@[simp] theorem State.setCoord_balls (s : State) (n : Nat) (c : Coord) : (s.setCoord n c).balls = s.balls := (rfl)
@[simp] theorem State.setCoord_tclkGone (s : State) (n : Nat) (c : Coord) : (s.setCoord n c).tclkGone = s.tclkGone := (rfl)
@[simp] theorem State.setCoord_motionHalted (s : State) (n : Nat) (c : Coord) : (s.setCoord n c).motionHalted = s.motionHalted := (rfl)
@[simp] theorem State.setCoord_cmBad (s : State) (n : Nat) (c : Coord) : (s.setCoord n c).cmBad = s.cmBad := (rfl)
@[simp] theorem State.setCoord_cmOut (s : State) (n : Nat) (c : Coord) : (s.setCoord n c).cmOut = s.cmOut := (rfl)
@[simp] theorem State.setCoord_cmLast (s : State) (n : Nat) (c : Coord) : (s.setCoord n c).cmLast = s.cmLast := (rfl)
@[simp] theorem State.setCoord_sramTold (s : State) (n : Nat) (c : Coord) : (s.setCoord n c).sramTold = s.sramTold := (rfl)
@[simp] theorem State.setCoord_saf (s : State) (n : Nat) (c : Coord) : (s.setCoord n c).saf = s.saf := (rfl)
@[simp] theorem State.setCoord_sec (s : State) (n : Nat) (c : Coord) : (s.setCoord n c).sec = s.sec := (rfl)
@[simp] theorem State.setCoord_pwr (s : State) (n : Nat) (c : Coord) : (s.setCoord n c).pwr = s.pwr := (rfl)
@[simp] theorem State.setCoord_twin (s : State) (n : Nat) (c : Coord) : (s.setCoord n c).twin = s.twin := (rfl)
@[simp] theorem State.setCoord_fab (s : State) (n : Nat) (c : Coord) : (s.setCoord n c).fab = s.fab := (rfl)
@[simp] theorem State.setCoord_lnk (s : State) (n : Nat) (c : Coord) : (s.setCoord n c).lnk = s.lnk := (rfl)

/-! ## setDlist -/

@[simp] theorem State.setDlist_pending (s : State) (m : Nat) (l : DList) : (s.setDlist m l).pending = s.pending := (rfl)
@[simp] theorem State.setDlist_free (s : State) (m : Nat) (l : DList) : (s.setDlist m l).free = s.free := (rfl)
@[simp] theorem State.setDlist_hostRead (s : State) (m : Nat) (l : DList) : (s.setDlist m l).hostRead = s.hostRead := (rfl)
@[simp] theorem State.setDlist_irqs (s : State) (m : Nat) (l : DList) : (s.setDlist m l).irqs = s.irqs := (rfl)
@[simp] theorem State.setDlist_pcie (s : State) (m : Nat) (l : DList) : (s.setDlist m l).pcie = s.pcie := (rfl)
@[simp] theorem State.setDlist_regs (s : State) (m : Nat) (l : DList) : (s.setDlist m l).regs = s.regs := (rfl)
@[simp] theorem State.setDlist_timed (s : State) (m : Nat) (l : DList) : (s.setDlist m l).timed = s.timed := (rfl)
@[simp] theorem State.setDlist_raised (s : State) (m : Nat) (l : DList) : (s.setDlist m l).raised = s.raised := (rfl)
@[simp] theorem State.setDlist_ic (s : State) (m : Nat) (l : DList) : (s.setDlist m l).ic = s.ic := (rfl)
@[simp] theorem State.setDlist_holdRead (s : State) (m : Nat) (l : DList) : (s.setDlist m l).holdRead = s.holdRead := (rfl)
@[simp] theorem State.setDlist_holdWrite (s : State) (m : Nat) (l : DList) : (s.setDlist m l).holdWrite = s.holdWrite := (rfl)
@[simp] theorem State.setDlist_clk (s : State) (m : Nat) (l : DList) : (s.setDlist m l).clk = s.clk := (rfl)
@[simp] theorem State.setDlist_tly (s : State) (m : Nat) (l : DList) : (s.setDlist m l).tly = s.tly := (rfl)
@[simp] theorem State.setDlist_ldg (s : State) (m : Nat) (l : DList) : (s.setDlist m l).ldg = s.ldg := (rfl)
@[simp] theorem State.setDlist_hostMem (s : State) (m : Nat) (l : DList) : (s.setDlist m l).hostMem = s.hostMem := (rfl)
@[simp] theorem State.setDlist_hostBad (s : State) (m : Nat) (l : DList) : (s.setDlist m l).hostBad = s.hostBad := (rfl)
@[simp] theorem State.setDlist_faults (s : State) (m : Nat) (l : DList) : (s.setDlist m l).faults = s.faults := (rfl)
@[simp] theorem State.setDlist_stall (s : State) (m : Nat) (l : DList) : (s.setDlist m l).stall = s.stall := (rfl)
@[simp] theorem State.setDlist_hwk (s : State) (m : Nat) (l : DList) : (s.setDlist m l).hwk = s.hwk := (rfl)
@[simp] theorem State.setDlist_core (s : State) (m : Nat) (l : DList) : (s.setDlist m l).core = s.core := (rfl)
@[simp] theorem State.setDlist_prog (s : State) (m : Nat) (l : DList) : (s.setDlist m l).prog = s.prog := (rfl)
@[simp] theorem State.setDlist_localMem (s : State) (m : Nat) (l : DList) : (s.setDlist m l).localMem = s.localMem := (rfl)
@[simp] theorem State.setDlist_localBad (s : State) (m : Nat) (l : DList) : (s.setDlist m l).localBad = s.localBad := (rfl)
@[simp] theorem State.setDlist_localSoft (s : State) (m : Nat) (l : DList) : (s.setDlist m l).localSoft = s.localSoft := (rfl)
@[simp] theorem State.setDlist_sram (s : State) (m : Nat) (l : DList) : (s.setDlist m l).sram = s.sram := (rfl)
@[simp] theorem State.setDlist_sramBad (s : State) (m : Nat) (l : DList) : (s.setDlist m l).sramBad = s.sramBad := (rfl)
@[simp] theorem State.setDlist_slice (s : State) (m : Nat) (l : DList) : (s.setDlist m l).slice = s.slice := (rfl)
@[simp] theorem State.setDlist_line (s : State) (m : Nat) (l : DList) : (s.setDlist m l).line = s.line := (rfl)
@[simp] theorem State.setDlist_serve (s : State) (m : Nat) (l : DList) : (s.setDlist m l).serve = s.serve := (rfl)
@[simp] theorem State.setDlist_bank (s : State) (m : Nat) (l : DList) : (s.setDlist m l).bank = s.bank := (rfl)
@[simp] theorem State.setDlist_conv (s : State) (m : Nat) (l : DList) : (s.setDlist m l).conv = s.conv := (rfl)
@[simp] theorem State.setDlist_mode (s : State) (m : Nat) (l : DList) : (s.setDlist m l).mode = s.mode := (rfl)
@[simp] theorem State.setDlist_coord (s : State) (m : Nat) (l : DList) : (s.setDlist m l).coord = s.coord := (rfl)
@[simp] theorem State.setDlist_phase (s : State) (m : Nat) (l : DList) : (s.setDlist m l).phase = s.phase := (rfl)
@[simp] theorem State.setDlist_grp (s : State) (m : Nat) (l : DList) : (s.setDlist m l).grp = s.grp := (rfl)
@[simp] theorem State.setDlist_cmp (s : State) (m : Nat) (l : DList) : (s.setDlist m l).cmp = s.cmp := (rfl)
@[simp] theorem State.setDlist_step (s : State) (m : Nat) (l : DList) : (s.setDlist m l).step = s.step := (rfl)
@[simp] theorem State.setDlist_dram (s : State) (m : Nat) (l : DList) : (s.setDlist m l).dram = s.dram := (rfl)
@[simp] theorem State.setDlist_dramBad (s : State) (m : Nat) (l : DList) : (s.setDlist m l).dramBad = s.dramBad := (rfl)
@[simp] theorem State.setDlist_fbk (s : State) (m : Nat) (l : DList) : (s.setDlist m l).fbk = s.fbk := (rfl)
@[simp] theorem State.setDlist_emu (s : State) (m : Nat) (l : DList) : (s.setDlist m l).emu = s.emu := (rfl)
@[simp] theorem State.setDlist_balls (s : State) (m : Nat) (l : DList) : (s.setDlist m l).balls = s.balls := (rfl)
@[simp] theorem State.setDlist_tclkGone (s : State) (m : Nat) (l : DList) : (s.setDlist m l).tclkGone = s.tclkGone := (rfl)
@[simp] theorem State.setDlist_motionHalted (s : State) (m : Nat) (l : DList) : (s.setDlist m l).motionHalted = s.motionHalted := (rfl)
@[simp] theorem State.setDlist_cmBad (s : State) (m : Nat) (l : DList) : (s.setDlist m l).cmBad = s.cmBad := (rfl)
@[simp] theorem State.setDlist_cmOut (s : State) (m : Nat) (l : DList) : (s.setDlist m l).cmOut = s.cmOut := (rfl)
@[simp] theorem State.setDlist_cmLast (s : State) (m : Nat) (l : DList) : (s.setDlist m l).cmLast = s.cmLast := (rfl)
@[simp] theorem State.setDlist_sramTold (s : State) (m : Nat) (l : DList) : (s.setDlist m l).sramTold = s.sramTold := (rfl)
@[simp] theorem State.setDlist_saf (s : State) (m : Nat) (l : DList) : (s.setDlist m l).saf = s.saf := (rfl)
@[simp] theorem State.setDlist_sec (s : State) (m : Nat) (l : DList) : (s.setDlist m l).sec = s.sec := (rfl)
@[simp] theorem State.setDlist_pwr (s : State) (m : Nat) (l : DList) : (s.setDlist m l).pwr = s.pwr := (rfl)
@[simp] theorem State.setDlist_twin (s : State) (m : Nat) (l : DList) : (s.setDlist m l).twin = s.twin := (rfl)
@[simp] theorem State.setDlist_fab (s : State) (m : Nat) (l : DList) : (s.setDlist m l).fab = s.fab := (rfl)
@[simp] theorem State.setDlist_lnk (s : State) (m : Nat) (l : DList) : (s.setDlist m l).lnk = s.lnk := (rfl)

/-! ## setGrp -/

@[simp] theorem State.setGrp_pending (s : State) (g : Nat) (x : Grp) : (s.setGrp g x).pending = s.pending := (rfl)
@[simp] theorem State.setGrp_free (s : State) (g : Nat) (x : Grp) : (s.setGrp g x).free = s.free := (rfl)
@[simp] theorem State.setGrp_hostRead (s : State) (g : Nat) (x : Grp) : (s.setGrp g x).hostRead = s.hostRead := (rfl)
@[simp] theorem State.setGrp_irqs (s : State) (g : Nat) (x : Grp) : (s.setGrp g x).irqs = s.irqs := (rfl)
@[simp] theorem State.setGrp_pcie (s : State) (g : Nat) (x : Grp) : (s.setGrp g x).pcie = s.pcie := (rfl)
@[simp] theorem State.setGrp_regs (s : State) (g : Nat) (x : Grp) : (s.setGrp g x).regs = s.regs := (rfl)
@[simp] theorem State.setGrp_timed (s : State) (g : Nat) (x : Grp) : (s.setGrp g x).timed = s.timed := (rfl)
@[simp] theorem State.setGrp_raised (s : State) (g : Nat) (x : Grp) : (s.setGrp g x).raised = s.raised := (rfl)
@[simp] theorem State.setGrp_ic (s : State) (g : Nat) (x : Grp) : (s.setGrp g x).ic = s.ic := (rfl)
@[simp] theorem State.setGrp_holdRead (s : State) (g : Nat) (x : Grp) : (s.setGrp g x).holdRead = s.holdRead := (rfl)
@[simp] theorem State.setGrp_holdWrite (s : State) (g : Nat) (x : Grp) : (s.setGrp g x).holdWrite = s.holdWrite := (rfl)
@[simp] theorem State.setGrp_clk (s : State) (g : Nat) (x : Grp) : (s.setGrp g x).clk = s.clk := (rfl)
@[simp] theorem State.setGrp_tly (s : State) (g : Nat) (x : Grp) : (s.setGrp g x).tly = s.tly := (rfl)
@[simp] theorem State.setGrp_ldg (s : State) (g : Nat) (x : Grp) : (s.setGrp g x).ldg = s.ldg := (rfl)
@[simp] theorem State.setGrp_hostMem (s : State) (g : Nat) (x : Grp) : (s.setGrp g x).hostMem = s.hostMem := (rfl)
@[simp] theorem State.setGrp_hostBad (s : State) (g : Nat) (x : Grp) : (s.setGrp g x).hostBad = s.hostBad := (rfl)
@[simp] theorem State.setGrp_faults (s : State) (g : Nat) (x : Grp) : (s.setGrp g x).faults = s.faults := (rfl)
@[simp] theorem State.setGrp_stall (s : State) (g : Nat) (x : Grp) : (s.setGrp g x).stall = s.stall := (rfl)
@[simp] theorem State.setGrp_hwk (s : State) (g : Nat) (x : Grp) : (s.setGrp g x).hwk = s.hwk := (rfl)
@[simp] theorem State.setGrp_core (s : State) (g : Nat) (x : Grp) : (s.setGrp g x).core = s.core := (rfl)
@[simp] theorem State.setGrp_prog (s : State) (g : Nat) (x : Grp) : (s.setGrp g x).prog = s.prog := (rfl)
@[simp] theorem State.setGrp_localMem (s : State) (g : Nat) (x : Grp) : (s.setGrp g x).localMem = s.localMem := (rfl)
@[simp] theorem State.setGrp_localBad (s : State) (g : Nat) (x : Grp) : (s.setGrp g x).localBad = s.localBad := (rfl)
@[simp] theorem State.setGrp_localSoft (s : State) (g : Nat) (x : Grp) : (s.setGrp g x).localSoft = s.localSoft := (rfl)
@[simp] theorem State.setGrp_sram (s : State) (g : Nat) (x : Grp) : (s.setGrp g x).sram = s.sram := (rfl)
@[simp] theorem State.setGrp_sramBad (s : State) (g : Nat) (x : Grp) : (s.setGrp g x).sramBad = s.sramBad := (rfl)
@[simp] theorem State.setGrp_slice (s : State) (g : Nat) (x : Grp) : (s.setGrp g x).slice = s.slice := (rfl)
@[simp] theorem State.setGrp_line (s : State) (g : Nat) (x : Grp) : (s.setGrp g x).line = s.line := (rfl)
@[simp] theorem State.setGrp_serve (s : State) (g : Nat) (x : Grp) : (s.setGrp g x).serve = s.serve := (rfl)
@[simp] theorem State.setGrp_bank (s : State) (g : Nat) (x : Grp) : (s.setGrp g x).bank = s.bank := (rfl)
@[simp] theorem State.setGrp_conv (s : State) (g : Nat) (x : Grp) : (s.setGrp g x).conv = s.conv := (rfl)
@[simp] theorem State.setGrp_mode (s : State) (g : Nat) (x : Grp) : (s.setGrp g x).mode = s.mode := (rfl)
@[simp] theorem State.setGrp_coord (s : State) (g : Nat) (x : Grp) : (s.setGrp g x).coord = s.coord := (rfl)
@[simp] theorem State.setGrp_phase (s : State) (g : Nat) (x : Grp) : (s.setGrp g x).phase = s.phase := (rfl)
@[simp] theorem State.setGrp_dl (s : State) (g : Nat) (x : Grp) : (s.setGrp g x).dl = s.dl := (rfl)
@[simp] theorem State.setGrp_cmp (s : State) (g : Nat) (x : Grp) : (s.setGrp g x).cmp = s.cmp := (rfl)
@[simp] theorem State.setGrp_step (s : State) (g : Nat) (x : Grp) : (s.setGrp g x).step = s.step := (rfl)
@[simp] theorem State.setGrp_dram (s : State) (g : Nat) (x : Grp) : (s.setGrp g x).dram = s.dram := (rfl)
@[simp] theorem State.setGrp_dramBad (s : State) (g : Nat) (x : Grp) : (s.setGrp g x).dramBad = s.dramBad := (rfl)
@[simp] theorem State.setGrp_fbk (s : State) (g : Nat) (x : Grp) : (s.setGrp g x).fbk = s.fbk := (rfl)
@[simp] theorem State.setGrp_emu (s : State) (g : Nat) (x : Grp) : (s.setGrp g x).emu = s.emu := (rfl)
@[simp] theorem State.setGrp_balls (s : State) (g : Nat) (x : Grp) : (s.setGrp g x).balls = s.balls := (rfl)
@[simp] theorem State.setGrp_tclkGone (s : State) (g : Nat) (x : Grp) : (s.setGrp g x).tclkGone = s.tclkGone := (rfl)
@[simp] theorem State.setGrp_motionHalted (s : State) (g : Nat) (x : Grp) : (s.setGrp g x).motionHalted = s.motionHalted := (rfl)
@[simp] theorem State.setGrp_cmBad (s : State) (g : Nat) (x : Grp) : (s.setGrp g x).cmBad = s.cmBad := (rfl)
@[simp] theorem State.setGrp_cmOut (s : State) (g : Nat) (x : Grp) : (s.setGrp g x).cmOut = s.cmOut := (rfl)
@[simp] theorem State.setGrp_cmLast (s : State) (g : Nat) (x : Grp) : (s.setGrp g x).cmLast = s.cmLast := (rfl)
@[simp] theorem State.setGrp_sramTold (s : State) (g : Nat) (x : Grp) : (s.setGrp g x).sramTold = s.sramTold := (rfl)
@[simp] theorem State.setGrp_saf (s : State) (g : Nat) (x : Grp) : (s.setGrp g x).saf = s.saf := (rfl)
@[simp] theorem State.setGrp_sec (s : State) (g : Nat) (x : Grp) : (s.setGrp g x).sec = s.sec := (rfl)
@[simp] theorem State.setGrp_pwr (s : State) (g : Nat) (x : Grp) : (s.setGrp g x).pwr = s.pwr := (rfl)
@[simp] theorem State.setGrp_twin (s : State) (g : Nat) (x : Grp) : (s.setGrp g x).twin = s.twin := (rfl)
@[simp] theorem State.setGrp_fab (s : State) (g : Nat) (x : Grp) : (s.setGrp g x).fab = s.fab := (rfl)
@[simp] theorem State.setGrp_lnk (s : State) (g : Nat) (x : Grp) : (s.setGrp g x).lnk = s.lnk := (rfl)

/-! ## setStepper -/

@[simp] theorem State.setStepper_pending (s : State) (n : Nat) (x : Stepper) : (s.setStepper n x).pending = s.pending := (rfl)
@[simp] theorem State.setStepper_free (s : State) (n : Nat) (x : Stepper) : (s.setStepper n x).free = s.free := (rfl)
@[simp] theorem State.setStepper_hostRead (s : State) (n : Nat) (x : Stepper) : (s.setStepper n x).hostRead = s.hostRead := (rfl)
@[simp] theorem State.setStepper_irqs (s : State) (n : Nat) (x : Stepper) : (s.setStepper n x).irqs = s.irqs := (rfl)
@[simp] theorem State.setStepper_pcie (s : State) (n : Nat) (x : Stepper) : (s.setStepper n x).pcie = s.pcie := (rfl)
@[simp] theorem State.setStepper_regs (s : State) (n : Nat) (x : Stepper) : (s.setStepper n x).regs = s.regs := (rfl)
@[simp] theorem State.setStepper_timed (s : State) (n : Nat) (x : Stepper) : (s.setStepper n x).timed = s.timed := (rfl)
@[simp] theorem State.setStepper_raised (s : State) (n : Nat) (x : Stepper) : (s.setStepper n x).raised = s.raised := (rfl)
@[simp] theorem State.setStepper_ic (s : State) (n : Nat) (x : Stepper) : (s.setStepper n x).ic = s.ic := (rfl)
@[simp] theorem State.setStepper_holdRead (s : State) (n : Nat) (x : Stepper) : (s.setStepper n x).holdRead = s.holdRead := (rfl)
@[simp] theorem State.setStepper_holdWrite (s : State) (n : Nat) (x : Stepper) : (s.setStepper n x).holdWrite = s.holdWrite := (rfl)
@[simp] theorem State.setStepper_clk (s : State) (n : Nat) (x : Stepper) : (s.setStepper n x).clk = s.clk := (rfl)
@[simp] theorem State.setStepper_tly (s : State) (n : Nat) (x : Stepper) : (s.setStepper n x).tly = s.tly := (rfl)
@[simp] theorem State.setStepper_ldg (s : State) (n : Nat) (x : Stepper) : (s.setStepper n x).ldg = s.ldg := (rfl)
@[simp] theorem State.setStepper_hostMem (s : State) (n : Nat) (x : Stepper) : (s.setStepper n x).hostMem = s.hostMem := (rfl)
@[simp] theorem State.setStepper_hostBad (s : State) (n : Nat) (x : Stepper) : (s.setStepper n x).hostBad = s.hostBad := (rfl)
@[simp] theorem State.setStepper_faults (s : State) (n : Nat) (x : Stepper) : (s.setStepper n x).faults = s.faults := (rfl)
@[simp] theorem State.setStepper_stall (s : State) (n : Nat) (x : Stepper) : (s.setStepper n x).stall = s.stall := (rfl)
@[simp] theorem State.setStepper_hwk (s : State) (n : Nat) (x : Stepper) : (s.setStepper n x).hwk = s.hwk := (rfl)
@[simp] theorem State.setStepper_core (s : State) (n : Nat) (x : Stepper) : (s.setStepper n x).core = s.core := (rfl)
@[simp] theorem State.setStepper_prog (s : State) (n : Nat) (x : Stepper) : (s.setStepper n x).prog = s.prog := (rfl)
@[simp] theorem State.setStepper_localMem (s : State) (n : Nat) (x : Stepper) : (s.setStepper n x).localMem = s.localMem := (rfl)
@[simp] theorem State.setStepper_localBad (s : State) (n : Nat) (x : Stepper) : (s.setStepper n x).localBad = s.localBad := (rfl)
@[simp] theorem State.setStepper_localSoft (s : State) (n : Nat) (x : Stepper) : (s.setStepper n x).localSoft = s.localSoft := (rfl)
@[simp] theorem State.setStepper_sram (s : State) (n : Nat) (x : Stepper) : (s.setStepper n x).sram = s.sram := (rfl)
@[simp] theorem State.setStepper_sramBad (s : State) (n : Nat) (x : Stepper) : (s.setStepper n x).sramBad = s.sramBad := (rfl)
@[simp] theorem State.setStepper_slice (s : State) (n : Nat) (x : Stepper) : (s.setStepper n x).slice = s.slice := (rfl)
@[simp] theorem State.setStepper_line (s : State) (n : Nat) (x : Stepper) : (s.setStepper n x).line = s.line := (rfl)
@[simp] theorem State.setStepper_serve (s : State) (n : Nat) (x : Stepper) : (s.setStepper n x).serve = s.serve := (rfl)
@[simp] theorem State.setStepper_bank (s : State) (n : Nat) (x : Stepper) : (s.setStepper n x).bank = s.bank := (rfl)
@[simp] theorem State.setStepper_conv (s : State) (n : Nat) (x : Stepper) : (s.setStepper n x).conv = s.conv := (rfl)
@[simp] theorem State.setStepper_mode (s : State) (n : Nat) (x : Stepper) : (s.setStepper n x).mode = s.mode := (rfl)
@[simp] theorem State.setStepper_coord (s : State) (n : Nat) (x : Stepper) : (s.setStepper n x).coord = s.coord := (rfl)
@[simp] theorem State.setStepper_phase (s : State) (n : Nat) (x : Stepper) : (s.setStepper n x).phase = s.phase := (rfl)
@[simp] theorem State.setStepper_dl (s : State) (n : Nat) (x : Stepper) : (s.setStepper n x).dl = s.dl := (rfl)
@[simp] theorem State.setStepper_grp (s : State) (n : Nat) (x : Stepper) : (s.setStepper n x).grp = s.grp := (rfl)
@[simp] theorem State.setStepper_cmp (s : State) (n : Nat) (x : Stepper) : (s.setStepper n x).cmp = s.cmp := (rfl)
@[simp] theorem State.setStepper_dram (s : State) (n : Nat) (x : Stepper) : (s.setStepper n x).dram = s.dram := (rfl)
@[simp] theorem State.setStepper_dramBad (s : State) (n : Nat) (x : Stepper) : (s.setStepper n x).dramBad = s.dramBad := (rfl)
@[simp] theorem State.setStepper_fbk (s : State) (n : Nat) (x : Stepper) : (s.setStepper n x).fbk = s.fbk := (rfl)
@[simp] theorem State.setStepper_emu (s : State) (n : Nat) (x : Stepper) : (s.setStepper n x).emu = s.emu := (rfl)
@[simp] theorem State.setStepper_balls (s : State) (n : Nat) (x : Stepper) : (s.setStepper n x).balls = s.balls := (rfl)
@[simp] theorem State.setStepper_tclkGone (s : State) (n : Nat) (x : Stepper) : (s.setStepper n x).tclkGone = s.tclkGone := (rfl)
@[simp] theorem State.setStepper_motionHalted (s : State) (n : Nat) (x : Stepper) : (s.setStepper n x).motionHalted = s.motionHalted := (rfl)
@[simp] theorem State.setStepper_cmBad (s : State) (n : Nat) (x : Stepper) : (s.setStepper n x).cmBad = s.cmBad := (rfl)
@[simp] theorem State.setStepper_cmOut (s : State) (n : Nat) (x : Stepper) : (s.setStepper n x).cmOut = s.cmOut := (rfl)
@[simp] theorem State.setStepper_cmLast (s : State) (n : Nat) (x : Stepper) : (s.setStepper n x).cmLast = s.cmLast := (rfl)
@[simp] theorem State.setStepper_sramTold (s : State) (n : Nat) (x : Stepper) : (s.setStepper n x).sramTold = s.sramTold := (rfl)
@[simp] theorem State.setStepper_saf (s : State) (n : Nat) (x : Stepper) : (s.setStepper n x).saf = s.saf := (rfl)
@[simp] theorem State.setStepper_sec (s : State) (n : Nat) (x : Stepper) : (s.setStepper n x).sec = s.sec := (rfl)
@[simp] theorem State.setStepper_pwr (s : State) (n : Nat) (x : Stepper) : (s.setStepper n x).pwr = s.pwr := (rfl)
@[simp] theorem State.setStepper_twin (s : State) (n : Nat) (x : Stepper) : (s.setStepper n x).twin = s.twin := (rfl)
@[simp] theorem State.setStepper_fab (s : State) (n : Nat) (x : Stepper) : (s.setStepper n x).fab = s.fab := (rfl)
@[simp] theorem State.setStepper_lnk (s : State) (n : Nat) (x : Stepper) : (s.setStepper n x).lnk = s.lnk := (rfl)

/-! ## setEmu -/

@[simp] theorem State.setEmu_pending (s : State) (b : Nat) (x : Emu) : (s.setEmu b x).pending = s.pending := (rfl)
@[simp] theorem State.setEmu_free (s : State) (b : Nat) (x : Emu) : (s.setEmu b x).free = s.free := (rfl)
@[simp] theorem State.setEmu_hostRead (s : State) (b : Nat) (x : Emu) : (s.setEmu b x).hostRead = s.hostRead := (rfl)
@[simp] theorem State.setEmu_irqs (s : State) (b : Nat) (x : Emu) : (s.setEmu b x).irqs = s.irqs := (rfl)
@[simp] theorem State.setEmu_pcie (s : State) (b : Nat) (x : Emu) : (s.setEmu b x).pcie = s.pcie := (rfl)
@[simp] theorem State.setEmu_regs (s : State) (b : Nat) (x : Emu) : (s.setEmu b x).regs = s.regs := (rfl)
@[simp] theorem State.setEmu_timed (s : State) (b : Nat) (x : Emu) : (s.setEmu b x).timed = s.timed := (rfl)
@[simp] theorem State.setEmu_raised (s : State) (b : Nat) (x : Emu) : (s.setEmu b x).raised = s.raised := (rfl)
@[simp] theorem State.setEmu_ic (s : State) (b : Nat) (x : Emu) : (s.setEmu b x).ic = s.ic := (rfl)
@[simp] theorem State.setEmu_holdRead (s : State) (b : Nat) (x : Emu) : (s.setEmu b x).holdRead = s.holdRead := (rfl)
@[simp] theorem State.setEmu_holdWrite (s : State) (b : Nat) (x : Emu) : (s.setEmu b x).holdWrite = s.holdWrite := (rfl)
@[simp] theorem State.setEmu_clk (s : State) (b : Nat) (x : Emu) : (s.setEmu b x).clk = s.clk := (rfl)
@[simp] theorem State.setEmu_tly (s : State) (b : Nat) (x : Emu) : (s.setEmu b x).tly = s.tly := (rfl)
@[simp] theorem State.setEmu_ldg (s : State) (b : Nat) (x : Emu) : (s.setEmu b x).ldg = s.ldg := (rfl)
@[simp] theorem State.setEmu_hostMem (s : State) (b : Nat) (x : Emu) : (s.setEmu b x).hostMem = s.hostMem := (rfl)
@[simp] theorem State.setEmu_hostBad (s : State) (b : Nat) (x : Emu) : (s.setEmu b x).hostBad = s.hostBad := (rfl)
@[simp] theorem State.setEmu_faults (s : State) (b : Nat) (x : Emu) : (s.setEmu b x).faults = s.faults := (rfl)
@[simp] theorem State.setEmu_stall (s : State) (b : Nat) (x : Emu) : (s.setEmu b x).stall = s.stall := (rfl)
@[simp] theorem State.setEmu_hwk (s : State) (b : Nat) (x : Emu) : (s.setEmu b x).hwk = s.hwk := (rfl)
@[simp] theorem State.setEmu_core (s : State) (b : Nat) (x : Emu) : (s.setEmu b x).core = s.core := (rfl)
@[simp] theorem State.setEmu_prog (s : State) (b : Nat) (x : Emu) : (s.setEmu b x).prog = s.prog := (rfl)
@[simp] theorem State.setEmu_localMem (s : State) (b : Nat) (x : Emu) : (s.setEmu b x).localMem = s.localMem := (rfl)
@[simp] theorem State.setEmu_localBad (s : State) (b : Nat) (x : Emu) : (s.setEmu b x).localBad = s.localBad := (rfl)
@[simp] theorem State.setEmu_localSoft (s : State) (b : Nat) (x : Emu) : (s.setEmu b x).localSoft = s.localSoft := (rfl)
@[simp] theorem State.setEmu_sram (s : State) (b : Nat) (x : Emu) : (s.setEmu b x).sram = s.sram := (rfl)
@[simp] theorem State.setEmu_sramBad (s : State) (b : Nat) (x : Emu) : (s.setEmu b x).sramBad = s.sramBad := (rfl)
@[simp] theorem State.setEmu_slice (s : State) (b : Nat) (x : Emu) : (s.setEmu b x).slice = s.slice := (rfl)
@[simp] theorem State.setEmu_line (s : State) (b : Nat) (x : Emu) : (s.setEmu b x).line = s.line := (rfl)
@[simp] theorem State.setEmu_serve (s : State) (b : Nat) (x : Emu) : (s.setEmu b x).serve = s.serve := (rfl)
@[simp] theorem State.setEmu_bank (s : State) (b : Nat) (x : Emu) : (s.setEmu b x).bank = s.bank := (rfl)
@[simp] theorem State.setEmu_conv (s : State) (b : Nat) (x : Emu) : (s.setEmu b x).conv = s.conv := (rfl)
@[simp] theorem State.setEmu_mode (s : State) (b : Nat) (x : Emu) : (s.setEmu b x).mode = s.mode := (rfl)
@[simp] theorem State.setEmu_coord (s : State) (b : Nat) (x : Emu) : (s.setEmu b x).coord = s.coord := (rfl)
@[simp] theorem State.setEmu_phase (s : State) (b : Nat) (x : Emu) : (s.setEmu b x).phase = s.phase := (rfl)
@[simp] theorem State.setEmu_dl (s : State) (b : Nat) (x : Emu) : (s.setEmu b x).dl = s.dl := (rfl)
@[simp] theorem State.setEmu_grp (s : State) (b : Nat) (x : Emu) : (s.setEmu b x).grp = s.grp := (rfl)
@[simp] theorem State.setEmu_cmp (s : State) (b : Nat) (x : Emu) : (s.setEmu b x).cmp = s.cmp := (rfl)
@[simp] theorem State.setEmu_step (s : State) (b : Nat) (x : Emu) : (s.setEmu b x).step = s.step := (rfl)
@[simp] theorem State.setEmu_dram (s : State) (b : Nat) (x : Emu) : (s.setEmu b x).dram = s.dram := (rfl)
@[simp] theorem State.setEmu_dramBad (s : State) (b : Nat) (x : Emu) : (s.setEmu b x).dramBad = s.dramBad := (rfl)
@[simp] theorem State.setEmu_fbk (s : State) (b : Nat) (x : Emu) : (s.setEmu b x).fbk = s.fbk := (rfl)
@[simp] theorem State.setEmu_balls (s : State) (b : Nat) (x : Emu) : (s.setEmu b x).balls = s.balls := (rfl)
@[simp] theorem State.setEmu_tclkGone (s : State) (b : Nat) (x : Emu) : (s.setEmu b x).tclkGone = s.tclkGone := (rfl)
@[simp] theorem State.setEmu_motionHalted (s : State) (b : Nat) (x : Emu) : (s.setEmu b x).motionHalted = s.motionHalted := (rfl)
@[simp] theorem State.setEmu_cmBad (s : State) (b : Nat) (x : Emu) : (s.setEmu b x).cmBad = s.cmBad := (rfl)
@[simp] theorem State.setEmu_cmOut (s : State) (b : Nat) (x : Emu) : (s.setEmu b x).cmOut = s.cmOut := (rfl)
@[simp] theorem State.setEmu_cmLast (s : State) (b : Nat) (x : Emu) : (s.setEmu b x).cmLast = s.cmLast := (rfl)
@[simp] theorem State.setEmu_sramTold (s : State) (b : Nat) (x : Emu) : (s.setEmu b x).sramTold = s.sramTold := (rfl)
@[simp] theorem State.setEmu_saf (s : State) (b : Nat) (x : Emu) : (s.setEmu b x).saf = s.saf := (rfl)
@[simp] theorem State.setEmu_sec (s : State) (b : Nat) (x : Emu) : (s.setEmu b x).sec = s.sec := (rfl)
@[simp] theorem State.setEmu_pwr (s : State) (b : Nat) (x : Emu) : (s.setEmu b x).pwr = s.pwr := (rfl)
@[simp] theorem State.setEmu_twin (s : State) (b : Nat) (x : Emu) : (s.setEmu b x).twin = s.twin := (rfl)
@[simp] theorem State.setEmu_fab (s : State) (b : Nat) (x : Emu) : (s.setEmu b x).fab = s.fab := (rfl)
@[simp] theorem State.setEmu_lnk (s : State) (b : Nat) (x : Emu) : (s.setEmu b x).lnk = s.lnk := (rfl)

/-! ## setLine -/

@[simp] theorem State.setLine_pending (s : State) (n l : Nat) (x : Line) : (s.setLine n l x).pending = s.pending := (rfl)
@[simp] theorem State.setLine_free (s : State) (n l : Nat) (x : Line) : (s.setLine n l x).free = s.free := (rfl)
@[simp] theorem State.setLine_hostRead (s : State) (n l : Nat) (x : Line) : (s.setLine n l x).hostRead = s.hostRead := (rfl)
@[simp] theorem State.setLine_irqs (s : State) (n l : Nat) (x : Line) : (s.setLine n l x).irqs = s.irqs := (rfl)
@[simp] theorem State.setLine_pcie (s : State) (n l : Nat) (x : Line) : (s.setLine n l x).pcie = s.pcie := (rfl)
@[simp] theorem State.setLine_regs (s : State) (n l : Nat) (x : Line) : (s.setLine n l x).regs = s.regs := (rfl)
@[simp] theorem State.setLine_timed (s : State) (n l : Nat) (x : Line) : (s.setLine n l x).timed = s.timed := (rfl)
@[simp] theorem State.setLine_raised (s : State) (n l : Nat) (x : Line) : (s.setLine n l x).raised = s.raised := (rfl)
@[simp] theorem State.setLine_ic (s : State) (n l : Nat) (x : Line) : (s.setLine n l x).ic = s.ic := (rfl)
@[simp] theorem State.setLine_holdRead (s : State) (n l : Nat) (x : Line) : (s.setLine n l x).holdRead = s.holdRead := (rfl)
@[simp] theorem State.setLine_holdWrite (s : State) (n l : Nat) (x : Line) : (s.setLine n l x).holdWrite = s.holdWrite := (rfl)
@[simp] theorem State.setLine_clk (s : State) (n l : Nat) (x : Line) : (s.setLine n l x).clk = s.clk := (rfl)
@[simp] theorem State.setLine_tly (s : State) (n l : Nat) (x : Line) : (s.setLine n l x).tly = s.tly := (rfl)
@[simp] theorem State.setLine_ldg (s : State) (n l : Nat) (x : Line) : (s.setLine n l x).ldg = s.ldg := (rfl)
@[simp] theorem State.setLine_hostMem (s : State) (n l : Nat) (x : Line) : (s.setLine n l x).hostMem = s.hostMem := (rfl)
@[simp] theorem State.setLine_hostBad (s : State) (n l : Nat) (x : Line) : (s.setLine n l x).hostBad = s.hostBad := (rfl)
@[simp] theorem State.setLine_faults (s : State) (n l : Nat) (x : Line) : (s.setLine n l x).faults = s.faults := (rfl)
@[simp] theorem State.setLine_stall (s : State) (n l : Nat) (x : Line) : (s.setLine n l x).stall = s.stall := (rfl)
@[simp] theorem State.setLine_hwk (s : State) (n l : Nat) (x : Line) : (s.setLine n l x).hwk = s.hwk := (rfl)
@[simp] theorem State.setLine_core (s : State) (n l : Nat) (x : Line) : (s.setLine n l x).core = s.core := (rfl)
@[simp] theorem State.setLine_prog (s : State) (n l : Nat) (x : Line) : (s.setLine n l x).prog = s.prog := (rfl)
@[simp] theorem State.setLine_localMem (s : State) (n l : Nat) (x : Line) : (s.setLine n l x).localMem = s.localMem := (rfl)
@[simp] theorem State.setLine_localBad (s : State) (n l : Nat) (x : Line) : (s.setLine n l x).localBad = s.localBad := (rfl)
@[simp] theorem State.setLine_localSoft (s : State) (n l : Nat) (x : Line) : (s.setLine n l x).localSoft = s.localSoft := (rfl)
@[simp] theorem State.setLine_sram (s : State) (n l : Nat) (x : Line) : (s.setLine n l x).sram = s.sram := (rfl)
@[simp] theorem State.setLine_sramBad (s : State) (n l : Nat) (x : Line) : (s.setLine n l x).sramBad = s.sramBad := (rfl)
@[simp] theorem State.setLine_slice (s : State) (n l : Nat) (x : Line) : (s.setLine n l x).slice = s.slice := (rfl)
@[simp] theorem State.setLine_serve (s : State) (n l : Nat) (x : Line) : (s.setLine n l x).serve = s.serve := (rfl)
@[simp] theorem State.setLine_bank (s : State) (n l : Nat) (x : Line) : (s.setLine n l x).bank = s.bank := (rfl)
@[simp] theorem State.setLine_conv (s : State) (n l : Nat) (x : Line) : (s.setLine n l x).conv = s.conv := (rfl)
@[simp] theorem State.setLine_mode (s : State) (n l : Nat) (x : Line) : (s.setLine n l x).mode = s.mode := (rfl)
@[simp] theorem State.setLine_coord (s : State) (n l : Nat) (x : Line) : (s.setLine n l x).coord = s.coord := (rfl)
@[simp] theorem State.setLine_phase (s : State) (n l : Nat) (x : Line) : (s.setLine n l x).phase = s.phase := (rfl)
@[simp] theorem State.setLine_dl (s : State) (n l : Nat) (x : Line) : (s.setLine n l x).dl = s.dl := (rfl)
@[simp] theorem State.setLine_grp (s : State) (n l : Nat) (x : Line) : (s.setLine n l x).grp = s.grp := (rfl)
@[simp] theorem State.setLine_cmp (s : State) (n l : Nat) (x : Line) : (s.setLine n l x).cmp = s.cmp := (rfl)
@[simp] theorem State.setLine_step (s : State) (n l : Nat) (x : Line) : (s.setLine n l x).step = s.step := (rfl)
@[simp] theorem State.setLine_dram (s : State) (n l : Nat) (x : Line) : (s.setLine n l x).dram = s.dram := (rfl)
@[simp] theorem State.setLine_dramBad (s : State) (n l : Nat) (x : Line) : (s.setLine n l x).dramBad = s.dramBad := (rfl)
@[simp] theorem State.setLine_fbk (s : State) (n l : Nat) (x : Line) : (s.setLine n l x).fbk = s.fbk := (rfl)
@[simp] theorem State.setLine_emu (s : State) (n l : Nat) (x : Line) : (s.setLine n l x).emu = s.emu := (rfl)
@[simp] theorem State.setLine_balls (s : State) (n l : Nat) (x : Line) : (s.setLine n l x).balls = s.balls := (rfl)
@[simp] theorem State.setLine_tclkGone (s : State) (n l : Nat) (x : Line) : (s.setLine n l x).tclkGone = s.tclkGone := (rfl)
@[simp] theorem State.setLine_motionHalted (s : State) (n l : Nat) (x : Line) : (s.setLine n l x).motionHalted = s.motionHalted := (rfl)
@[simp] theorem State.setLine_cmBad (s : State) (n l : Nat) (x : Line) : (s.setLine n l x).cmBad = s.cmBad := (rfl)
@[simp] theorem State.setLine_cmOut (s : State) (n l : Nat) (x : Line) : (s.setLine n l x).cmOut = s.cmOut := (rfl)
@[simp] theorem State.setLine_cmLast (s : State) (n l : Nat) (x : Line) : (s.setLine n l x).cmLast = s.cmLast := (rfl)
@[simp] theorem State.setLine_sramTold (s : State) (n l : Nat) (x : Line) : (s.setLine n l x).sramTold = s.sramTold := (rfl)
@[simp] theorem State.setLine_saf (s : State) (n l : Nat) (x : Line) : (s.setLine n l x).saf = s.saf := (rfl)
@[simp] theorem State.setLine_sec (s : State) (n l : Nat) (x : Line) : (s.setLine n l x).sec = s.sec := (rfl)
@[simp] theorem State.setLine_pwr (s : State) (n l : Nat) (x : Line) : (s.setLine n l x).pwr = s.pwr := (rfl)
@[simp] theorem State.setLine_twin (s : State) (n l : Nat) (x : Line) : (s.setLine n l x).twin = s.twin := (rfl)
@[simp] theorem State.setLine_fab (s : State) (n l : Nat) (x : Line) : (s.setLine n l x).fab = s.fab := (rfl)
@[simp] theorem State.setLine_lnk (s : State) (n l : Nat) (x : Line) : (s.setLine n l x).lnk = s.lnk := (rfl)

/-! ## setServing -/

@[simp] theorem State.setServing_pending (s : State) (n x l : Nat) : (s.setServing n x l).pending = s.pending := (rfl)
@[simp] theorem State.setServing_free (s : State) (n x l : Nat) : (s.setServing n x l).free = s.free := (rfl)
@[simp] theorem State.setServing_hostRead (s : State) (n x l : Nat) : (s.setServing n x l).hostRead = s.hostRead := (rfl)
@[simp] theorem State.setServing_irqs (s : State) (n x l : Nat) : (s.setServing n x l).irqs = s.irqs := (rfl)
@[simp] theorem State.setServing_pcie (s : State) (n x l : Nat) : (s.setServing n x l).pcie = s.pcie := (rfl)
@[simp] theorem State.setServing_regs (s : State) (n x l : Nat) : (s.setServing n x l).regs = s.regs := (rfl)
@[simp] theorem State.setServing_timed (s : State) (n x l : Nat) : (s.setServing n x l).timed = s.timed := (rfl)
@[simp] theorem State.setServing_raised (s : State) (n x l : Nat) : (s.setServing n x l).raised = s.raised := (rfl)
@[simp] theorem State.setServing_ic (s : State) (n x l : Nat) : (s.setServing n x l).ic = s.ic := (rfl)
@[simp] theorem State.setServing_holdRead (s : State) (n x l : Nat) : (s.setServing n x l).holdRead = s.holdRead := (rfl)
@[simp] theorem State.setServing_holdWrite (s : State) (n x l : Nat) : (s.setServing n x l).holdWrite = s.holdWrite := (rfl)
@[simp] theorem State.setServing_clk (s : State) (n x l : Nat) : (s.setServing n x l).clk = s.clk := (rfl)
@[simp] theorem State.setServing_tly (s : State) (n x l : Nat) : (s.setServing n x l).tly = s.tly := (rfl)
@[simp] theorem State.setServing_ldg (s : State) (n x l : Nat) : (s.setServing n x l).ldg = s.ldg := (rfl)
@[simp] theorem State.setServing_hostMem (s : State) (n x l : Nat) : (s.setServing n x l).hostMem = s.hostMem := (rfl)
@[simp] theorem State.setServing_hostBad (s : State) (n x l : Nat) : (s.setServing n x l).hostBad = s.hostBad := (rfl)
@[simp] theorem State.setServing_faults (s : State) (n x l : Nat) : (s.setServing n x l).faults = s.faults := (rfl)
@[simp] theorem State.setServing_stall (s : State) (n x l : Nat) : (s.setServing n x l).stall = s.stall := (rfl)
@[simp] theorem State.setServing_hwk (s : State) (n x l : Nat) : (s.setServing n x l).hwk = s.hwk := (rfl)
@[simp] theorem State.setServing_core (s : State) (n x l : Nat) : (s.setServing n x l).core = s.core := (rfl)
@[simp] theorem State.setServing_prog (s : State) (n x l : Nat) : (s.setServing n x l).prog = s.prog := (rfl)
@[simp] theorem State.setServing_localMem (s : State) (n x l : Nat) : (s.setServing n x l).localMem = s.localMem := (rfl)
@[simp] theorem State.setServing_localBad (s : State) (n x l : Nat) : (s.setServing n x l).localBad = s.localBad := (rfl)
@[simp] theorem State.setServing_localSoft (s : State) (n x l : Nat) : (s.setServing n x l).localSoft = s.localSoft := (rfl)
@[simp] theorem State.setServing_sram (s : State) (n x l : Nat) : (s.setServing n x l).sram = s.sram := (rfl)
@[simp] theorem State.setServing_sramBad (s : State) (n x l : Nat) : (s.setServing n x l).sramBad = s.sramBad := (rfl)
@[simp] theorem State.setServing_slice (s : State) (n x l : Nat) : (s.setServing n x l).slice = s.slice := (rfl)
@[simp] theorem State.setServing_line (s : State) (n x l : Nat) : (s.setServing n x l).line = s.line := (rfl)
@[simp] theorem State.setServing_bank (s : State) (n x l : Nat) : (s.setServing n x l).bank = s.bank := (rfl)
@[simp] theorem State.setServing_conv (s : State) (n x l : Nat) : (s.setServing n x l).conv = s.conv := (rfl)
@[simp] theorem State.setServing_mode (s : State) (n x l : Nat) : (s.setServing n x l).mode = s.mode := (rfl)
@[simp] theorem State.setServing_coord (s : State) (n x l : Nat) : (s.setServing n x l).coord = s.coord := (rfl)
@[simp] theorem State.setServing_phase (s : State) (n x l : Nat) : (s.setServing n x l).phase = s.phase := (rfl)
@[simp] theorem State.setServing_dl (s : State) (n x l : Nat) : (s.setServing n x l).dl = s.dl := (rfl)
@[simp] theorem State.setServing_grp (s : State) (n x l : Nat) : (s.setServing n x l).grp = s.grp := (rfl)
@[simp] theorem State.setServing_cmp (s : State) (n x l : Nat) : (s.setServing n x l).cmp = s.cmp := (rfl)
@[simp] theorem State.setServing_step (s : State) (n x l : Nat) : (s.setServing n x l).step = s.step := (rfl)
@[simp] theorem State.setServing_dram (s : State) (n x l : Nat) : (s.setServing n x l).dram = s.dram := (rfl)
@[simp] theorem State.setServing_dramBad (s : State) (n x l : Nat) : (s.setServing n x l).dramBad = s.dramBad := (rfl)
@[simp] theorem State.setServing_fbk (s : State) (n x l : Nat) : (s.setServing n x l).fbk = s.fbk := (rfl)
@[simp] theorem State.setServing_emu (s : State) (n x l : Nat) : (s.setServing n x l).emu = s.emu := (rfl)
@[simp] theorem State.setServing_balls (s : State) (n x l : Nat) : (s.setServing n x l).balls = s.balls := (rfl)
@[simp] theorem State.setServing_tclkGone (s : State) (n x l : Nat) : (s.setServing n x l).tclkGone = s.tclkGone := (rfl)
@[simp] theorem State.setServing_motionHalted (s : State) (n x l : Nat) : (s.setServing n x l).motionHalted = s.motionHalted := (rfl)
@[simp] theorem State.setServing_cmBad (s : State) (n x l : Nat) : (s.setServing n x l).cmBad = s.cmBad := (rfl)
@[simp] theorem State.setServing_cmOut (s : State) (n x l : Nat) : (s.setServing n x l).cmOut = s.cmOut := (rfl)
@[simp] theorem State.setServing_cmLast (s : State) (n x l : Nat) : (s.setServing n x l).cmLast = s.cmLast := (rfl)
@[simp] theorem State.setServing_sramTold (s : State) (n x l : Nat) : (s.setServing n x l).sramTold = s.sramTold := (rfl)
@[simp] theorem State.setServing_saf (s : State) (n x l : Nat) : (s.setServing n x l).saf = s.saf := (rfl)
@[simp] theorem State.setServing_sec (s : State) (n x l : Nat) : (s.setServing n x l).sec = s.sec := (rfl)
@[simp] theorem State.setServing_pwr (s : State) (n x l : Nat) : (s.setServing n x l).pwr = s.pwr := (rfl)
@[simp] theorem State.setServing_twin (s : State) (n x l : Nat) : (s.setServing n x l).twin = s.twin := (rfl)
@[simp] theorem State.setServing_fab (s : State) (n x l : Nat) : (s.setServing n x l).fab = s.fab := (rfl)
@[simp] theorem State.setServing_lnk (s : State) (n x l : Nat) : (s.setServing n x l).lnk = s.lnk := (rfl)

/-! ## setPulse -/

@[simp] theorem State.setPulse_pending (s : State) (n : Nat) (p : Option Moment) : (s.setPulse n p).pending = s.pending := (rfl)
@[simp] theorem State.setPulse_free (s : State) (n : Nat) (p : Option Moment) : (s.setPulse n p).free = s.free := (rfl)
@[simp] theorem State.setPulse_hostRead (s : State) (n : Nat) (p : Option Moment) : (s.setPulse n p).hostRead = s.hostRead := (rfl)
@[simp] theorem State.setPulse_irqs (s : State) (n : Nat) (p : Option Moment) : (s.setPulse n p).irqs = s.irqs := (rfl)
@[simp] theorem State.setPulse_pcie (s : State) (n : Nat) (p : Option Moment) : (s.setPulse n p).pcie = s.pcie := (rfl)
@[simp] theorem State.setPulse_regs (s : State) (n : Nat) (p : Option Moment) : (s.setPulse n p).regs = s.regs := (rfl)
@[simp] theorem State.setPulse_timed (s : State) (n : Nat) (p : Option Moment) : (s.setPulse n p).timed = s.timed := (rfl)
@[simp] theorem State.setPulse_raised (s : State) (n : Nat) (p : Option Moment) : (s.setPulse n p).raised = s.raised := (rfl)
@[simp] theorem State.setPulse_ic (s : State) (n : Nat) (p : Option Moment) : (s.setPulse n p).ic = s.ic := (rfl)
@[simp] theorem State.setPulse_holdRead (s : State) (n : Nat) (p : Option Moment) : (s.setPulse n p).holdRead = s.holdRead := (rfl)
@[simp] theorem State.setPulse_holdWrite (s : State) (n : Nat) (p : Option Moment) : (s.setPulse n p).holdWrite = s.holdWrite := (rfl)
@[simp] theorem State.setPulse_clk (s : State) (n : Nat) (p : Option Moment) : (s.setPulse n p).clk = s.clk := (rfl)
@[simp] theorem State.setPulse_tly (s : State) (n : Nat) (p : Option Moment) : (s.setPulse n p).tly = s.tly := (rfl)
@[simp] theorem State.setPulse_ldg (s : State) (n : Nat) (p : Option Moment) : (s.setPulse n p).ldg = s.ldg := (rfl)
@[simp] theorem State.setPulse_hostMem (s : State) (n : Nat) (p : Option Moment) : (s.setPulse n p).hostMem = s.hostMem := (rfl)
@[simp] theorem State.setPulse_hostBad (s : State) (n : Nat) (p : Option Moment) : (s.setPulse n p).hostBad = s.hostBad := (rfl)
@[simp] theorem State.setPulse_faults (s : State) (n : Nat) (p : Option Moment) : (s.setPulse n p).faults = s.faults := (rfl)
@[simp] theorem State.setPulse_stall (s : State) (n : Nat) (p : Option Moment) : (s.setPulse n p).stall = s.stall := (rfl)
@[simp] theorem State.setPulse_hwk (s : State) (n : Nat) (p : Option Moment) : (s.setPulse n p).hwk = s.hwk := (rfl)
@[simp] theorem State.setPulse_core (s : State) (n : Nat) (p : Option Moment) : (s.setPulse n p).core = s.core := (rfl)
@[simp] theorem State.setPulse_prog (s : State) (n : Nat) (p : Option Moment) : (s.setPulse n p).prog = s.prog := (rfl)
@[simp] theorem State.setPulse_localMem (s : State) (n : Nat) (p : Option Moment) : (s.setPulse n p).localMem = s.localMem := (rfl)
@[simp] theorem State.setPulse_localBad (s : State) (n : Nat) (p : Option Moment) : (s.setPulse n p).localBad = s.localBad := (rfl)
@[simp] theorem State.setPulse_localSoft (s : State) (n : Nat) (p : Option Moment) : (s.setPulse n p).localSoft = s.localSoft := (rfl)
@[simp] theorem State.setPulse_sram (s : State) (n : Nat) (p : Option Moment) : (s.setPulse n p).sram = s.sram := (rfl)
@[simp] theorem State.setPulse_sramBad (s : State) (n : Nat) (p : Option Moment) : (s.setPulse n p).sramBad = s.sramBad := (rfl)
@[simp] theorem State.setPulse_slice (s : State) (n : Nat) (p : Option Moment) : (s.setPulse n p).slice = s.slice := (rfl)
@[simp] theorem State.setPulse_line (s : State) (n : Nat) (p : Option Moment) : (s.setPulse n p).line = s.line := (rfl)
@[simp] theorem State.setPulse_serve (s : State) (n : Nat) (p : Option Moment) : (s.setPulse n p).serve = s.serve := (rfl)
@[simp] theorem State.setPulse_bank (s : State) (n : Nat) (p : Option Moment) : (s.setPulse n p).bank = s.bank := (rfl)
@[simp] theorem State.setPulse_conv (s : State) (n : Nat) (p : Option Moment) : (s.setPulse n p).conv = s.conv := (rfl)
@[simp] theorem State.setPulse_mode (s : State) (n : Nat) (p : Option Moment) : (s.setPulse n p).mode = s.mode := (rfl)
@[simp] theorem State.setPulse_coord (s : State) (n : Nat) (p : Option Moment) : (s.setPulse n p).coord = s.coord := (rfl)
@[simp] theorem State.setPulse_phase (s : State) (n : Nat) (p : Option Moment) : (s.setPulse n p).phase = s.phase := (rfl)
@[simp] theorem State.setPulse_dl (s : State) (n : Nat) (p : Option Moment) : (s.setPulse n p).dl = s.dl := (rfl)
@[simp] theorem State.setPulse_grp (s : State) (n : Nat) (p : Option Moment) : (s.setPulse n p).grp = s.grp := (rfl)
@[simp] theorem State.setPulse_step (s : State) (n : Nat) (p : Option Moment) : (s.setPulse n p).step = s.step := (rfl)
@[simp] theorem State.setPulse_dram (s : State) (n : Nat) (p : Option Moment) : (s.setPulse n p).dram = s.dram := (rfl)
@[simp] theorem State.setPulse_dramBad (s : State) (n : Nat) (p : Option Moment) : (s.setPulse n p).dramBad = s.dramBad := (rfl)
@[simp] theorem State.setPulse_fbk (s : State) (n : Nat) (p : Option Moment) : (s.setPulse n p).fbk = s.fbk := (rfl)
@[simp] theorem State.setPulse_emu (s : State) (n : Nat) (p : Option Moment) : (s.setPulse n p).emu = s.emu := (rfl)
@[simp] theorem State.setPulse_balls (s : State) (n : Nat) (p : Option Moment) : (s.setPulse n p).balls = s.balls := (rfl)
@[simp] theorem State.setPulse_tclkGone (s : State) (n : Nat) (p : Option Moment) : (s.setPulse n p).tclkGone = s.tclkGone := (rfl)
@[simp] theorem State.setPulse_motionHalted (s : State) (n : Nat) (p : Option Moment) : (s.setPulse n p).motionHalted = s.motionHalted := (rfl)
@[simp] theorem State.setPulse_cmBad (s : State) (n : Nat) (p : Option Moment) : (s.setPulse n p).cmBad = s.cmBad := (rfl)
@[simp] theorem State.setPulse_cmOut (s : State) (n : Nat) (p : Option Moment) : (s.setPulse n p).cmOut = s.cmOut := (rfl)
@[simp] theorem State.setPulse_cmLast (s : State) (n : Nat) (p : Option Moment) : (s.setPulse n p).cmLast = s.cmLast := (rfl)
@[simp] theorem State.setPulse_sramTold (s : State) (n : Nat) (p : Option Moment) : (s.setPulse n p).sramTold = s.sramTold := (rfl)
@[simp] theorem State.setPulse_saf (s : State) (n : Nat) (p : Option Moment) : (s.setPulse n p).saf = s.saf := (rfl)
@[simp] theorem State.setPulse_sec (s : State) (n : Nat) (p : Option Moment) : (s.setPulse n p).sec = s.sec := (rfl)
@[simp] theorem State.setPulse_pwr (s : State) (n : Nat) (p : Option Moment) : (s.setPulse n p).pwr = s.pwr := (rfl)
@[simp] theorem State.setPulse_twin (s : State) (n : Nat) (p : Option Moment) : (s.setPulse n p).twin = s.twin := (rfl)
@[simp] theorem State.setPulse_fab (s : State) (n : Nat) (p : Option Moment) : (s.setPulse n p).fab = s.fab := (rfl)
@[simp] theorem State.setPulse_lnk (s : State) (n : Nat) (p : Option Moment) : (s.setPulse n p).lnk = s.lnk := (rfl)

/-! ## setPitchQueue -/

@[simp] theorem State.setPitchQueue_pending (s : State) (k : Nat) (q : List PitchReq) : (s.setPitchQueue k q).pending = s.pending := (rfl)
@[simp] theorem State.setPitchQueue_free (s : State) (k : Nat) (q : List PitchReq) : (s.setPitchQueue k q).free = s.free := (rfl)
@[simp] theorem State.setPitchQueue_hostRead (s : State) (k : Nat) (q : List PitchReq) : (s.setPitchQueue k q).hostRead = s.hostRead := (rfl)
@[simp] theorem State.setPitchQueue_irqs (s : State) (k : Nat) (q : List PitchReq) : (s.setPitchQueue k q).irqs = s.irqs := (rfl)
@[simp] theorem State.setPitchQueue_pcie (s : State) (k : Nat) (q : List PitchReq) : (s.setPitchQueue k q).pcie = s.pcie := (rfl)
@[simp] theorem State.setPitchQueue_regs (s : State) (k : Nat) (q : List PitchReq) : (s.setPitchQueue k q).regs = s.regs := (rfl)
@[simp] theorem State.setPitchQueue_timed (s : State) (k : Nat) (q : List PitchReq) : (s.setPitchQueue k q).timed = s.timed := (rfl)
@[simp] theorem State.setPitchQueue_raised (s : State) (k : Nat) (q : List PitchReq) : (s.setPitchQueue k q).raised = s.raised := (rfl)
@[simp] theorem State.setPitchQueue_ic (s : State) (k : Nat) (q : List PitchReq) : (s.setPitchQueue k q).ic = s.ic := (rfl)
@[simp] theorem State.setPitchQueue_holdRead (s : State) (k : Nat) (q : List PitchReq) : (s.setPitchQueue k q).holdRead = s.holdRead := (rfl)
@[simp] theorem State.setPitchQueue_holdWrite (s : State) (k : Nat) (q : List PitchReq) : (s.setPitchQueue k q).holdWrite = s.holdWrite := (rfl)
@[simp] theorem State.setPitchQueue_clk (s : State) (k : Nat) (q : List PitchReq) : (s.setPitchQueue k q).clk = s.clk := (rfl)
@[simp] theorem State.setPitchQueue_tly (s : State) (k : Nat) (q : List PitchReq) : (s.setPitchQueue k q).tly = s.tly := (rfl)
@[simp] theorem State.setPitchQueue_ldg (s : State) (k : Nat) (q : List PitchReq) : (s.setPitchQueue k q).ldg = s.ldg := (rfl)
@[simp] theorem State.setPitchQueue_hostMem (s : State) (k : Nat) (q : List PitchReq) : (s.setPitchQueue k q).hostMem = s.hostMem := (rfl)
@[simp] theorem State.setPitchQueue_hostBad (s : State) (k : Nat) (q : List PitchReq) : (s.setPitchQueue k q).hostBad = s.hostBad := (rfl)
@[simp] theorem State.setPitchQueue_faults (s : State) (k : Nat) (q : List PitchReq) : (s.setPitchQueue k q).faults = s.faults := (rfl)
@[simp] theorem State.setPitchQueue_stall (s : State) (k : Nat) (q : List PitchReq) : (s.setPitchQueue k q).stall = s.stall := (rfl)
@[simp] theorem State.setPitchQueue_hwk (s : State) (k : Nat) (q : List PitchReq) : (s.setPitchQueue k q).hwk = s.hwk := (rfl)
@[simp] theorem State.setPitchQueue_core (s : State) (k : Nat) (q : List PitchReq) : (s.setPitchQueue k q).core = s.core := (rfl)
@[simp] theorem State.setPitchQueue_prog (s : State) (k : Nat) (q : List PitchReq) : (s.setPitchQueue k q).prog = s.prog := (rfl)
@[simp] theorem State.setPitchQueue_localMem (s : State) (k : Nat) (q : List PitchReq) : (s.setPitchQueue k q).localMem = s.localMem := (rfl)
@[simp] theorem State.setPitchQueue_localBad (s : State) (k : Nat) (q : List PitchReq) : (s.setPitchQueue k q).localBad = s.localBad := (rfl)
@[simp] theorem State.setPitchQueue_localSoft (s : State) (k : Nat) (q : List PitchReq) : (s.setPitchQueue k q).localSoft = s.localSoft := (rfl)
@[simp] theorem State.setPitchQueue_sram (s : State) (k : Nat) (q : List PitchReq) : (s.setPitchQueue k q).sram = s.sram := (rfl)
@[simp] theorem State.setPitchQueue_sramBad (s : State) (k : Nat) (q : List PitchReq) : (s.setPitchQueue k q).sramBad = s.sramBad := (rfl)
@[simp] theorem State.setPitchQueue_slice (s : State) (k : Nat) (q : List PitchReq) : (s.setPitchQueue k q).slice = s.slice := (rfl)
@[simp] theorem State.setPitchQueue_line (s : State) (k : Nat) (q : List PitchReq) : (s.setPitchQueue k q).line = s.line := (rfl)
@[simp] theorem State.setPitchQueue_serve (s : State) (k : Nat) (q : List PitchReq) : (s.setPitchQueue k q).serve = s.serve := (rfl)
@[simp] theorem State.setPitchQueue_bank (s : State) (k : Nat) (q : List PitchReq) : (s.setPitchQueue k q).bank = s.bank := (rfl)
@[simp] theorem State.setPitchQueue_conv (s : State) (k : Nat) (q : List PitchReq) : (s.setPitchQueue k q).conv = s.conv := (rfl)
@[simp] theorem State.setPitchQueue_mode (s : State) (k : Nat) (q : List PitchReq) : (s.setPitchQueue k q).mode = s.mode := (rfl)
@[simp] theorem State.setPitchQueue_coord (s : State) (k : Nat) (q : List PitchReq) : (s.setPitchQueue k q).coord = s.coord := (rfl)
@[simp] theorem State.setPitchQueue_phase (s : State) (k : Nat) (q : List PitchReq) : (s.setPitchQueue k q).phase = s.phase := (rfl)
@[simp] theorem State.setPitchQueue_dl (s : State) (k : Nat) (q : List PitchReq) : (s.setPitchQueue k q).dl = s.dl := (rfl)
@[simp] theorem State.setPitchQueue_grp (s : State) (k : Nat) (q : List PitchReq) : (s.setPitchQueue k q).grp = s.grp := (rfl)
@[simp] theorem State.setPitchQueue_cmp (s : State) (k : Nat) (q : List PitchReq) : (s.setPitchQueue k q).cmp = s.cmp := (rfl)
@[simp] theorem State.setPitchQueue_step (s : State) (k : Nat) (q : List PitchReq) : (s.setPitchQueue k q).step = s.step := (rfl)
@[simp] theorem State.setPitchQueue_dram (s : State) (k : Nat) (q : List PitchReq) : (s.setPitchQueue k q).dram = s.dram := (rfl)
@[simp] theorem State.setPitchQueue_dramBad (s : State) (k : Nat) (q : List PitchReq) : (s.setPitchQueue k q).dramBad = s.dramBad := (rfl)
@[simp] theorem State.setPitchQueue_fbk (s : State) (k : Nat) (q : List PitchReq) : (s.setPitchQueue k q).fbk = s.fbk := (rfl)
@[simp] theorem State.setPitchQueue_emu (s : State) (k : Nat) (q : List PitchReq) : (s.setPitchQueue k q).emu = s.emu := (rfl)
@[simp] theorem State.setPitchQueue_balls (s : State) (k : Nat) (q : List PitchReq) : (s.setPitchQueue k q).balls = s.balls := (rfl)
@[simp] theorem State.setPitchQueue_tclkGone (s : State) (k : Nat) (q : List PitchReq) : (s.setPitchQueue k q).tclkGone = s.tclkGone := (rfl)
@[simp] theorem State.setPitchQueue_motionHalted (s : State) (k : Nat) (q : List PitchReq) : (s.setPitchQueue k q).motionHalted = s.motionHalted := (rfl)
@[simp] theorem State.setPitchQueue_cmBad (s : State) (k : Nat) (q : List PitchReq) : (s.setPitchQueue k q).cmBad = s.cmBad := (rfl)
@[simp] theorem State.setPitchQueue_cmOut (s : State) (k : Nat) (q : List PitchReq) : (s.setPitchQueue k q).cmOut = s.cmOut := (rfl)
@[simp] theorem State.setPitchQueue_cmLast (s : State) (k : Nat) (q : List PitchReq) : (s.setPitchQueue k q).cmLast = s.cmLast := (rfl)
@[simp] theorem State.setPitchQueue_sramTold (s : State) (k : Nat) (q : List PitchReq) : (s.setPitchQueue k q).sramTold = s.sramTold := (rfl)
@[simp] theorem State.setPitchQueue_sec (s : State) (k : Nat) (q : List PitchReq) : (s.setPitchQueue k q).sec = s.sec := (rfl)
@[simp] theorem State.setPitchQueue_pwr (s : State) (k : Nat) (q : List PitchReq) : (s.setPitchQueue k q).pwr = s.pwr := (rfl)
@[simp] theorem State.setPitchQueue_twin (s : State) (k : Nat) (q : List PitchReq) : (s.setPitchQueue k q).twin = s.twin := (rfl)
@[simp] theorem State.setPitchQueue_fab (s : State) (k : Nat) (q : List PitchReq) : (s.setPitchQueue k q).fab = s.fab := (rfl)
@[simp] theorem State.setPitchQueue_lnk (s : State) (k : Nat) (q : List PitchReq) : (s.setPitchQueue k q).lnk = s.lnk := (rfl)

/-! ## setSafeIn -/

@[simp] theorem State.setSafeIn_pending (s : State) (k : Nat) (x : InState) : (s.setSafeIn k x).pending = s.pending := (rfl)
@[simp] theorem State.setSafeIn_free (s : State) (k : Nat) (x : InState) : (s.setSafeIn k x).free = s.free := (rfl)
@[simp] theorem State.setSafeIn_hostRead (s : State) (k : Nat) (x : InState) : (s.setSafeIn k x).hostRead = s.hostRead := (rfl)
@[simp] theorem State.setSafeIn_irqs (s : State) (k : Nat) (x : InState) : (s.setSafeIn k x).irqs = s.irqs := (rfl)
@[simp] theorem State.setSafeIn_pcie (s : State) (k : Nat) (x : InState) : (s.setSafeIn k x).pcie = s.pcie := (rfl)
@[simp] theorem State.setSafeIn_regs (s : State) (k : Nat) (x : InState) : (s.setSafeIn k x).regs = s.regs := (rfl)
@[simp] theorem State.setSafeIn_timed (s : State) (k : Nat) (x : InState) : (s.setSafeIn k x).timed = s.timed := (rfl)
@[simp] theorem State.setSafeIn_raised (s : State) (k : Nat) (x : InState) : (s.setSafeIn k x).raised = s.raised := (rfl)
@[simp] theorem State.setSafeIn_ic (s : State) (k : Nat) (x : InState) : (s.setSafeIn k x).ic = s.ic := (rfl)
@[simp] theorem State.setSafeIn_holdRead (s : State) (k : Nat) (x : InState) : (s.setSafeIn k x).holdRead = s.holdRead := (rfl)
@[simp] theorem State.setSafeIn_holdWrite (s : State) (k : Nat) (x : InState) : (s.setSafeIn k x).holdWrite = s.holdWrite := (rfl)
@[simp] theorem State.setSafeIn_clk (s : State) (k : Nat) (x : InState) : (s.setSafeIn k x).clk = s.clk := (rfl)
@[simp] theorem State.setSafeIn_tly (s : State) (k : Nat) (x : InState) : (s.setSafeIn k x).tly = s.tly := (rfl)
@[simp] theorem State.setSafeIn_ldg (s : State) (k : Nat) (x : InState) : (s.setSafeIn k x).ldg = s.ldg := (rfl)
@[simp] theorem State.setSafeIn_hostMem (s : State) (k : Nat) (x : InState) : (s.setSafeIn k x).hostMem = s.hostMem := (rfl)
@[simp] theorem State.setSafeIn_hostBad (s : State) (k : Nat) (x : InState) : (s.setSafeIn k x).hostBad = s.hostBad := (rfl)
@[simp] theorem State.setSafeIn_faults (s : State) (k : Nat) (x : InState) : (s.setSafeIn k x).faults = s.faults := (rfl)
@[simp] theorem State.setSafeIn_stall (s : State) (k : Nat) (x : InState) : (s.setSafeIn k x).stall = s.stall := (rfl)
@[simp] theorem State.setSafeIn_hwk (s : State) (k : Nat) (x : InState) : (s.setSafeIn k x).hwk = s.hwk := (rfl)
@[simp] theorem State.setSafeIn_core (s : State) (k : Nat) (x : InState) : (s.setSafeIn k x).core = s.core := (rfl)
@[simp] theorem State.setSafeIn_prog (s : State) (k : Nat) (x : InState) : (s.setSafeIn k x).prog = s.prog := (rfl)
@[simp] theorem State.setSafeIn_localMem (s : State) (k : Nat) (x : InState) : (s.setSafeIn k x).localMem = s.localMem := (rfl)
@[simp] theorem State.setSafeIn_localBad (s : State) (k : Nat) (x : InState) : (s.setSafeIn k x).localBad = s.localBad := (rfl)
@[simp] theorem State.setSafeIn_localSoft (s : State) (k : Nat) (x : InState) : (s.setSafeIn k x).localSoft = s.localSoft := (rfl)
@[simp] theorem State.setSafeIn_sram (s : State) (k : Nat) (x : InState) : (s.setSafeIn k x).sram = s.sram := (rfl)
@[simp] theorem State.setSafeIn_sramBad (s : State) (k : Nat) (x : InState) : (s.setSafeIn k x).sramBad = s.sramBad := (rfl)
@[simp] theorem State.setSafeIn_slice (s : State) (k : Nat) (x : InState) : (s.setSafeIn k x).slice = s.slice := (rfl)
@[simp] theorem State.setSafeIn_line (s : State) (k : Nat) (x : InState) : (s.setSafeIn k x).line = s.line := (rfl)
@[simp] theorem State.setSafeIn_serve (s : State) (k : Nat) (x : InState) : (s.setSafeIn k x).serve = s.serve := (rfl)
@[simp] theorem State.setSafeIn_bank (s : State) (k : Nat) (x : InState) : (s.setSafeIn k x).bank = s.bank := (rfl)
@[simp] theorem State.setSafeIn_conv (s : State) (k : Nat) (x : InState) : (s.setSafeIn k x).conv = s.conv := (rfl)
@[simp] theorem State.setSafeIn_mode (s : State) (k : Nat) (x : InState) : (s.setSafeIn k x).mode = s.mode := (rfl)
@[simp] theorem State.setSafeIn_coord (s : State) (k : Nat) (x : InState) : (s.setSafeIn k x).coord = s.coord := (rfl)
@[simp] theorem State.setSafeIn_phase (s : State) (k : Nat) (x : InState) : (s.setSafeIn k x).phase = s.phase := (rfl)
@[simp] theorem State.setSafeIn_dl (s : State) (k : Nat) (x : InState) : (s.setSafeIn k x).dl = s.dl := (rfl)
@[simp] theorem State.setSafeIn_grp (s : State) (k : Nat) (x : InState) : (s.setSafeIn k x).grp = s.grp := (rfl)
@[simp] theorem State.setSafeIn_cmp (s : State) (k : Nat) (x : InState) : (s.setSafeIn k x).cmp = s.cmp := (rfl)
@[simp] theorem State.setSafeIn_step (s : State) (k : Nat) (x : InState) : (s.setSafeIn k x).step = s.step := (rfl)
@[simp] theorem State.setSafeIn_dram (s : State) (k : Nat) (x : InState) : (s.setSafeIn k x).dram = s.dram := (rfl)
@[simp] theorem State.setSafeIn_dramBad (s : State) (k : Nat) (x : InState) : (s.setSafeIn k x).dramBad = s.dramBad := (rfl)
@[simp] theorem State.setSafeIn_fbk (s : State) (k : Nat) (x : InState) : (s.setSafeIn k x).fbk = s.fbk := (rfl)
@[simp] theorem State.setSafeIn_emu (s : State) (k : Nat) (x : InState) : (s.setSafeIn k x).emu = s.emu := (rfl)
@[simp] theorem State.setSafeIn_balls (s : State) (k : Nat) (x : InState) : (s.setSafeIn k x).balls = s.balls := (rfl)
@[simp] theorem State.setSafeIn_tclkGone (s : State) (k : Nat) (x : InState) : (s.setSafeIn k x).tclkGone = s.tclkGone := (rfl)
@[simp] theorem State.setSafeIn_motionHalted (s : State) (k : Nat) (x : InState) : (s.setSafeIn k x).motionHalted = s.motionHalted := (rfl)
@[simp] theorem State.setSafeIn_cmBad (s : State) (k : Nat) (x : InState) : (s.setSafeIn k x).cmBad = s.cmBad := (rfl)
@[simp] theorem State.setSafeIn_cmOut (s : State) (k : Nat) (x : InState) : (s.setSafeIn k x).cmOut = s.cmOut := (rfl)
@[simp] theorem State.setSafeIn_cmLast (s : State) (k : Nat) (x : InState) : (s.setSafeIn k x).cmLast = s.cmLast := (rfl)
@[simp] theorem State.setSafeIn_sramTold (s : State) (k : Nat) (x : InState) : (s.setSafeIn k x).sramTold = s.sramTold := (rfl)
@[simp] theorem State.setSafeIn_sec (s : State) (k : Nat) (x : InState) : (s.setSafeIn k x).sec = s.sec := (rfl)
@[simp] theorem State.setSafeIn_pwr (s : State) (k : Nat) (x : InState) : (s.setSafeIn k x).pwr = s.pwr := (rfl)
@[simp] theorem State.setSafeIn_twin (s : State) (k : Nat) (x : InState) : (s.setSafeIn k x).twin = s.twin := (rfl)
@[simp] theorem State.setSafeIn_fab (s : State) (k : Nat) (x : InState) : (s.setSafeIn k x).fab = s.fab := (rfl)
@[simp] theorem State.setSafeIn_lnk (s : State) (k : Nat) (x : InState) : (s.setSafeIn k x).lnk = s.lnk := (rfl)

/-! ## setConnOf -/

@[simp] theorem State.setConnOf_pending (s : State) (c : Nat) (x : ConnState) : (s.setConnOf c x).pending = s.pending := (rfl)
@[simp] theorem State.setConnOf_free (s : State) (c : Nat) (x : ConnState) : (s.setConnOf c x).free = s.free := (rfl)
@[simp] theorem State.setConnOf_hostRead (s : State) (c : Nat) (x : ConnState) : (s.setConnOf c x).hostRead = s.hostRead := (rfl)
@[simp] theorem State.setConnOf_irqs (s : State) (c : Nat) (x : ConnState) : (s.setConnOf c x).irqs = s.irqs := (rfl)
@[simp] theorem State.setConnOf_pcie (s : State) (c : Nat) (x : ConnState) : (s.setConnOf c x).pcie = s.pcie := (rfl)
@[simp] theorem State.setConnOf_regs (s : State) (c : Nat) (x : ConnState) : (s.setConnOf c x).regs = s.regs := (rfl)
@[simp] theorem State.setConnOf_timed (s : State) (c : Nat) (x : ConnState) : (s.setConnOf c x).timed = s.timed := (rfl)
@[simp] theorem State.setConnOf_raised (s : State) (c : Nat) (x : ConnState) : (s.setConnOf c x).raised = s.raised := (rfl)
@[simp] theorem State.setConnOf_ic (s : State) (c : Nat) (x : ConnState) : (s.setConnOf c x).ic = s.ic := (rfl)
@[simp] theorem State.setConnOf_holdRead (s : State) (c : Nat) (x : ConnState) : (s.setConnOf c x).holdRead = s.holdRead := (rfl)
@[simp] theorem State.setConnOf_holdWrite (s : State) (c : Nat) (x : ConnState) : (s.setConnOf c x).holdWrite = s.holdWrite := (rfl)
@[simp] theorem State.setConnOf_clk (s : State) (c : Nat) (x : ConnState) : (s.setConnOf c x).clk = s.clk := (rfl)
@[simp] theorem State.setConnOf_tly (s : State) (c : Nat) (x : ConnState) : (s.setConnOf c x).tly = s.tly := (rfl)
@[simp] theorem State.setConnOf_ldg (s : State) (c : Nat) (x : ConnState) : (s.setConnOf c x).ldg = s.ldg := (rfl)
@[simp] theorem State.setConnOf_hostMem (s : State) (c : Nat) (x : ConnState) : (s.setConnOf c x).hostMem = s.hostMem := (rfl)
@[simp] theorem State.setConnOf_hostBad (s : State) (c : Nat) (x : ConnState) : (s.setConnOf c x).hostBad = s.hostBad := (rfl)
@[simp] theorem State.setConnOf_faults (s : State) (c : Nat) (x : ConnState) : (s.setConnOf c x).faults = s.faults := (rfl)
@[simp] theorem State.setConnOf_stall (s : State) (c : Nat) (x : ConnState) : (s.setConnOf c x).stall = s.stall := (rfl)
@[simp] theorem State.setConnOf_hwk (s : State) (c : Nat) (x : ConnState) : (s.setConnOf c x).hwk = s.hwk := (rfl)
@[simp] theorem State.setConnOf_core (s : State) (c : Nat) (x : ConnState) : (s.setConnOf c x).core = s.core := (rfl)
@[simp] theorem State.setConnOf_prog (s : State) (c : Nat) (x : ConnState) : (s.setConnOf c x).prog = s.prog := (rfl)
@[simp] theorem State.setConnOf_localMem (s : State) (c : Nat) (x : ConnState) : (s.setConnOf c x).localMem = s.localMem := (rfl)
@[simp] theorem State.setConnOf_localBad (s : State) (c : Nat) (x : ConnState) : (s.setConnOf c x).localBad = s.localBad := (rfl)
@[simp] theorem State.setConnOf_localSoft (s : State) (c : Nat) (x : ConnState) : (s.setConnOf c x).localSoft = s.localSoft := (rfl)
@[simp] theorem State.setConnOf_sram (s : State) (c : Nat) (x : ConnState) : (s.setConnOf c x).sram = s.sram := (rfl)
@[simp] theorem State.setConnOf_sramBad (s : State) (c : Nat) (x : ConnState) : (s.setConnOf c x).sramBad = s.sramBad := (rfl)
@[simp] theorem State.setConnOf_slice (s : State) (c : Nat) (x : ConnState) : (s.setConnOf c x).slice = s.slice := (rfl)
@[simp] theorem State.setConnOf_line (s : State) (c : Nat) (x : ConnState) : (s.setConnOf c x).line = s.line := (rfl)
@[simp] theorem State.setConnOf_serve (s : State) (c : Nat) (x : ConnState) : (s.setConnOf c x).serve = s.serve := (rfl)
@[simp] theorem State.setConnOf_bank (s : State) (c : Nat) (x : ConnState) : (s.setConnOf c x).bank = s.bank := (rfl)
@[simp] theorem State.setConnOf_conv (s : State) (c : Nat) (x : ConnState) : (s.setConnOf c x).conv = s.conv := (rfl)
@[simp] theorem State.setConnOf_mode (s : State) (c : Nat) (x : ConnState) : (s.setConnOf c x).mode = s.mode := (rfl)
@[simp] theorem State.setConnOf_coord (s : State) (c : Nat) (x : ConnState) : (s.setConnOf c x).coord = s.coord := (rfl)
@[simp] theorem State.setConnOf_phase (s : State) (c : Nat) (x : ConnState) : (s.setConnOf c x).phase = s.phase := (rfl)
@[simp] theorem State.setConnOf_dl (s : State) (c : Nat) (x : ConnState) : (s.setConnOf c x).dl = s.dl := (rfl)
@[simp] theorem State.setConnOf_grp (s : State) (c : Nat) (x : ConnState) : (s.setConnOf c x).grp = s.grp := (rfl)
@[simp] theorem State.setConnOf_cmp (s : State) (c : Nat) (x : ConnState) : (s.setConnOf c x).cmp = s.cmp := (rfl)
@[simp] theorem State.setConnOf_step (s : State) (c : Nat) (x : ConnState) : (s.setConnOf c x).step = s.step := (rfl)
@[simp] theorem State.setConnOf_dram (s : State) (c : Nat) (x : ConnState) : (s.setConnOf c x).dram = s.dram := (rfl)
@[simp] theorem State.setConnOf_dramBad (s : State) (c : Nat) (x : ConnState) : (s.setConnOf c x).dramBad = s.dramBad := (rfl)
@[simp] theorem State.setConnOf_fbk (s : State) (c : Nat) (x : ConnState) : (s.setConnOf c x).fbk = s.fbk := (rfl)
@[simp] theorem State.setConnOf_emu (s : State) (c : Nat) (x : ConnState) : (s.setConnOf c x).emu = s.emu := (rfl)
@[simp] theorem State.setConnOf_balls (s : State) (c : Nat) (x : ConnState) : (s.setConnOf c x).balls = s.balls := (rfl)
@[simp] theorem State.setConnOf_tclkGone (s : State) (c : Nat) (x : ConnState) : (s.setConnOf c x).tclkGone = s.tclkGone := (rfl)
@[simp] theorem State.setConnOf_motionHalted (s : State) (c : Nat) (x : ConnState) : (s.setConnOf c x).motionHalted = s.motionHalted := (rfl)
@[simp] theorem State.setConnOf_cmBad (s : State) (c : Nat) (x : ConnState) : (s.setConnOf c x).cmBad = s.cmBad := (rfl)
@[simp] theorem State.setConnOf_cmOut (s : State) (c : Nat) (x : ConnState) : (s.setConnOf c x).cmOut = s.cmOut := (rfl)
@[simp] theorem State.setConnOf_cmLast (s : State) (c : Nat) (x : ConnState) : (s.setConnOf c x).cmLast = s.cmLast := (rfl)
@[simp] theorem State.setConnOf_sramTold (s : State) (c : Nat) (x : ConnState) : (s.setConnOf c x).sramTold = s.sramTold := (rfl)
@[simp] theorem State.setConnOf_sec (s : State) (c : Nat) (x : ConnState) : (s.setConnOf c x).sec = s.sec := (rfl)
@[simp] theorem State.setConnOf_pwr (s : State) (c : Nat) (x : ConnState) : (s.setConnOf c x).pwr = s.pwr := (rfl)
@[simp] theorem State.setConnOf_twin (s : State) (c : Nat) (x : ConnState) : (s.setConnOf c x).twin = s.twin := (rfl)
@[simp] theorem State.setConnOf_fab (s : State) (c : Nat) (x : ConnState) : (s.setConnOf c x).fab = s.fab := (rfl)
@[simp] theorem State.setConnOf_lnk (s : State) (c : Nat) (x : ConnState) : (s.setConnOf c x).lnk = s.lnk := (rfl)

/-! ## setLport -/

@[simp] theorem State.setLport_pending (s : State) (ch p : Nat) (x : LPort) : (s.setLport ch p x).pending = s.pending := (rfl)
@[simp] theorem State.setLport_free (s : State) (ch p : Nat) (x : LPort) : (s.setLport ch p x).free = s.free := (rfl)
@[simp] theorem State.setLport_hostRead (s : State) (ch p : Nat) (x : LPort) : (s.setLport ch p x).hostRead = s.hostRead := (rfl)
@[simp] theorem State.setLport_irqs (s : State) (ch p : Nat) (x : LPort) : (s.setLport ch p x).irqs = s.irqs := (rfl)
@[simp] theorem State.setLport_pcie (s : State) (ch p : Nat) (x : LPort) : (s.setLport ch p x).pcie = s.pcie := (rfl)
@[simp] theorem State.setLport_regs (s : State) (ch p : Nat) (x : LPort) : (s.setLport ch p x).regs = s.regs := (rfl)
@[simp] theorem State.setLport_timed (s : State) (ch p : Nat) (x : LPort) : (s.setLport ch p x).timed = s.timed := (rfl)
@[simp] theorem State.setLport_raised (s : State) (ch p : Nat) (x : LPort) : (s.setLport ch p x).raised = s.raised := (rfl)
@[simp] theorem State.setLport_ic (s : State) (ch p : Nat) (x : LPort) : (s.setLport ch p x).ic = s.ic := (rfl)
@[simp] theorem State.setLport_holdRead (s : State) (ch p : Nat) (x : LPort) : (s.setLport ch p x).holdRead = s.holdRead := (rfl)
@[simp] theorem State.setLport_holdWrite (s : State) (ch p : Nat) (x : LPort) : (s.setLport ch p x).holdWrite = s.holdWrite := (rfl)
@[simp] theorem State.setLport_clk (s : State) (ch p : Nat) (x : LPort) : (s.setLport ch p x).clk = s.clk := (rfl)
@[simp] theorem State.setLport_tly (s : State) (ch p : Nat) (x : LPort) : (s.setLport ch p x).tly = s.tly := (rfl)
@[simp] theorem State.setLport_ldg (s : State) (ch p : Nat) (x : LPort) : (s.setLport ch p x).ldg = s.ldg := (rfl)
@[simp] theorem State.setLport_hostMem (s : State) (ch p : Nat) (x : LPort) : (s.setLport ch p x).hostMem = s.hostMem := (rfl)
@[simp] theorem State.setLport_hostBad (s : State) (ch p : Nat) (x : LPort) : (s.setLport ch p x).hostBad = s.hostBad := (rfl)
@[simp] theorem State.setLport_faults (s : State) (ch p : Nat) (x : LPort) : (s.setLport ch p x).faults = s.faults := (rfl)
@[simp] theorem State.setLport_stall (s : State) (ch p : Nat) (x : LPort) : (s.setLport ch p x).stall = s.stall := (rfl)
@[simp] theorem State.setLport_hwk (s : State) (ch p : Nat) (x : LPort) : (s.setLport ch p x).hwk = s.hwk := (rfl)
@[simp] theorem State.setLport_core (s : State) (ch p : Nat) (x : LPort) : (s.setLport ch p x).core = s.core := (rfl)
@[simp] theorem State.setLport_prog (s : State) (ch p : Nat) (x : LPort) : (s.setLport ch p x).prog = s.prog := (rfl)
@[simp] theorem State.setLport_localMem (s : State) (ch p : Nat) (x : LPort) : (s.setLport ch p x).localMem = s.localMem := (rfl)
@[simp] theorem State.setLport_localBad (s : State) (ch p : Nat) (x : LPort) : (s.setLport ch p x).localBad = s.localBad := (rfl)
@[simp] theorem State.setLport_localSoft (s : State) (ch p : Nat) (x : LPort) : (s.setLport ch p x).localSoft = s.localSoft := (rfl)
@[simp] theorem State.setLport_sram (s : State) (ch p : Nat) (x : LPort) : (s.setLport ch p x).sram = s.sram := (rfl)
@[simp] theorem State.setLport_sramBad (s : State) (ch p : Nat) (x : LPort) : (s.setLport ch p x).sramBad = s.sramBad := (rfl)
@[simp] theorem State.setLport_slice (s : State) (ch p : Nat) (x : LPort) : (s.setLport ch p x).slice = s.slice := (rfl)
@[simp] theorem State.setLport_line (s : State) (ch p : Nat) (x : LPort) : (s.setLport ch p x).line = s.line := (rfl)
@[simp] theorem State.setLport_serve (s : State) (ch p : Nat) (x : LPort) : (s.setLport ch p x).serve = s.serve := (rfl)
@[simp] theorem State.setLport_bank (s : State) (ch p : Nat) (x : LPort) : (s.setLport ch p x).bank = s.bank := (rfl)
@[simp] theorem State.setLport_conv (s : State) (ch p : Nat) (x : LPort) : (s.setLport ch p x).conv = s.conv := (rfl)
@[simp] theorem State.setLport_mode (s : State) (ch p : Nat) (x : LPort) : (s.setLport ch p x).mode = s.mode := (rfl)
@[simp] theorem State.setLport_coord (s : State) (ch p : Nat) (x : LPort) : (s.setLport ch p x).coord = s.coord := (rfl)
@[simp] theorem State.setLport_phase (s : State) (ch p : Nat) (x : LPort) : (s.setLport ch p x).phase = s.phase := (rfl)
@[simp] theorem State.setLport_dl (s : State) (ch p : Nat) (x : LPort) : (s.setLport ch p x).dl = s.dl := (rfl)
@[simp] theorem State.setLport_grp (s : State) (ch p : Nat) (x : LPort) : (s.setLport ch p x).grp = s.grp := (rfl)
@[simp] theorem State.setLport_cmp (s : State) (ch p : Nat) (x : LPort) : (s.setLport ch p x).cmp = s.cmp := (rfl)
@[simp] theorem State.setLport_step (s : State) (ch p : Nat) (x : LPort) : (s.setLport ch p x).step = s.step := (rfl)
@[simp] theorem State.setLport_dram (s : State) (ch p : Nat) (x : LPort) : (s.setLport ch p x).dram = s.dram := (rfl)
@[simp] theorem State.setLport_dramBad (s : State) (ch p : Nat) (x : LPort) : (s.setLport ch p x).dramBad = s.dramBad := (rfl)
@[simp] theorem State.setLport_fbk (s : State) (ch p : Nat) (x : LPort) : (s.setLport ch p x).fbk = s.fbk := (rfl)
@[simp] theorem State.setLport_emu (s : State) (ch p : Nat) (x : LPort) : (s.setLport ch p x).emu = s.emu := (rfl)
@[simp] theorem State.setLport_balls (s : State) (ch p : Nat) (x : LPort) : (s.setLport ch p x).balls = s.balls := (rfl)
@[simp] theorem State.setLport_tclkGone (s : State) (ch p : Nat) (x : LPort) : (s.setLport ch p x).tclkGone = s.tclkGone := (rfl)
@[simp] theorem State.setLport_motionHalted (s : State) (ch p : Nat) (x : LPort) : (s.setLport ch p x).motionHalted = s.motionHalted := (rfl)
@[simp] theorem State.setLport_cmBad (s : State) (ch p : Nat) (x : LPort) : (s.setLport ch p x).cmBad = s.cmBad := (rfl)
@[simp] theorem State.setLport_cmOut (s : State) (ch p : Nat) (x : LPort) : (s.setLport ch p x).cmOut = s.cmOut := (rfl)
@[simp] theorem State.setLport_cmLast (s : State) (ch p : Nat) (x : LPort) : (s.setLport ch p x).cmLast = s.cmLast := (rfl)
@[simp] theorem State.setLport_sramTold (s : State) (ch p : Nat) (x : LPort) : (s.setLport ch p x).sramTold = s.sramTold := (rfl)
@[simp] theorem State.setLport_saf (s : State) (ch p : Nat) (x : LPort) : (s.setLport ch p x).saf = s.saf := (rfl)
@[simp] theorem State.setLport_sec (s : State) (ch p : Nat) (x : LPort) : (s.setLport ch p x).sec = s.sec := (rfl)
@[simp] theorem State.setLport_pwr (s : State) (ch p : Nat) (x : LPort) : (s.setLport ch p x).pwr = s.pwr := (rfl)
@[simp] theorem State.setLport_twin (s : State) (ch p : Nat) (x : LPort) : (s.setLport ch p x).twin = s.twin := (rfl)
@[simp] theorem State.setLport_fab (s : State) (ch p : Nat) (x : LPort) : (s.setLport ch p x).fab = s.fab := (rfl)

/-! ## setLchan -/

@[simp] theorem State.setLchan_pending (s : State) (ch : Nat) (x : LChan) : (s.setLchan ch x).pending = s.pending := (rfl)
@[simp] theorem State.setLchan_free (s : State) (ch : Nat) (x : LChan) : (s.setLchan ch x).free = s.free := (rfl)
@[simp] theorem State.setLchan_hostRead (s : State) (ch : Nat) (x : LChan) : (s.setLchan ch x).hostRead = s.hostRead := (rfl)
@[simp] theorem State.setLchan_irqs (s : State) (ch : Nat) (x : LChan) : (s.setLchan ch x).irqs = s.irqs := (rfl)
@[simp] theorem State.setLchan_pcie (s : State) (ch : Nat) (x : LChan) : (s.setLchan ch x).pcie = s.pcie := (rfl)
@[simp] theorem State.setLchan_regs (s : State) (ch : Nat) (x : LChan) : (s.setLchan ch x).regs = s.regs := (rfl)
@[simp] theorem State.setLchan_timed (s : State) (ch : Nat) (x : LChan) : (s.setLchan ch x).timed = s.timed := (rfl)
@[simp] theorem State.setLchan_raised (s : State) (ch : Nat) (x : LChan) : (s.setLchan ch x).raised = s.raised := (rfl)
@[simp] theorem State.setLchan_ic (s : State) (ch : Nat) (x : LChan) : (s.setLchan ch x).ic = s.ic := (rfl)
@[simp] theorem State.setLchan_holdRead (s : State) (ch : Nat) (x : LChan) : (s.setLchan ch x).holdRead = s.holdRead := (rfl)
@[simp] theorem State.setLchan_holdWrite (s : State) (ch : Nat) (x : LChan) : (s.setLchan ch x).holdWrite = s.holdWrite := (rfl)
@[simp] theorem State.setLchan_clk (s : State) (ch : Nat) (x : LChan) : (s.setLchan ch x).clk = s.clk := (rfl)
@[simp] theorem State.setLchan_tly (s : State) (ch : Nat) (x : LChan) : (s.setLchan ch x).tly = s.tly := (rfl)
@[simp] theorem State.setLchan_ldg (s : State) (ch : Nat) (x : LChan) : (s.setLchan ch x).ldg = s.ldg := (rfl)
@[simp] theorem State.setLchan_hostMem (s : State) (ch : Nat) (x : LChan) : (s.setLchan ch x).hostMem = s.hostMem := (rfl)
@[simp] theorem State.setLchan_hostBad (s : State) (ch : Nat) (x : LChan) : (s.setLchan ch x).hostBad = s.hostBad := (rfl)
@[simp] theorem State.setLchan_faults (s : State) (ch : Nat) (x : LChan) : (s.setLchan ch x).faults = s.faults := (rfl)
@[simp] theorem State.setLchan_stall (s : State) (ch : Nat) (x : LChan) : (s.setLchan ch x).stall = s.stall := (rfl)
@[simp] theorem State.setLchan_hwk (s : State) (ch : Nat) (x : LChan) : (s.setLchan ch x).hwk = s.hwk := (rfl)
@[simp] theorem State.setLchan_core (s : State) (ch : Nat) (x : LChan) : (s.setLchan ch x).core = s.core := (rfl)
@[simp] theorem State.setLchan_prog (s : State) (ch : Nat) (x : LChan) : (s.setLchan ch x).prog = s.prog := (rfl)
@[simp] theorem State.setLchan_localMem (s : State) (ch : Nat) (x : LChan) : (s.setLchan ch x).localMem = s.localMem := (rfl)
@[simp] theorem State.setLchan_localBad (s : State) (ch : Nat) (x : LChan) : (s.setLchan ch x).localBad = s.localBad := (rfl)
@[simp] theorem State.setLchan_localSoft (s : State) (ch : Nat) (x : LChan) : (s.setLchan ch x).localSoft = s.localSoft := (rfl)
@[simp] theorem State.setLchan_sram (s : State) (ch : Nat) (x : LChan) : (s.setLchan ch x).sram = s.sram := (rfl)
@[simp] theorem State.setLchan_sramBad (s : State) (ch : Nat) (x : LChan) : (s.setLchan ch x).sramBad = s.sramBad := (rfl)
@[simp] theorem State.setLchan_slice (s : State) (ch : Nat) (x : LChan) : (s.setLchan ch x).slice = s.slice := (rfl)
@[simp] theorem State.setLchan_line (s : State) (ch : Nat) (x : LChan) : (s.setLchan ch x).line = s.line := (rfl)
@[simp] theorem State.setLchan_serve (s : State) (ch : Nat) (x : LChan) : (s.setLchan ch x).serve = s.serve := (rfl)
@[simp] theorem State.setLchan_bank (s : State) (ch : Nat) (x : LChan) : (s.setLchan ch x).bank = s.bank := (rfl)
@[simp] theorem State.setLchan_conv (s : State) (ch : Nat) (x : LChan) : (s.setLchan ch x).conv = s.conv := (rfl)
@[simp] theorem State.setLchan_mode (s : State) (ch : Nat) (x : LChan) : (s.setLchan ch x).mode = s.mode := (rfl)
@[simp] theorem State.setLchan_coord (s : State) (ch : Nat) (x : LChan) : (s.setLchan ch x).coord = s.coord := (rfl)
@[simp] theorem State.setLchan_phase (s : State) (ch : Nat) (x : LChan) : (s.setLchan ch x).phase = s.phase := (rfl)
@[simp] theorem State.setLchan_dl (s : State) (ch : Nat) (x : LChan) : (s.setLchan ch x).dl = s.dl := (rfl)
@[simp] theorem State.setLchan_grp (s : State) (ch : Nat) (x : LChan) : (s.setLchan ch x).grp = s.grp := (rfl)
@[simp] theorem State.setLchan_cmp (s : State) (ch : Nat) (x : LChan) : (s.setLchan ch x).cmp = s.cmp := (rfl)
@[simp] theorem State.setLchan_step (s : State) (ch : Nat) (x : LChan) : (s.setLchan ch x).step = s.step := (rfl)
@[simp] theorem State.setLchan_dram (s : State) (ch : Nat) (x : LChan) : (s.setLchan ch x).dram = s.dram := (rfl)
@[simp] theorem State.setLchan_dramBad (s : State) (ch : Nat) (x : LChan) : (s.setLchan ch x).dramBad = s.dramBad := (rfl)
@[simp] theorem State.setLchan_fbk (s : State) (ch : Nat) (x : LChan) : (s.setLchan ch x).fbk = s.fbk := (rfl)
@[simp] theorem State.setLchan_emu (s : State) (ch : Nat) (x : LChan) : (s.setLchan ch x).emu = s.emu := (rfl)
@[simp] theorem State.setLchan_balls (s : State) (ch : Nat) (x : LChan) : (s.setLchan ch x).balls = s.balls := (rfl)
@[simp] theorem State.setLchan_tclkGone (s : State) (ch : Nat) (x : LChan) : (s.setLchan ch x).tclkGone = s.tclkGone := (rfl)
@[simp] theorem State.setLchan_motionHalted (s : State) (ch : Nat) (x : LChan) : (s.setLchan ch x).motionHalted = s.motionHalted := (rfl)
@[simp] theorem State.setLchan_cmBad (s : State) (ch : Nat) (x : LChan) : (s.setLchan ch x).cmBad = s.cmBad := (rfl)
@[simp] theorem State.setLchan_cmOut (s : State) (ch : Nat) (x : LChan) : (s.setLchan ch x).cmOut = s.cmOut := (rfl)
@[simp] theorem State.setLchan_cmLast (s : State) (ch : Nat) (x : LChan) : (s.setLchan ch x).cmLast = s.cmLast := (rfl)
@[simp] theorem State.setLchan_sramTold (s : State) (ch : Nat) (x : LChan) : (s.setLchan ch x).sramTold = s.sramTold := (rfl)
@[simp] theorem State.setLchan_saf (s : State) (ch : Nat) (x : LChan) : (s.setLchan ch x).saf = s.saf := (rfl)
@[simp] theorem State.setLchan_sec (s : State) (ch : Nat) (x : LChan) : (s.setLchan ch x).sec = s.sec := (rfl)
@[simp] theorem State.setLchan_pwr (s : State) (ch : Nat) (x : LChan) : (s.setLchan ch x).pwr = s.pwr := (rfl)
@[simp] theorem State.setLchan_twin (s : State) (ch : Nat) (x : LChan) : (s.setLchan ch x).twin = s.twin := (rfl)
@[simp] theorem State.setLchan_fab (s : State) (ch : Nat) (x : LChan) : (s.setLchan ch x).fab = s.fab := (rfl)

/-! ## withClock -/

@[simp] theorem State.withClock_pending (s : State) (c : Clk) : (s.withClock c).pending = s.pending := by
  unfold State.withClock; split <;> rfl
@[simp] theorem State.withClock_free (s : State) (c : Clk) : (s.withClock c).free = s.free := by
  unfold State.withClock; split <;> rfl
@[simp] theorem State.withClock_hostRead (s : State) (c : Clk) : (s.withClock c).hostRead = s.hostRead := by
  unfold State.withClock; split <;> rfl
@[simp] theorem State.withClock_irqs (s : State) (c : Clk) : (s.withClock c).irqs = s.irqs := by
  unfold State.withClock; split <;> rfl
@[simp] theorem State.withClock_pcie (s : State) (c : Clk) : (s.withClock c).pcie = s.pcie := by
  unfold State.withClock; split <;> rfl
@[simp] theorem State.withClock_regs (s : State) (c : Clk) : (s.withClock c).regs = s.regs := by
  unfold State.withClock; split <;> rfl
@[simp] theorem State.withClock_ic (s : State) (c : Clk) : (s.withClock c).ic = s.ic := by
  unfold State.withClock; split <;> rfl
@[simp] theorem State.withClock_holdRead (s : State) (c : Clk) : (s.withClock c).holdRead = s.holdRead := by
  unfold State.withClock; split <;> rfl
@[simp] theorem State.withClock_holdWrite (s : State) (c : Clk) : (s.withClock c).holdWrite = s.holdWrite := by
  unfold State.withClock; split <;> rfl
@[simp] theorem State.withClock_tly (s : State) (c : Clk) : (s.withClock c).tly = s.tly := by
  unfold State.withClock; split <;> rfl
@[simp] theorem State.withClock_ldg (s : State) (c : Clk) : (s.withClock c).ldg = s.ldg := by
  unfold State.withClock; split <;> rfl
@[simp] theorem State.withClock_hostMem (s : State) (c : Clk) : (s.withClock c).hostMem = s.hostMem := by
  unfold State.withClock; split <;> rfl
@[simp] theorem State.withClock_hostBad (s : State) (c : Clk) : (s.withClock c).hostBad = s.hostBad := by
  unfold State.withClock; split <;> rfl
@[simp] theorem State.withClock_faults (s : State) (c : Clk) : (s.withClock c).faults = s.faults := by
  unfold State.withClock; split <;> rfl
@[simp] theorem State.withClock_stall (s : State) (c : Clk) : (s.withClock c).stall = s.stall := by
  unfold State.withClock; split <;> rfl
@[simp] theorem State.withClock_hwk (s : State) (c : Clk) : (s.withClock c).hwk = s.hwk := by
  unfold State.withClock; split <;> rfl
@[simp] theorem State.withClock_core (s : State) (c : Clk) : (s.withClock c).core = s.core := by
  unfold State.withClock; split <;> rfl
@[simp] theorem State.withClock_prog (s : State) (c : Clk) : (s.withClock c).prog = s.prog := by
  unfold State.withClock; split <;> rfl
@[simp] theorem State.withClock_localMem (s : State) (c : Clk) : (s.withClock c).localMem = s.localMem := by
  unfold State.withClock; split <;> rfl
@[simp] theorem State.withClock_localBad (s : State) (c : Clk) : (s.withClock c).localBad = s.localBad := by
  unfold State.withClock; split <;> rfl
@[simp] theorem State.withClock_localSoft (s : State) (c : Clk) : (s.withClock c).localSoft = s.localSoft := by
  unfold State.withClock; split <;> rfl
@[simp] theorem State.withClock_sram (s : State) (c : Clk) : (s.withClock c).sram = s.sram := by
  unfold State.withClock; split <;> rfl
@[simp] theorem State.withClock_sramBad (s : State) (c : Clk) : (s.withClock c).sramBad = s.sramBad := by
  unfold State.withClock; split <;> rfl
@[simp] theorem State.withClock_slice (s : State) (c : Clk) : (s.withClock c).slice = s.slice := by
  unfold State.withClock; split <;> rfl
@[simp] theorem State.withClock_line (s : State) (c : Clk) : (s.withClock c).line = s.line := by
  unfold State.withClock; split <;> rfl
@[simp] theorem State.withClock_serve (s : State) (c : Clk) : (s.withClock c).serve = s.serve := by
  unfold State.withClock; split <;> rfl
@[simp] theorem State.withClock_bank (s : State) (c : Clk) : (s.withClock c).bank = s.bank := by
  unfold State.withClock; split <;> rfl
@[simp] theorem State.withClock_conv (s : State) (c : Clk) : (s.withClock c).conv = s.conv := by
  unfold State.withClock; split <;> rfl
@[simp] theorem State.withClock_mode (s : State) (c : Clk) : (s.withClock c).mode = s.mode := by
  unfold State.withClock; split <;> rfl
@[simp] theorem State.withClock_coord (s : State) (c : Clk) : (s.withClock c).coord = s.coord := by
  unfold State.withClock; split <;> rfl
@[simp] theorem State.withClock_phase (s : State) (c : Clk) : (s.withClock c).phase = s.phase := by
  unfold State.withClock; split <;> rfl
@[simp] theorem State.withClock_dl (s : State) (c : Clk) : (s.withClock c).dl = s.dl := by
  unfold State.withClock; split <;> rfl
@[simp] theorem State.withClock_grp (s : State) (c : Clk) : (s.withClock c).grp = s.grp := by
  unfold State.withClock; split <;> rfl
@[simp] theorem State.withClock_cmp (s : State) (c : Clk) : (s.withClock c).cmp = s.cmp := by
  unfold State.withClock; split <;> rfl
@[simp] theorem State.withClock_step (s : State) (c : Clk) : (s.withClock c).step = s.step := by
  unfold State.withClock; split <;> rfl
@[simp] theorem State.withClock_dram (s : State) (c : Clk) : (s.withClock c).dram = s.dram := by
  unfold State.withClock; split <;> rfl
@[simp] theorem State.withClock_dramBad (s : State) (c : Clk) : (s.withClock c).dramBad = s.dramBad := by
  unfold State.withClock; split <;> rfl
@[simp] theorem State.withClock_fbk (s : State) (c : Clk) : (s.withClock c).fbk = s.fbk := by
  unfold State.withClock; split <;> rfl
@[simp] theorem State.withClock_emu (s : State) (c : Clk) : (s.withClock c).emu = s.emu := by
  unfold State.withClock; split <;> rfl
@[simp] theorem State.withClock_balls (s : State) (c : Clk) : (s.withClock c).balls = s.balls := by
  unfold State.withClock; split <;> rfl
@[simp] theorem State.withClock_tclkGone (s : State) (c : Clk) : (s.withClock c).tclkGone = s.tclkGone := by
  unfold State.withClock; split <;> rfl
@[simp] theorem State.withClock_motionHalted (s : State) (c : Clk) : (s.withClock c).motionHalted = s.motionHalted := by
  unfold State.withClock; split <;> rfl
@[simp] theorem State.withClock_cmBad (s : State) (c : Clk) : (s.withClock c).cmBad = s.cmBad := by
  unfold State.withClock; split <;> rfl
@[simp] theorem State.withClock_cmOut (s : State) (c : Clk) : (s.withClock c).cmOut = s.cmOut := by
  unfold State.withClock; split <;> rfl
@[simp] theorem State.withClock_cmLast (s : State) (c : Clk) : (s.withClock c).cmLast = s.cmLast := by
  unfold State.withClock; split <;> rfl
@[simp] theorem State.withClock_sramTold (s : State) (c : Clk) : (s.withClock c).sramTold = s.sramTold := by
  unfold State.withClock; split <;> rfl
@[simp] theorem State.withClock_saf (s : State) (c : Clk) : (s.withClock c).saf = s.saf := by
  unfold State.withClock; split <;> rfl
@[simp] theorem State.withClock_sec (s : State) (c : Clk) : (s.withClock c).sec = s.sec := by
  unfold State.withClock; split <;> rfl
@[simp] theorem State.withClock_pwr (s : State) (c : Clk) : (s.withClock c).pwr = s.pwr := by
  unfold State.withClock; split <;> rfl
@[simp] theorem State.withClock_twin (s : State) (c : Clk) : (s.withClock c).twin = s.twin := by
  unfold State.withClock; split <;> rfl
@[simp] theorem State.withClock_fab (s : State) (c : Clk) : (s.withClock c).fab = s.fab := by
  unfold State.withClock; split <;> rfl
@[simp] theorem State.withClock_lnk (s : State) (c : Clk) : (s.withClock c).lnk = s.lnk := by
  unfold State.withClock; split <;> rfl

/-! ## advanceTo -/

@[simp] theorem State.advanceTo_pending (s : State) (t : Moment) : (s.advanceTo t).pending = s.pending := by
  simp only [State.advanceTo]; split <;> simp
@[simp] theorem State.advanceTo_free (s : State) (t : Moment) : (s.advanceTo t).free = s.free := by
  simp only [State.advanceTo]; split <;> simp
@[simp] theorem State.advanceTo_hostRead (s : State) (t : Moment) : (s.advanceTo t).hostRead = s.hostRead := by
  simp only [State.advanceTo]; split <;> simp
@[simp] theorem State.advanceTo_irqs (s : State) (t : Moment) : (s.advanceTo t).irqs = s.irqs := by
  simp only [State.advanceTo]; split <;> simp
@[simp] theorem State.advanceTo_pcie (s : State) (t : Moment) : (s.advanceTo t).pcie = s.pcie := by
  simp only [State.advanceTo]; split <;> simp
@[simp] theorem State.advanceTo_regs (s : State) (t : Moment) : (s.advanceTo t).regs = s.regs := by
  simp only [State.advanceTo]; split <;> simp
@[simp] theorem State.advanceTo_ic (s : State) (t : Moment) : (s.advanceTo t).ic = s.ic := by
  simp only [State.advanceTo]; split <;> simp
@[simp] theorem State.advanceTo_holdRead (s : State) (t : Moment) : (s.advanceTo t).holdRead = s.holdRead := by
  simp only [State.advanceTo]; split <;> simp
@[simp] theorem State.advanceTo_holdWrite (s : State) (t : Moment) : (s.advanceTo t).holdWrite = s.holdWrite := by
  simp only [State.advanceTo]; split <;> simp
@[simp] theorem State.advanceTo_tly (s : State) (t : Moment) : (s.advanceTo t).tly = s.tly := by
  simp only [State.advanceTo]; split <;> simp
@[simp] theorem State.advanceTo_ldg (s : State) (t : Moment) : (s.advanceTo t).ldg = s.ldg := by
  simp only [State.advanceTo]; split <;> simp
@[simp] theorem State.advanceTo_hostMem (s : State) (t : Moment) : (s.advanceTo t).hostMem = s.hostMem := by
  simp only [State.advanceTo]; split <;> simp
@[simp] theorem State.advanceTo_hostBad (s : State) (t : Moment) : (s.advanceTo t).hostBad = s.hostBad := by
  simp only [State.advanceTo]; split <;> simp
@[simp] theorem State.advanceTo_faults (s : State) (t : Moment) : (s.advanceTo t).faults = s.faults := by
  simp only [State.advanceTo]; split <;> simp
@[simp] theorem State.advanceTo_stall (s : State) (t : Moment) : (s.advanceTo t).stall = s.stall := by
  simp only [State.advanceTo]; split <;> simp
@[simp] theorem State.advanceTo_hwk (s : State) (t : Moment) : (s.advanceTo t).hwk = s.hwk := by
  simp only [State.advanceTo]; split <;> simp
@[simp] theorem State.advanceTo_core (s : State) (t : Moment) : (s.advanceTo t).core = s.core := by
  simp only [State.advanceTo]; split <;> simp
@[simp] theorem State.advanceTo_prog (s : State) (t : Moment) : (s.advanceTo t).prog = s.prog := by
  simp only [State.advanceTo]; split <;> simp
@[simp] theorem State.advanceTo_localMem (s : State) (t : Moment) : (s.advanceTo t).localMem = s.localMem := by
  simp only [State.advanceTo]; split <;> simp
@[simp] theorem State.advanceTo_localBad (s : State) (t : Moment) : (s.advanceTo t).localBad = s.localBad := by
  simp only [State.advanceTo]; split <;> simp
@[simp] theorem State.advanceTo_localSoft (s : State) (t : Moment) : (s.advanceTo t).localSoft = s.localSoft := by
  simp only [State.advanceTo]; split <;> simp
@[simp] theorem State.advanceTo_sram (s : State) (t : Moment) : (s.advanceTo t).sram = s.sram := by
  simp only [State.advanceTo]; split <;> simp
@[simp] theorem State.advanceTo_sramBad (s : State) (t : Moment) : (s.advanceTo t).sramBad = s.sramBad := by
  simp only [State.advanceTo]; split <;> simp
@[simp] theorem State.advanceTo_slice (s : State) (t : Moment) : (s.advanceTo t).slice = s.slice := by
  simp only [State.advanceTo]; split <;> simp
@[simp] theorem State.advanceTo_line (s : State) (t : Moment) : (s.advanceTo t).line = s.line := by
  simp only [State.advanceTo]; split <;> simp
@[simp] theorem State.advanceTo_serve (s : State) (t : Moment) : (s.advanceTo t).serve = s.serve := by
  simp only [State.advanceTo]; split <;> simp
@[simp] theorem State.advanceTo_bank (s : State) (t : Moment) : (s.advanceTo t).bank = s.bank := by
  simp only [State.advanceTo]; split <;> simp
@[simp] theorem State.advanceTo_conv (s : State) (t : Moment) : (s.advanceTo t).conv = s.conv := by
  simp only [State.advanceTo]; split <;> simp
@[simp] theorem State.advanceTo_mode (s : State) (t : Moment) : (s.advanceTo t).mode = s.mode := by
  simp only [State.advanceTo]; split <;> simp
@[simp] theorem State.advanceTo_coord (s : State) (t : Moment) : (s.advanceTo t).coord = s.coord := by
  simp only [State.advanceTo]; split <;> simp
@[simp] theorem State.advanceTo_phase (s : State) (t : Moment) : (s.advanceTo t).phase = s.phase := by
  simp only [State.advanceTo]; split <;> simp
@[simp] theorem State.advanceTo_dl (s : State) (t : Moment) : (s.advanceTo t).dl = s.dl := by
  simp only [State.advanceTo]; split <;> simp
@[simp] theorem State.advanceTo_grp (s : State) (t : Moment) : (s.advanceTo t).grp = s.grp := by
  simp only [State.advanceTo]; split <;> simp
@[simp] theorem State.advanceTo_cmp (s : State) (t : Moment) : (s.advanceTo t).cmp = s.cmp := by
  simp only [State.advanceTo]; split <;> simp
@[simp] theorem State.advanceTo_step (s : State) (t : Moment) : (s.advanceTo t).step = s.step := by
  simp only [State.advanceTo]; split <;> simp
@[simp] theorem State.advanceTo_dram (s : State) (t : Moment) : (s.advanceTo t).dram = s.dram := by
  simp only [State.advanceTo]; split <;> simp
@[simp] theorem State.advanceTo_dramBad (s : State) (t : Moment) : (s.advanceTo t).dramBad = s.dramBad := by
  simp only [State.advanceTo]; split <;> simp
@[simp] theorem State.advanceTo_fbk (s : State) (t : Moment) : (s.advanceTo t).fbk = s.fbk := by
  simp only [State.advanceTo]; split <;> simp
@[simp] theorem State.advanceTo_emu (s : State) (t : Moment) : (s.advanceTo t).emu = s.emu := by
  simp only [State.advanceTo]; split <;> simp
@[simp] theorem State.advanceTo_balls (s : State) (t : Moment) : (s.advanceTo t).balls = s.balls := by
  simp only [State.advanceTo]; split <;> simp
@[simp] theorem State.advanceTo_tclkGone (s : State) (t : Moment) : (s.advanceTo t).tclkGone = s.tclkGone := by
  simp only [State.advanceTo]; split <;> simp
@[simp] theorem State.advanceTo_motionHalted (s : State) (t : Moment) : (s.advanceTo t).motionHalted = s.motionHalted := by
  simp only [State.advanceTo]; split <;> simp
@[simp] theorem State.advanceTo_cmBad (s : State) (t : Moment) : (s.advanceTo t).cmBad = s.cmBad := by
  simp only [State.advanceTo]; split <;> simp
@[simp] theorem State.advanceTo_cmOut (s : State) (t : Moment) : (s.advanceTo t).cmOut = s.cmOut := by
  simp only [State.advanceTo]; split <;> simp
@[simp] theorem State.advanceTo_cmLast (s : State) (t : Moment) : (s.advanceTo t).cmLast = s.cmLast := by
  simp only [State.advanceTo]; split <;> simp
@[simp] theorem State.advanceTo_sramTold (s : State) (t : Moment) : (s.advanceTo t).sramTold = s.sramTold := by
  simp only [State.advanceTo]; split <;> simp
@[simp] theorem State.advanceTo_saf (s : State) (t : Moment) : (s.advanceTo t).saf = s.saf := by
  simp only [State.advanceTo]; split <;> simp
@[simp] theorem State.advanceTo_sec (s : State) (t : Moment) : (s.advanceTo t).sec = s.sec := by
  simp only [State.advanceTo]; split <;> simp
@[simp] theorem State.advanceTo_pwr (s : State) (t : Moment) : (s.advanceTo t).pwr = s.pwr := by
  simp only [State.advanceTo]; split <;> simp
@[simp] theorem State.advanceTo_twin (s : State) (t : Moment) : (s.advanceTo t).twin = s.twin := by
  simp only [State.advanceTo]; split <;> simp
@[simp] theorem State.advanceTo_fab (s : State) (t : Moment) : (s.advanceTo t).fab = s.fab := by
  simp only [State.advanceTo]; split <;> simp
@[simp] theorem State.advanceTo_lnk (s : State) (t : Moment) : (s.advanceTo t).lnk = s.lnk := by
  simp only [State.advanceTo]; split <;> simp

/-! ## advanceBy -/

@[simp] theorem State.advanceBy_pending (s : State) (n : Nat) : (s.advanceBy n).pending = s.pending := by
  simp only [State.advanceBy]; split <;> simp
@[simp] theorem State.advanceBy_free (s : State) (n : Nat) : (s.advanceBy n).free = s.free := by
  simp only [State.advanceBy]; split <;> simp
@[simp] theorem State.advanceBy_hostRead (s : State) (n : Nat) : (s.advanceBy n).hostRead = s.hostRead := by
  simp only [State.advanceBy]; split <;> simp
@[simp] theorem State.advanceBy_irqs (s : State) (n : Nat) : (s.advanceBy n).irqs = s.irqs := by
  simp only [State.advanceBy]; split <;> simp
@[simp] theorem State.advanceBy_pcie (s : State) (n : Nat) : (s.advanceBy n).pcie = s.pcie := by
  simp only [State.advanceBy]; split <;> simp
@[simp] theorem State.advanceBy_regs (s : State) (n : Nat) : (s.advanceBy n).regs = s.regs := by
  simp only [State.advanceBy]; split <;> simp
@[simp] theorem State.advanceBy_ic (s : State) (n : Nat) : (s.advanceBy n).ic = s.ic := by
  simp only [State.advanceBy]; split <;> simp
@[simp] theorem State.advanceBy_holdRead (s : State) (n : Nat) : (s.advanceBy n).holdRead = s.holdRead := by
  simp only [State.advanceBy]; split <;> simp
@[simp] theorem State.advanceBy_holdWrite (s : State) (n : Nat) : (s.advanceBy n).holdWrite = s.holdWrite := by
  simp only [State.advanceBy]; split <;> simp
@[simp] theorem State.advanceBy_tly (s : State) (n : Nat) : (s.advanceBy n).tly = s.tly := by
  simp only [State.advanceBy]; split <;> simp
@[simp] theorem State.advanceBy_ldg (s : State) (n : Nat) : (s.advanceBy n).ldg = s.ldg := by
  simp only [State.advanceBy]; split <;> simp
@[simp] theorem State.advanceBy_hostMem (s : State) (n : Nat) : (s.advanceBy n).hostMem = s.hostMem := by
  simp only [State.advanceBy]; split <;> simp
@[simp] theorem State.advanceBy_hostBad (s : State) (n : Nat) : (s.advanceBy n).hostBad = s.hostBad := by
  simp only [State.advanceBy]; split <;> simp
@[simp] theorem State.advanceBy_faults (s : State) (n : Nat) : (s.advanceBy n).faults = s.faults := by
  simp only [State.advanceBy]; split <;> simp
@[simp] theorem State.advanceBy_stall (s : State) (n : Nat) : (s.advanceBy n).stall = s.stall := by
  simp only [State.advanceBy]; split <;> simp
@[simp] theorem State.advanceBy_hwk (s : State) (n : Nat) : (s.advanceBy n).hwk = s.hwk := by
  simp only [State.advanceBy]; split <;> simp
@[simp] theorem State.advanceBy_core (s : State) (n : Nat) : (s.advanceBy n).core = s.core := by
  simp only [State.advanceBy]; split <;> simp
@[simp] theorem State.advanceBy_prog (s : State) (n : Nat) : (s.advanceBy n).prog = s.prog := by
  simp only [State.advanceBy]; split <;> simp
@[simp] theorem State.advanceBy_localMem (s : State) (n : Nat) : (s.advanceBy n).localMem = s.localMem := by
  simp only [State.advanceBy]; split <;> simp
@[simp] theorem State.advanceBy_localBad (s : State) (n : Nat) : (s.advanceBy n).localBad = s.localBad := by
  simp only [State.advanceBy]; split <;> simp
@[simp] theorem State.advanceBy_localSoft (s : State) (n : Nat) : (s.advanceBy n).localSoft = s.localSoft := by
  simp only [State.advanceBy]; split <;> simp
@[simp] theorem State.advanceBy_sram (s : State) (n : Nat) : (s.advanceBy n).sram = s.sram := by
  simp only [State.advanceBy]; split <;> simp
@[simp] theorem State.advanceBy_sramBad (s : State) (n : Nat) : (s.advanceBy n).sramBad = s.sramBad := by
  simp only [State.advanceBy]; split <;> simp
@[simp] theorem State.advanceBy_slice (s : State) (n : Nat) : (s.advanceBy n).slice = s.slice := by
  simp only [State.advanceBy]; split <;> simp
@[simp] theorem State.advanceBy_line (s : State) (n : Nat) : (s.advanceBy n).line = s.line := by
  simp only [State.advanceBy]; split <;> simp
@[simp] theorem State.advanceBy_serve (s : State) (n : Nat) : (s.advanceBy n).serve = s.serve := by
  simp only [State.advanceBy]; split <;> simp
@[simp] theorem State.advanceBy_bank (s : State) (n : Nat) : (s.advanceBy n).bank = s.bank := by
  simp only [State.advanceBy]; split <;> simp
@[simp] theorem State.advanceBy_conv (s : State) (n : Nat) : (s.advanceBy n).conv = s.conv := by
  simp only [State.advanceBy]; split <;> simp
@[simp] theorem State.advanceBy_mode (s : State) (n : Nat) : (s.advanceBy n).mode = s.mode := by
  simp only [State.advanceBy]; split <;> simp
@[simp] theorem State.advanceBy_coord (s : State) (n : Nat) : (s.advanceBy n).coord = s.coord := by
  simp only [State.advanceBy]; split <;> simp
@[simp] theorem State.advanceBy_phase (s : State) (n : Nat) : (s.advanceBy n).phase = s.phase := by
  simp only [State.advanceBy]; split <;> simp
@[simp] theorem State.advanceBy_dl (s : State) (n : Nat) : (s.advanceBy n).dl = s.dl := by
  simp only [State.advanceBy]; split <;> simp
@[simp] theorem State.advanceBy_grp (s : State) (n : Nat) : (s.advanceBy n).grp = s.grp := by
  simp only [State.advanceBy]; split <;> simp
@[simp] theorem State.advanceBy_cmp (s : State) (n : Nat) : (s.advanceBy n).cmp = s.cmp := by
  simp only [State.advanceBy]; split <;> simp
@[simp] theorem State.advanceBy_step (s : State) (n : Nat) : (s.advanceBy n).step = s.step := by
  simp only [State.advanceBy]; split <;> simp
@[simp] theorem State.advanceBy_dram (s : State) (n : Nat) : (s.advanceBy n).dram = s.dram := by
  simp only [State.advanceBy]; split <;> simp
@[simp] theorem State.advanceBy_dramBad (s : State) (n : Nat) : (s.advanceBy n).dramBad = s.dramBad := by
  simp only [State.advanceBy]; split <;> simp
@[simp] theorem State.advanceBy_fbk (s : State) (n : Nat) : (s.advanceBy n).fbk = s.fbk := by
  simp only [State.advanceBy]; split <;> simp
@[simp] theorem State.advanceBy_emu (s : State) (n : Nat) : (s.advanceBy n).emu = s.emu := by
  simp only [State.advanceBy]; split <;> simp
@[simp] theorem State.advanceBy_balls (s : State) (n : Nat) : (s.advanceBy n).balls = s.balls := by
  simp only [State.advanceBy]; split <;> simp
@[simp] theorem State.advanceBy_tclkGone (s : State) (n : Nat) : (s.advanceBy n).tclkGone = s.tclkGone := by
  simp only [State.advanceBy]; split <;> simp
@[simp] theorem State.advanceBy_motionHalted (s : State) (n : Nat) : (s.advanceBy n).motionHalted = s.motionHalted := by
  simp only [State.advanceBy]; split <;> simp
@[simp] theorem State.advanceBy_cmBad (s : State) (n : Nat) : (s.advanceBy n).cmBad = s.cmBad := by
  simp only [State.advanceBy]; split <;> simp
@[simp] theorem State.advanceBy_cmOut (s : State) (n : Nat) : (s.advanceBy n).cmOut = s.cmOut := by
  simp only [State.advanceBy]; split <;> simp
@[simp] theorem State.advanceBy_cmLast (s : State) (n : Nat) : (s.advanceBy n).cmLast = s.cmLast := by
  simp only [State.advanceBy]; split <;> simp
@[simp] theorem State.advanceBy_sramTold (s : State) (n : Nat) : (s.advanceBy n).sramTold = s.sramTold := by
  simp only [State.advanceBy]; split <;> simp
@[simp] theorem State.advanceBy_saf (s : State) (n : Nat) : (s.advanceBy n).saf = s.saf := by
  simp only [State.advanceBy]; split <;> simp
@[simp] theorem State.advanceBy_sec (s : State) (n : Nat) : (s.advanceBy n).sec = s.sec := by
  simp only [State.advanceBy]; split <;> simp
@[simp] theorem State.advanceBy_pwr (s : State) (n : Nat) : (s.advanceBy n).pwr = s.pwr := by
  simp only [State.advanceBy]; split <;> simp
@[simp] theorem State.advanceBy_twin (s : State) (n : Nat) : (s.advanceBy n).twin = s.twin := by
  simp only [State.advanceBy]; split <;> simp
@[simp] theorem State.advanceBy_fab (s : State) (n : Nat) : (s.advanceBy n).fab = s.fab := by
  simp only [State.advanceBy]; split <;> simp
@[simp] theorem State.advanceBy_lnk (s : State) (n : Nat) : (s.advanceBy n).lnk = s.lnk := by
  simp only [State.advanceBy]; split <;> simp

/-! ## triesRun -/

@[simp] theorem State.triesRun_pending (s : State) : (s.triesRun).pending = s.pending := by
  unfold State.triesRun; split <;> rfl
@[simp] theorem State.triesRun_free (s : State) : (s.triesRun).free = s.free := by
  unfold State.triesRun; split <;> rfl
@[simp] theorem State.triesRun_hostRead (s : State) : (s.triesRun).hostRead = s.hostRead := by
  unfold State.triesRun; split <;> rfl
@[simp] theorem State.triesRun_irqs (s : State) : (s.triesRun).irqs = s.irqs := by
  unfold State.triesRun; split <;> rfl
@[simp] theorem State.triesRun_pcie (s : State) : (s.triesRun).pcie = s.pcie := by
  unfold State.triesRun; split <;> rfl
@[simp] theorem State.triesRun_regs (s : State) : (s.triesRun).regs = s.regs := by
  unfold State.triesRun; split <;> rfl
@[simp] theorem State.triesRun_timed (s : State) : (s.triesRun).timed = s.timed := by
  unfold State.triesRun; split <;> rfl
@[simp] theorem State.triesRun_raised (s : State) : (s.triesRun).raised = s.raised := by
  unfold State.triesRun; split <;> rfl
@[simp] theorem State.triesRun_ic (s : State) : (s.triesRun).ic = s.ic := by
  unfold State.triesRun; split <;> rfl
@[simp] theorem State.triesRun_holdRead (s : State) : (s.triesRun).holdRead = s.holdRead := by
  unfold State.triesRun; split <;> rfl
@[simp] theorem State.triesRun_holdWrite (s : State) : (s.triesRun).holdWrite = s.holdWrite := by
  unfold State.triesRun; split <;> rfl
@[simp] theorem State.triesRun_clk (s : State) : (s.triesRun).clk = s.clk := by
  unfold State.triesRun; split <;> rfl
@[simp] theorem State.triesRun_tly (s : State) : (s.triesRun).tly = s.tly := by
  unfold State.triesRun; split <;> rfl
@[simp] theorem State.triesRun_ldg (s : State) : (s.triesRun).ldg = s.ldg := by
  unfold State.triesRun; split <;> rfl
@[simp] theorem State.triesRun_hostMem (s : State) : (s.triesRun).hostMem = s.hostMem := by
  unfold State.triesRun; split <;> rfl
@[simp] theorem State.triesRun_hostBad (s : State) : (s.triesRun).hostBad = s.hostBad := by
  unfold State.triesRun; split <;> rfl
@[simp] theorem State.triesRun_faults (s : State) : (s.triesRun).faults = s.faults := by
  unfold State.triesRun; split <;> rfl
@[simp] theorem State.triesRun_stall (s : State) : (s.triesRun).stall = s.stall := by
  unfold State.triesRun; split <;> rfl
@[simp] theorem State.triesRun_hwk (s : State) : (s.triesRun).hwk = s.hwk := by
  unfold State.triesRun; split <;> rfl
@[simp] theorem State.triesRun_core (s : State) : (s.triesRun).core = s.core := by
  unfold State.triesRun; split <;> rfl
@[simp] theorem State.triesRun_prog (s : State) : (s.triesRun).prog = s.prog := by
  unfold State.triesRun; split <;> rfl
@[simp] theorem State.triesRun_localMem (s : State) : (s.triesRun).localMem = s.localMem := by
  unfold State.triesRun; split <;> rfl
@[simp] theorem State.triesRun_localBad (s : State) : (s.triesRun).localBad = s.localBad := by
  unfold State.triesRun; split <;> rfl
@[simp] theorem State.triesRun_localSoft (s : State) : (s.triesRun).localSoft = s.localSoft := by
  unfold State.triesRun; split <;> rfl
@[simp] theorem State.triesRun_sram (s : State) : (s.triesRun).sram = s.sram := by
  unfold State.triesRun; split <;> rfl
@[simp] theorem State.triesRun_sramBad (s : State) : (s.triesRun).sramBad = s.sramBad := by
  unfold State.triesRun; split <;> rfl
@[simp] theorem State.triesRun_slice (s : State) : (s.triesRun).slice = s.slice := by
  unfold State.triesRun; split <;> rfl
@[simp] theorem State.triesRun_line (s : State) : (s.triesRun).line = s.line := by
  unfold State.triesRun; split <;> rfl
@[simp] theorem State.triesRun_serve (s : State) : (s.triesRun).serve = s.serve := by
  unfold State.triesRun; split <;> rfl
@[simp] theorem State.triesRun_bank (s : State) : (s.triesRun).bank = s.bank := by
  unfold State.triesRun; split <;> rfl
@[simp] theorem State.triesRun_conv (s : State) : (s.triesRun).conv = s.conv := by
  unfold State.triesRun; split <;> rfl
@[simp] theorem State.triesRun_mode (s : State) : (s.triesRun).mode = s.mode := by
  unfold State.triesRun; split <;> rfl
@[simp] theorem State.triesRun_coord (s : State) : (s.triesRun).coord = s.coord := by
  unfold State.triesRun; split <;> rfl
@[simp] theorem State.triesRun_phase (s : State) : (s.triesRun).phase = s.phase := by
  unfold State.triesRun; split <;> rfl
@[simp] theorem State.triesRun_dl (s : State) : (s.triesRun).dl = s.dl := by
  unfold State.triesRun; split <;> rfl
@[simp] theorem State.triesRun_grp (s : State) : (s.triesRun).grp = s.grp := by
  unfold State.triesRun; split <;> rfl
@[simp] theorem State.triesRun_cmp (s : State) : (s.triesRun).cmp = s.cmp := by
  unfold State.triesRun; split <;> rfl
@[simp] theorem State.triesRun_step (s : State) : (s.triesRun).step = s.step := by
  unfold State.triesRun; split <;> rfl
@[simp] theorem State.triesRun_dram (s : State) : (s.triesRun).dram = s.dram := by
  unfold State.triesRun; split <;> rfl
@[simp] theorem State.triesRun_dramBad (s : State) : (s.triesRun).dramBad = s.dramBad := by
  unfold State.triesRun; split <;> rfl
@[simp] theorem State.triesRun_fbk (s : State) : (s.triesRun).fbk = s.fbk := by
  unfold State.triesRun; split <;> rfl
@[simp] theorem State.triesRun_emu (s : State) : (s.triesRun).emu = s.emu := by
  unfold State.triesRun; split <;> rfl
@[simp] theorem State.triesRun_balls (s : State) : (s.triesRun).balls = s.balls := by
  unfold State.triesRun; split <;> rfl
@[simp] theorem State.triesRun_tclkGone (s : State) : (s.triesRun).tclkGone = s.tclkGone := by
  unfold State.triesRun; split <;> rfl
@[simp] theorem State.triesRun_motionHalted (s : State) : (s.triesRun).motionHalted = s.motionHalted := by
  unfold State.triesRun; split <;> rfl
@[simp] theorem State.triesRun_cmBad (s : State) : (s.triesRun).cmBad = s.cmBad := by
  unfold State.triesRun; split <;> rfl
@[simp] theorem State.triesRun_cmOut (s : State) : (s.triesRun).cmOut = s.cmOut := by
  unfold State.triesRun; split <;> rfl
@[simp] theorem State.triesRun_cmLast (s : State) : (s.triesRun).cmLast = s.cmLast := by
  unfold State.triesRun; split <;> rfl
@[simp] theorem State.triesRun_sramTold (s : State) : (s.triesRun).sramTold = s.sramTold := by
  unfold State.triesRun; split <;> rfl
@[simp] theorem State.triesRun_saf (s : State) : (s.triesRun).saf = s.saf := by
  unfold State.triesRun; split <;> rfl
@[simp] theorem State.triesRun_sec (s : State) : (s.triesRun).sec = s.sec := by
  unfold State.triesRun; split <;> rfl
@[simp] theorem State.triesRun_pwr (s : State) : (s.triesRun).pwr = s.pwr := by
  unfold State.triesRun; split <;> rfl
@[simp] theorem State.triesRun_twin (s : State) : (s.triesRun).twin = s.twin := by
  unfold State.triesRun; split <;> rfl
@[simp] theorem State.triesRun_lnk (s : State) : (s.triesRun).lnk = s.lnk := by
  unfold State.triesRun; split <;> rfl

/-! ## signal -/

@[simp] theorem State.signal_pending (s : State) (v : Nat) : (s.signal v).pending = s.pending := by
  simp only [State.signal]; split <;> simp
@[simp] theorem State.signal_free (s : State) (v : Nat) : (s.signal v).free = s.free := by
  simp only [State.signal]; split <;> simp
@[simp] theorem State.signal_hostRead (s : State) (v : Nat) : (s.signal v).hostRead = s.hostRead := by
  simp only [State.signal]; split <;> simp
@[simp] theorem State.signal_pcie (s : State) (v : Nat) : (s.signal v).pcie = s.pcie := by
  simp only [State.signal]; split <;> simp
@[simp] theorem State.signal_timed (s : State) (v : Nat) : (s.signal v).timed = s.timed := by
  simp only [State.signal]; split <;> simp
@[simp] theorem State.signal_raised (s : State) (v : Nat) : (s.signal v).raised = s.raised := by
  simp only [State.signal]; split <;> simp
@[simp] theorem State.signal_ic (s : State) (v : Nat) : (s.signal v).ic = s.ic := by
  simp only [State.signal]; split <;> simp
@[simp] theorem State.signal_holdRead (s : State) (v : Nat) : (s.signal v).holdRead = s.holdRead := by
  simp only [State.signal]; split <;> simp
@[simp] theorem State.signal_holdWrite (s : State) (v : Nat) : (s.signal v).holdWrite = s.holdWrite := by
  simp only [State.signal]; split <;> simp
@[simp] theorem State.signal_clk (s : State) (v : Nat) : (s.signal v).clk = s.clk := by
  simp only [State.signal]; split <;> simp
@[simp] theorem State.signal_tly (s : State) (v : Nat) : (s.signal v).tly = s.tly := by
  simp only [State.signal]; split <;> simp
@[simp] theorem State.signal_ldg (s : State) (v : Nat) : (s.signal v).ldg = s.ldg := by
  simp only [State.signal]; split <;> simp
@[simp] theorem State.signal_hostMem (s : State) (v : Nat) : (s.signal v).hostMem = s.hostMem := by
  simp only [State.signal]; split <;> simp
@[simp] theorem State.signal_hostBad (s : State) (v : Nat) : (s.signal v).hostBad = s.hostBad := by
  simp only [State.signal]; split <;> simp
@[simp] theorem State.signal_faults (s : State) (v : Nat) : (s.signal v).faults = s.faults := by
  simp only [State.signal]; split <;> simp
@[simp] theorem State.signal_stall (s : State) (v : Nat) : (s.signal v).stall = s.stall := by
  simp only [State.signal]; split <;> simp
@[simp] theorem State.signal_hwk (s : State) (v : Nat) : (s.signal v).hwk = s.hwk := by
  simp only [State.signal]; split <;> simp
@[simp] theorem State.signal_core (s : State) (v : Nat) : (s.signal v).core = s.core := by
  simp only [State.signal]; split <;> simp
@[simp] theorem State.signal_prog (s : State) (v : Nat) : (s.signal v).prog = s.prog := by
  simp only [State.signal]; split <;> simp
@[simp] theorem State.signal_localMem (s : State) (v : Nat) : (s.signal v).localMem = s.localMem := by
  simp only [State.signal]; split <;> simp
@[simp] theorem State.signal_localBad (s : State) (v : Nat) : (s.signal v).localBad = s.localBad := by
  simp only [State.signal]; split <;> simp
@[simp] theorem State.signal_localSoft (s : State) (v : Nat) : (s.signal v).localSoft = s.localSoft := by
  simp only [State.signal]; split <;> simp
@[simp] theorem State.signal_sram (s : State) (v : Nat) : (s.signal v).sram = s.sram := by
  simp only [State.signal]; split <;> simp
@[simp] theorem State.signal_sramBad (s : State) (v : Nat) : (s.signal v).sramBad = s.sramBad := by
  simp only [State.signal]; split <;> simp
@[simp] theorem State.signal_slice (s : State) (v : Nat) : (s.signal v).slice = s.slice := by
  simp only [State.signal]; split <;> simp
@[simp] theorem State.signal_line (s : State) (v : Nat) : (s.signal v).line = s.line := by
  simp only [State.signal]; split <;> simp
@[simp] theorem State.signal_serve (s : State) (v : Nat) : (s.signal v).serve = s.serve := by
  simp only [State.signal]; split <;> simp
@[simp] theorem State.signal_bank (s : State) (v : Nat) : (s.signal v).bank = s.bank := by
  simp only [State.signal]; split <;> simp
@[simp] theorem State.signal_conv (s : State) (v : Nat) : (s.signal v).conv = s.conv := by
  simp only [State.signal]; split <;> simp
@[simp] theorem State.signal_mode (s : State) (v : Nat) : (s.signal v).mode = s.mode := by
  simp only [State.signal]; split <;> simp
@[simp] theorem State.signal_coord (s : State) (v : Nat) : (s.signal v).coord = s.coord := by
  simp only [State.signal]; split <;> simp
@[simp] theorem State.signal_phase (s : State) (v : Nat) : (s.signal v).phase = s.phase := by
  simp only [State.signal]; split <;> simp
@[simp] theorem State.signal_dl (s : State) (v : Nat) : (s.signal v).dl = s.dl := by
  simp only [State.signal]; split <;> simp
@[simp] theorem State.signal_grp (s : State) (v : Nat) : (s.signal v).grp = s.grp := by
  simp only [State.signal]; split <;> simp
@[simp] theorem State.signal_cmp (s : State) (v : Nat) : (s.signal v).cmp = s.cmp := by
  simp only [State.signal]; split <;> simp
@[simp] theorem State.signal_step (s : State) (v : Nat) : (s.signal v).step = s.step := by
  simp only [State.signal]; split <;> simp
@[simp] theorem State.signal_dram (s : State) (v : Nat) : (s.signal v).dram = s.dram := by
  simp only [State.signal]; split <;> simp
@[simp] theorem State.signal_dramBad (s : State) (v : Nat) : (s.signal v).dramBad = s.dramBad := by
  simp only [State.signal]; split <;> simp
@[simp] theorem State.signal_fbk (s : State) (v : Nat) : (s.signal v).fbk = s.fbk := by
  simp only [State.signal]; split <;> simp
@[simp] theorem State.signal_emu (s : State) (v : Nat) : (s.signal v).emu = s.emu := by
  simp only [State.signal]; split <;> simp
@[simp] theorem State.signal_balls (s : State) (v : Nat) : (s.signal v).balls = s.balls := by
  simp only [State.signal]; split <;> simp
@[simp] theorem State.signal_tclkGone (s : State) (v : Nat) : (s.signal v).tclkGone = s.tclkGone := by
  simp only [State.signal]; split <;> simp
@[simp] theorem State.signal_motionHalted (s : State) (v : Nat) : (s.signal v).motionHalted = s.motionHalted := by
  simp only [State.signal]; split <;> simp
@[simp] theorem State.signal_cmBad (s : State) (v : Nat) : (s.signal v).cmBad = s.cmBad := by
  simp only [State.signal]; split <;> simp
@[simp] theorem State.signal_cmOut (s : State) (v : Nat) : (s.signal v).cmOut = s.cmOut := by
  simp only [State.signal]; split <;> simp
@[simp] theorem State.signal_cmLast (s : State) (v : Nat) : (s.signal v).cmLast = s.cmLast := by
  simp only [State.signal]; split <;> simp
@[simp] theorem State.signal_sramTold (s : State) (v : Nat) : (s.signal v).sramTold = s.sramTold := by
  simp only [State.signal]; split <;> simp
@[simp] theorem State.signal_saf (s : State) (v : Nat) : (s.signal v).saf = s.saf := by
  simp only [State.signal]; split <;> simp
@[simp] theorem State.signal_sec (s : State) (v : Nat) : (s.signal v).sec = s.sec := by
  simp only [State.signal]; split <;> simp
@[simp] theorem State.signal_pwr (s : State) (v : Nat) : (s.signal v).pwr = s.pwr := by
  simp only [State.signal]; split <;> simp
@[simp] theorem State.signal_twin (s : State) (v : Nat) : (s.signal v).twin = s.twin := by
  simp only [State.signal]; split <;> simp
@[simp] theorem State.signal_fab (s : State) (v : Nat) : (s.signal v).fab = s.fab := by
  simp only [State.signal]; split <;> simp
@[simp] theorem State.signal_lnk (s : State) (v : Nat) : (s.signal v).lnk = s.lnk := by
  simp only [State.signal]; split <;> simp

/-! ## tallyPut -/

@[simp] theorem State.tallyPut_pending (s : State) (r : TallyRec) : (s.tallyPut r).pending = s.pending := by
  unfold State.tallyPut; split
  · rfl
  · dsimp only; split <;> simp
@[simp] theorem State.tallyPut_free (s : State) (r : TallyRec) : (s.tallyPut r).free = s.free := by
  unfold State.tallyPut; split
  · rfl
  · dsimp only; split <;> simp
@[simp] theorem State.tallyPut_hostRead (s : State) (r : TallyRec) : (s.tallyPut r).hostRead = s.hostRead := by
  unfold State.tallyPut; split
  · rfl
  · dsimp only; split <;> simp
@[simp] theorem State.tallyPut_irqs (s : State) (r : TallyRec) : (s.tallyPut r).irqs = s.irqs := by
  unfold State.tallyPut; split
  · rfl
  · dsimp only; split <;> simp
@[simp] theorem State.tallyPut_pcie (s : State) (r : TallyRec) : (s.tallyPut r).pcie = s.pcie := by
  unfold State.tallyPut; split
  · rfl
  · dsimp only; split <;> simp
@[simp] theorem State.tallyPut_timed (s : State) (r : TallyRec) : (s.tallyPut r).timed = s.timed := by
  unfold State.tallyPut; split
  · rfl
  · dsimp only; split <;> simp
@[simp] theorem State.tallyPut_raised (s : State) (r : TallyRec) : (s.tallyPut r).raised = s.raised := by
  unfold State.tallyPut; split
  · rfl
  · dsimp only; split <;> simp
@[simp] theorem State.tallyPut_ic (s : State) (r : TallyRec) : (s.tallyPut r).ic = s.ic := by
  unfold State.tallyPut; split
  · rfl
  · dsimp only; split <;> simp
@[simp] theorem State.tallyPut_holdRead (s : State) (r : TallyRec) : (s.tallyPut r).holdRead = s.holdRead := by
  unfold State.tallyPut; split
  · rfl
  · dsimp only; split <;> simp
@[simp] theorem State.tallyPut_holdWrite (s : State) (r : TallyRec) : (s.tallyPut r).holdWrite = s.holdWrite := by
  unfold State.tallyPut; split
  · rfl
  · dsimp only; split <;> simp
@[simp] theorem State.tallyPut_clk (s : State) (r : TallyRec) : (s.tallyPut r).clk = s.clk := by
  unfold State.tallyPut; split
  · rfl
  · dsimp only; split <;> simp
@[simp] theorem State.tallyPut_ldg (s : State) (r : TallyRec) : (s.tallyPut r).ldg = s.ldg := by
  unfold State.tallyPut; split
  · rfl
  · dsimp only; split <;> simp
@[simp] theorem State.tallyPut_hostMem (s : State) (r : TallyRec) : (s.tallyPut r).hostMem = s.hostMem := by
  unfold State.tallyPut; split
  · rfl
  · dsimp only; split <;> simp
@[simp] theorem State.tallyPut_hostBad (s : State) (r : TallyRec) : (s.tallyPut r).hostBad = s.hostBad := by
  unfold State.tallyPut; split
  · rfl
  · dsimp only; split <;> simp
@[simp] theorem State.tallyPut_faults (s : State) (r : TallyRec) : (s.tallyPut r).faults = s.faults := by
  unfold State.tallyPut; split
  · rfl
  · dsimp only; split <;> simp
@[simp] theorem State.tallyPut_stall (s : State) (r : TallyRec) : (s.tallyPut r).stall = s.stall := by
  unfold State.tallyPut; split
  · rfl
  · dsimp only; split <;> simp
@[simp] theorem State.tallyPut_hwk (s : State) (r : TallyRec) : (s.tallyPut r).hwk = s.hwk := by
  unfold State.tallyPut; split
  · rfl
  · dsimp only; split <;> simp
@[simp] theorem State.tallyPut_core (s : State) (r : TallyRec) : (s.tallyPut r).core = s.core := by
  unfold State.tallyPut; split
  · rfl
  · dsimp only; split <;> simp
@[simp] theorem State.tallyPut_prog (s : State) (r : TallyRec) : (s.tallyPut r).prog = s.prog := by
  unfold State.tallyPut; split
  · rfl
  · dsimp only; split <;> simp
@[simp] theorem State.tallyPut_localMem (s : State) (r : TallyRec) : (s.tallyPut r).localMem = s.localMem := by
  unfold State.tallyPut; split
  · rfl
  · dsimp only; split <;> simp
@[simp] theorem State.tallyPut_localBad (s : State) (r : TallyRec) : (s.tallyPut r).localBad = s.localBad := by
  unfold State.tallyPut; split
  · rfl
  · dsimp only; split <;> simp
@[simp] theorem State.tallyPut_localSoft (s : State) (r : TallyRec) : (s.tallyPut r).localSoft = s.localSoft := by
  unfold State.tallyPut; split
  · rfl
  · dsimp only; split <;> simp
@[simp] theorem State.tallyPut_sram (s : State) (r : TallyRec) : (s.tallyPut r).sram = s.sram := by
  unfold State.tallyPut; split
  · rfl
  · dsimp only; split <;> simp
@[simp] theorem State.tallyPut_sramBad (s : State) (r : TallyRec) : (s.tallyPut r).sramBad = s.sramBad := by
  unfold State.tallyPut; split
  · rfl
  · dsimp only; split <;> simp
@[simp] theorem State.tallyPut_slice (s : State) (r : TallyRec) : (s.tallyPut r).slice = s.slice := by
  unfold State.tallyPut; split
  · rfl
  · dsimp only; split <;> simp
@[simp] theorem State.tallyPut_line (s : State) (r : TallyRec) : (s.tallyPut r).line = s.line := by
  unfold State.tallyPut; split
  · rfl
  · dsimp only; split <;> simp
@[simp] theorem State.tallyPut_serve (s : State) (r : TallyRec) : (s.tallyPut r).serve = s.serve := by
  unfold State.tallyPut; split
  · rfl
  · dsimp only; split <;> simp
@[simp] theorem State.tallyPut_bank (s : State) (r : TallyRec) : (s.tallyPut r).bank = s.bank := by
  unfold State.tallyPut; split
  · rfl
  · dsimp only; split <;> simp
@[simp] theorem State.tallyPut_conv (s : State) (r : TallyRec) : (s.tallyPut r).conv = s.conv := by
  unfold State.tallyPut; split
  · rfl
  · dsimp only; split <;> simp
@[simp] theorem State.tallyPut_mode (s : State) (r : TallyRec) : (s.tallyPut r).mode = s.mode := by
  unfold State.tallyPut; split
  · rfl
  · dsimp only; split <;> simp
@[simp] theorem State.tallyPut_coord (s : State) (r : TallyRec) : (s.tallyPut r).coord = s.coord := by
  unfold State.tallyPut; split
  · rfl
  · dsimp only; split <;> simp
@[simp] theorem State.tallyPut_phase (s : State) (r : TallyRec) : (s.tallyPut r).phase = s.phase := by
  unfold State.tallyPut; split
  · rfl
  · dsimp only; split <;> simp
@[simp] theorem State.tallyPut_dl (s : State) (r : TallyRec) : (s.tallyPut r).dl = s.dl := by
  unfold State.tallyPut; split
  · rfl
  · dsimp only; split <;> simp
@[simp] theorem State.tallyPut_grp (s : State) (r : TallyRec) : (s.tallyPut r).grp = s.grp := by
  unfold State.tallyPut; split
  · rfl
  · dsimp only; split <;> simp
@[simp] theorem State.tallyPut_cmp (s : State) (r : TallyRec) : (s.tallyPut r).cmp = s.cmp := by
  unfold State.tallyPut; split
  · rfl
  · dsimp only; split <;> simp
@[simp] theorem State.tallyPut_step (s : State) (r : TallyRec) : (s.tallyPut r).step = s.step := by
  unfold State.tallyPut; split
  · rfl
  · dsimp only; split <;> simp
@[simp] theorem State.tallyPut_dram (s : State) (r : TallyRec) : (s.tallyPut r).dram = s.dram := by
  unfold State.tallyPut; split
  · rfl
  · dsimp only; split <;> simp
@[simp] theorem State.tallyPut_dramBad (s : State) (r : TallyRec) : (s.tallyPut r).dramBad = s.dramBad := by
  unfold State.tallyPut; split
  · rfl
  · dsimp only; split <;> simp
@[simp] theorem State.tallyPut_fbk (s : State) (r : TallyRec) : (s.tallyPut r).fbk = s.fbk := by
  unfold State.tallyPut; split
  · rfl
  · dsimp only; split <;> simp
@[simp] theorem State.tallyPut_emu (s : State) (r : TallyRec) : (s.tallyPut r).emu = s.emu := by
  unfold State.tallyPut; split
  · rfl
  · dsimp only; split <;> simp
@[simp] theorem State.tallyPut_balls (s : State) (r : TallyRec) : (s.tallyPut r).balls = s.balls := by
  unfold State.tallyPut; split
  · rfl
  · dsimp only; split <;> simp
@[simp] theorem State.tallyPut_tclkGone (s : State) (r : TallyRec) : (s.tallyPut r).tclkGone = s.tclkGone := by
  unfold State.tallyPut; split
  · rfl
  · dsimp only; split <;> simp
@[simp] theorem State.tallyPut_motionHalted (s : State) (r : TallyRec) : (s.tallyPut r).motionHalted = s.motionHalted := by
  unfold State.tallyPut; split
  · rfl
  · dsimp only; split <;> simp
@[simp] theorem State.tallyPut_cmBad (s : State) (r : TallyRec) : (s.tallyPut r).cmBad = s.cmBad := by
  unfold State.tallyPut; split
  · rfl
  · dsimp only; split <;> simp
@[simp] theorem State.tallyPut_cmOut (s : State) (r : TallyRec) : (s.tallyPut r).cmOut = s.cmOut := by
  unfold State.tallyPut; split
  · rfl
  · dsimp only; split <;> simp
@[simp] theorem State.tallyPut_cmLast (s : State) (r : TallyRec) : (s.tallyPut r).cmLast = s.cmLast := by
  unfold State.tallyPut; split
  · rfl
  · dsimp only; split <;> simp
@[simp] theorem State.tallyPut_sramTold (s : State) (r : TallyRec) : (s.tallyPut r).sramTold = s.sramTold := by
  unfold State.tallyPut; split
  · rfl
  · dsimp only; split <;> simp
@[simp] theorem State.tallyPut_saf (s : State) (r : TallyRec) : (s.tallyPut r).saf = s.saf := by
  unfold State.tallyPut; split
  · rfl
  · dsimp only; split <;> simp
@[simp] theorem State.tallyPut_sec (s : State) (r : TallyRec) : (s.tallyPut r).sec = s.sec := by
  unfold State.tallyPut; split
  · rfl
  · dsimp only; split <;> simp
@[simp] theorem State.tallyPut_pwr (s : State) (r : TallyRec) : (s.tallyPut r).pwr = s.pwr := by
  unfold State.tallyPut; split
  · rfl
  · dsimp only; split <;> simp
@[simp] theorem State.tallyPut_twin (s : State) (r : TallyRec) : (s.tallyPut r).twin = s.twin := by
  unfold State.tallyPut; split
  · rfl
  · dsimp only; split <;> simp
@[simp] theorem State.tallyPut_fab (s : State) (r : TallyRec) : (s.tallyPut r).fab = s.fab := by
  unfold State.tallyPut; split
  · rfl
  · dsimp only; split <;> simp
@[simp] theorem State.tallyPut_lnk (s : State) (r : TallyRec) : (s.tallyPut r).lnk = s.lnk := by
  unfold State.tallyPut; split
  · rfl
  · dsimp only; split <;> simp

/-! ## tallyAt -/

@[simp] theorem State.tallyAt_pending (s : State) (t : Nat) (e : TEvent) (c : TSource) (d0 d1 d2 : Nat) : (s.tallyAt t e c d0 d1 d2).pending = s.pending := State.tallyPut_pending ..
@[simp] theorem State.tallyAt_free (s : State) (t : Nat) (e : TEvent) (c : TSource) (d0 d1 d2 : Nat) : (s.tallyAt t e c d0 d1 d2).free = s.free := State.tallyPut_free ..
@[simp] theorem State.tallyAt_hostRead (s : State) (t : Nat) (e : TEvent) (c : TSource) (d0 d1 d2 : Nat) : (s.tallyAt t e c d0 d1 d2).hostRead = s.hostRead := State.tallyPut_hostRead ..
@[simp] theorem State.tallyAt_irqs (s : State) (t : Nat) (e : TEvent) (c : TSource) (d0 d1 d2 : Nat) : (s.tallyAt t e c d0 d1 d2).irqs = s.irqs := State.tallyPut_irqs ..
@[simp] theorem State.tallyAt_pcie (s : State) (t : Nat) (e : TEvent) (c : TSource) (d0 d1 d2 : Nat) : (s.tallyAt t e c d0 d1 d2).pcie = s.pcie := State.tallyPut_pcie ..
@[simp] theorem State.tallyAt_timed (s : State) (t : Nat) (e : TEvent) (c : TSource) (d0 d1 d2 : Nat) : (s.tallyAt t e c d0 d1 d2).timed = s.timed := State.tallyPut_timed ..
@[simp] theorem State.tallyAt_raised (s : State) (t : Nat) (e : TEvent) (c : TSource) (d0 d1 d2 : Nat) : (s.tallyAt t e c d0 d1 d2).raised = s.raised := State.tallyPut_raised ..
@[simp] theorem State.tallyAt_ic (s : State) (t : Nat) (e : TEvent) (c : TSource) (d0 d1 d2 : Nat) : (s.tallyAt t e c d0 d1 d2).ic = s.ic := State.tallyPut_ic ..
@[simp] theorem State.tallyAt_holdRead (s : State) (t : Nat) (e : TEvent) (c : TSource) (d0 d1 d2 : Nat) : (s.tallyAt t e c d0 d1 d2).holdRead = s.holdRead := State.tallyPut_holdRead ..
@[simp] theorem State.tallyAt_holdWrite (s : State) (t : Nat) (e : TEvent) (c : TSource) (d0 d1 d2 : Nat) : (s.tallyAt t e c d0 d1 d2).holdWrite = s.holdWrite := State.tallyPut_holdWrite ..
@[simp] theorem State.tallyAt_clk (s : State) (t : Nat) (e : TEvent) (c : TSource) (d0 d1 d2 : Nat) : (s.tallyAt t e c d0 d1 d2).clk = s.clk := State.tallyPut_clk ..
@[simp] theorem State.tallyAt_ldg (s : State) (t : Nat) (e : TEvent) (c : TSource) (d0 d1 d2 : Nat) : (s.tallyAt t e c d0 d1 d2).ldg = s.ldg := State.tallyPut_ldg ..
@[simp] theorem State.tallyAt_hostMem (s : State) (t : Nat) (e : TEvent) (c : TSource) (d0 d1 d2 : Nat) : (s.tallyAt t e c d0 d1 d2).hostMem = s.hostMem := State.tallyPut_hostMem ..
@[simp] theorem State.tallyAt_hostBad (s : State) (t : Nat) (e : TEvent) (c : TSource) (d0 d1 d2 : Nat) : (s.tallyAt t e c d0 d1 d2).hostBad = s.hostBad := State.tallyPut_hostBad ..
@[simp] theorem State.tallyAt_faults (s : State) (t : Nat) (e : TEvent) (c : TSource) (d0 d1 d2 : Nat) : (s.tallyAt t e c d0 d1 d2).faults = s.faults := State.tallyPut_faults ..
@[simp] theorem State.tallyAt_stall (s : State) (t : Nat) (e : TEvent) (c : TSource) (d0 d1 d2 : Nat) : (s.tallyAt t e c d0 d1 d2).stall = s.stall := State.tallyPut_stall ..
@[simp] theorem State.tallyAt_hwk (s : State) (t : Nat) (e : TEvent) (c : TSource) (d0 d1 d2 : Nat) : (s.tallyAt t e c d0 d1 d2).hwk = s.hwk := State.tallyPut_hwk ..
@[simp] theorem State.tallyAt_core (s : State) (t : Nat) (e : TEvent) (c : TSource) (d0 d1 d2 : Nat) : (s.tallyAt t e c d0 d1 d2).core = s.core := State.tallyPut_core ..
@[simp] theorem State.tallyAt_prog (s : State) (t : Nat) (e : TEvent) (c : TSource) (d0 d1 d2 : Nat) : (s.tallyAt t e c d0 d1 d2).prog = s.prog := State.tallyPut_prog ..
@[simp] theorem State.tallyAt_localMem (s : State) (t : Nat) (e : TEvent) (c : TSource) (d0 d1 d2 : Nat) : (s.tallyAt t e c d0 d1 d2).localMem = s.localMem := State.tallyPut_localMem ..
@[simp] theorem State.tallyAt_localBad (s : State) (t : Nat) (e : TEvent) (c : TSource) (d0 d1 d2 : Nat) : (s.tallyAt t e c d0 d1 d2).localBad = s.localBad := State.tallyPut_localBad ..
@[simp] theorem State.tallyAt_localSoft (s : State) (t : Nat) (e : TEvent) (c : TSource) (d0 d1 d2 : Nat) : (s.tallyAt t e c d0 d1 d2).localSoft = s.localSoft := State.tallyPut_localSoft ..
@[simp] theorem State.tallyAt_sram (s : State) (t : Nat) (e : TEvent) (c : TSource) (d0 d1 d2 : Nat) : (s.tallyAt t e c d0 d1 d2).sram = s.sram := State.tallyPut_sram ..
@[simp] theorem State.tallyAt_sramBad (s : State) (t : Nat) (e : TEvent) (c : TSource) (d0 d1 d2 : Nat) : (s.tallyAt t e c d0 d1 d2).sramBad = s.sramBad := State.tallyPut_sramBad ..
@[simp] theorem State.tallyAt_slice (s : State) (t : Nat) (e : TEvent) (c : TSource) (d0 d1 d2 : Nat) : (s.tallyAt t e c d0 d1 d2).slice = s.slice := State.tallyPut_slice ..
@[simp] theorem State.tallyAt_line (s : State) (t : Nat) (e : TEvent) (c : TSource) (d0 d1 d2 : Nat) : (s.tallyAt t e c d0 d1 d2).line = s.line := State.tallyPut_line ..
@[simp] theorem State.tallyAt_serve (s : State) (t : Nat) (e : TEvent) (c : TSource) (d0 d1 d2 : Nat) : (s.tallyAt t e c d0 d1 d2).serve = s.serve := State.tallyPut_serve ..
@[simp] theorem State.tallyAt_bank (s : State) (t : Nat) (e : TEvent) (c : TSource) (d0 d1 d2 : Nat) : (s.tallyAt t e c d0 d1 d2).bank = s.bank := State.tallyPut_bank ..
@[simp] theorem State.tallyAt_conv (s : State) (t : Nat) (e : TEvent) (c : TSource) (d0 d1 d2 : Nat) : (s.tallyAt t e c d0 d1 d2).conv = s.conv := State.tallyPut_conv ..
@[simp] theorem State.tallyAt_mode (s : State) (t : Nat) (e : TEvent) (c : TSource) (d0 d1 d2 : Nat) : (s.tallyAt t e c d0 d1 d2).mode = s.mode := State.tallyPut_mode ..
@[simp] theorem State.tallyAt_coord (s : State) (t : Nat) (e : TEvent) (c : TSource) (d0 d1 d2 : Nat) : (s.tallyAt t e c d0 d1 d2).coord = s.coord := State.tallyPut_coord ..
@[simp] theorem State.tallyAt_phase (s : State) (t : Nat) (e : TEvent) (c : TSource) (d0 d1 d2 : Nat) : (s.tallyAt t e c d0 d1 d2).phase = s.phase := State.tallyPut_phase ..
@[simp] theorem State.tallyAt_dl (s : State) (t : Nat) (e : TEvent) (c : TSource) (d0 d1 d2 : Nat) : (s.tallyAt t e c d0 d1 d2).dl = s.dl := State.tallyPut_dl ..
@[simp] theorem State.tallyAt_grp (s : State) (t : Nat) (e : TEvent) (c : TSource) (d0 d1 d2 : Nat) : (s.tallyAt t e c d0 d1 d2).grp = s.grp := State.tallyPut_grp ..
@[simp] theorem State.tallyAt_cmp (s : State) (t : Nat) (e : TEvent) (c : TSource) (d0 d1 d2 : Nat) : (s.tallyAt t e c d0 d1 d2).cmp = s.cmp := State.tallyPut_cmp ..
@[simp] theorem State.tallyAt_step (s : State) (t : Nat) (e : TEvent) (c : TSource) (d0 d1 d2 : Nat) : (s.tallyAt t e c d0 d1 d2).step = s.step := State.tallyPut_step ..
@[simp] theorem State.tallyAt_dram (s : State) (t : Nat) (e : TEvent) (c : TSource) (d0 d1 d2 : Nat) : (s.tallyAt t e c d0 d1 d2).dram = s.dram := State.tallyPut_dram ..
@[simp] theorem State.tallyAt_dramBad (s : State) (t : Nat) (e : TEvent) (c : TSource) (d0 d1 d2 : Nat) : (s.tallyAt t e c d0 d1 d2).dramBad = s.dramBad := State.tallyPut_dramBad ..
@[simp] theorem State.tallyAt_fbk (s : State) (t : Nat) (e : TEvent) (c : TSource) (d0 d1 d2 : Nat) : (s.tallyAt t e c d0 d1 d2).fbk = s.fbk := State.tallyPut_fbk ..
@[simp] theorem State.tallyAt_emu (s : State) (t : Nat) (e : TEvent) (c : TSource) (d0 d1 d2 : Nat) : (s.tallyAt t e c d0 d1 d2).emu = s.emu := State.tallyPut_emu ..
@[simp] theorem State.tallyAt_balls (s : State) (t : Nat) (e : TEvent) (c : TSource) (d0 d1 d2 : Nat) : (s.tallyAt t e c d0 d1 d2).balls = s.balls := State.tallyPut_balls ..
@[simp] theorem State.tallyAt_tclkGone (s : State) (t : Nat) (e : TEvent) (c : TSource) (d0 d1 d2 : Nat) : (s.tallyAt t e c d0 d1 d2).tclkGone = s.tclkGone := State.tallyPut_tclkGone ..
@[simp] theorem State.tallyAt_motionHalted (s : State) (t : Nat) (e : TEvent) (c : TSource) (d0 d1 d2 : Nat) : (s.tallyAt t e c d0 d1 d2).motionHalted = s.motionHalted := State.tallyPut_motionHalted ..
@[simp] theorem State.tallyAt_cmBad (s : State) (t : Nat) (e : TEvent) (c : TSource) (d0 d1 d2 : Nat) : (s.tallyAt t e c d0 d1 d2).cmBad = s.cmBad := State.tallyPut_cmBad ..
@[simp] theorem State.tallyAt_cmOut (s : State) (t : Nat) (e : TEvent) (c : TSource) (d0 d1 d2 : Nat) : (s.tallyAt t e c d0 d1 d2).cmOut = s.cmOut := State.tallyPut_cmOut ..
@[simp] theorem State.tallyAt_cmLast (s : State) (t : Nat) (e : TEvent) (c : TSource) (d0 d1 d2 : Nat) : (s.tallyAt t e c d0 d1 d2).cmLast = s.cmLast := State.tallyPut_cmLast ..
@[simp] theorem State.tallyAt_sramTold (s : State) (t : Nat) (e : TEvent) (c : TSource) (d0 d1 d2 : Nat) : (s.tallyAt t e c d0 d1 d2).sramTold = s.sramTold := State.tallyPut_sramTold ..
@[simp] theorem State.tallyAt_saf (s : State) (t : Nat) (e : TEvent) (c : TSource) (d0 d1 d2 : Nat) : (s.tallyAt t e c d0 d1 d2).saf = s.saf := State.tallyPut_saf ..
@[simp] theorem State.tallyAt_sec (s : State) (t : Nat) (e : TEvent) (c : TSource) (d0 d1 d2 : Nat) : (s.tallyAt t e c d0 d1 d2).sec = s.sec := State.tallyPut_sec ..
@[simp] theorem State.tallyAt_pwr (s : State) (t : Nat) (e : TEvent) (c : TSource) (d0 d1 d2 : Nat) : (s.tallyAt t e c d0 d1 d2).pwr = s.pwr := State.tallyPut_pwr ..
@[simp] theorem State.tallyAt_twin (s : State) (t : Nat) (e : TEvent) (c : TSource) (d0 d1 d2 : Nat) : (s.tallyAt t e c d0 d1 d2).twin = s.twin := State.tallyPut_twin ..
@[simp] theorem State.tallyAt_fab (s : State) (t : Nat) (e : TEvent) (c : TSource) (d0 d1 d2 : Nat) : (s.tallyAt t e c d0 d1 d2).fab = s.fab := State.tallyPut_fab ..
@[simp] theorem State.tallyAt_lnk (s : State) (t : Nat) (e : TEvent) (c : TSource) (d0 d1 d2 : Nat) : (s.tallyAt t e c d0 d1 d2).lnk = s.lnk := State.tallyPut_lnk ..

/-! ## tally -/

@[simp] theorem State.tally_pending (s : State) (e : TEvent) (c : TSource) (d0 d1 d2 : Nat) : (s.tally e c d0 d1 d2).pending = s.pending := State.tallyAt_pending ..
@[simp] theorem State.tally_free (s : State) (e : TEvent) (c : TSource) (d0 d1 d2 : Nat) : (s.tally e c d0 d1 d2).free = s.free := State.tallyAt_free ..
@[simp] theorem State.tally_hostRead (s : State) (e : TEvent) (c : TSource) (d0 d1 d2 : Nat) : (s.tally e c d0 d1 d2).hostRead = s.hostRead := State.tallyAt_hostRead ..
@[simp] theorem State.tally_irqs (s : State) (e : TEvent) (c : TSource) (d0 d1 d2 : Nat) : (s.tally e c d0 d1 d2).irqs = s.irqs := State.tallyAt_irqs ..
@[simp] theorem State.tally_pcie (s : State) (e : TEvent) (c : TSource) (d0 d1 d2 : Nat) : (s.tally e c d0 d1 d2).pcie = s.pcie := State.tallyAt_pcie ..
@[simp] theorem State.tally_timed (s : State) (e : TEvent) (c : TSource) (d0 d1 d2 : Nat) : (s.tally e c d0 d1 d2).timed = s.timed := State.tallyAt_timed ..
@[simp] theorem State.tally_raised (s : State) (e : TEvent) (c : TSource) (d0 d1 d2 : Nat) : (s.tally e c d0 d1 d2).raised = s.raised := State.tallyAt_raised ..
@[simp] theorem State.tally_ic (s : State) (e : TEvent) (c : TSource) (d0 d1 d2 : Nat) : (s.tally e c d0 d1 d2).ic = s.ic := State.tallyAt_ic ..
@[simp] theorem State.tally_holdRead (s : State) (e : TEvent) (c : TSource) (d0 d1 d2 : Nat) : (s.tally e c d0 d1 d2).holdRead = s.holdRead := State.tallyAt_holdRead ..
@[simp] theorem State.tally_holdWrite (s : State) (e : TEvent) (c : TSource) (d0 d1 d2 : Nat) : (s.tally e c d0 d1 d2).holdWrite = s.holdWrite := State.tallyAt_holdWrite ..
@[simp] theorem State.tally_clk (s : State) (e : TEvent) (c : TSource) (d0 d1 d2 : Nat) : (s.tally e c d0 d1 d2).clk = s.clk := State.tallyAt_clk ..
@[simp] theorem State.tally_ldg (s : State) (e : TEvent) (c : TSource) (d0 d1 d2 : Nat) : (s.tally e c d0 d1 d2).ldg = s.ldg := State.tallyAt_ldg ..
@[simp] theorem State.tally_hostMem (s : State) (e : TEvent) (c : TSource) (d0 d1 d2 : Nat) : (s.tally e c d0 d1 d2).hostMem = s.hostMem := State.tallyAt_hostMem ..
@[simp] theorem State.tally_hostBad (s : State) (e : TEvent) (c : TSource) (d0 d1 d2 : Nat) : (s.tally e c d0 d1 d2).hostBad = s.hostBad := State.tallyAt_hostBad ..
@[simp] theorem State.tally_faults (s : State) (e : TEvent) (c : TSource) (d0 d1 d2 : Nat) : (s.tally e c d0 d1 d2).faults = s.faults := State.tallyAt_faults ..
@[simp] theorem State.tally_stall (s : State) (e : TEvent) (c : TSource) (d0 d1 d2 : Nat) : (s.tally e c d0 d1 d2).stall = s.stall := State.tallyAt_stall ..
@[simp] theorem State.tally_hwk (s : State) (e : TEvent) (c : TSource) (d0 d1 d2 : Nat) : (s.tally e c d0 d1 d2).hwk = s.hwk := State.tallyAt_hwk ..
@[simp] theorem State.tally_core (s : State) (e : TEvent) (c : TSource) (d0 d1 d2 : Nat) : (s.tally e c d0 d1 d2).core = s.core := State.tallyAt_core ..
@[simp] theorem State.tally_prog (s : State) (e : TEvent) (c : TSource) (d0 d1 d2 : Nat) : (s.tally e c d0 d1 d2).prog = s.prog := State.tallyAt_prog ..
@[simp] theorem State.tally_localMem (s : State) (e : TEvent) (c : TSource) (d0 d1 d2 : Nat) : (s.tally e c d0 d1 d2).localMem = s.localMem := State.tallyAt_localMem ..
@[simp] theorem State.tally_localBad (s : State) (e : TEvent) (c : TSource) (d0 d1 d2 : Nat) : (s.tally e c d0 d1 d2).localBad = s.localBad := State.tallyAt_localBad ..
@[simp] theorem State.tally_localSoft (s : State) (e : TEvent) (c : TSource) (d0 d1 d2 : Nat) : (s.tally e c d0 d1 d2).localSoft = s.localSoft := State.tallyAt_localSoft ..
@[simp] theorem State.tally_sram (s : State) (e : TEvent) (c : TSource) (d0 d1 d2 : Nat) : (s.tally e c d0 d1 d2).sram = s.sram := State.tallyAt_sram ..
@[simp] theorem State.tally_sramBad (s : State) (e : TEvent) (c : TSource) (d0 d1 d2 : Nat) : (s.tally e c d0 d1 d2).sramBad = s.sramBad := State.tallyAt_sramBad ..
@[simp] theorem State.tally_slice (s : State) (e : TEvent) (c : TSource) (d0 d1 d2 : Nat) : (s.tally e c d0 d1 d2).slice = s.slice := State.tallyAt_slice ..
@[simp] theorem State.tally_line (s : State) (e : TEvent) (c : TSource) (d0 d1 d2 : Nat) : (s.tally e c d0 d1 d2).line = s.line := State.tallyAt_line ..
@[simp] theorem State.tally_serve (s : State) (e : TEvent) (c : TSource) (d0 d1 d2 : Nat) : (s.tally e c d0 d1 d2).serve = s.serve := State.tallyAt_serve ..
@[simp] theorem State.tally_bank (s : State) (e : TEvent) (c : TSource) (d0 d1 d2 : Nat) : (s.tally e c d0 d1 d2).bank = s.bank := State.tallyAt_bank ..
@[simp] theorem State.tally_conv (s : State) (e : TEvent) (c : TSource) (d0 d1 d2 : Nat) : (s.tally e c d0 d1 d2).conv = s.conv := State.tallyAt_conv ..
@[simp] theorem State.tally_mode (s : State) (e : TEvent) (c : TSource) (d0 d1 d2 : Nat) : (s.tally e c d0 d1 d2).mode = s.mode := State.tallyAt_mode ..
@[simp] theorem State.tally_coord (s : State) (e : TEvent) (c : TSource) (d0 d1 d2 : Nat) : (s.tally e c d0 d1 d2).coord = s.coord := State.tallyAt_coord ..
@[simp] theorem State.tally_phase (s : State) (e : TEvent) (c : TSource) (d0 d1 d2 : Nat) : (s.tally e c d0 d1 d2).phase = s.phase := State.tallyAt_phase ..
@[simp] theorem State.tally_dl (s : State) (e : TEvent) (c : TSource) (d0 d1 d2 : Nat) : (s.tally e c d0 d1 d2).dl = s.dl := State.tallyAt_dl ..
@[simp] theorem State.tally_grp (s : State) (e : TEvent) (c : TSource) (d0 d1 d2 : Nat) : (s.tally e c d0 d1 d2).grp = s.grp := State.tallyAt_grp ..
@[simp] theorem State.tally_cmp (s : State) (e : TEvent) (c : TSource) (d0 d1 d2 : Nat) : (s.tally e c d0 d1 d2).cmp = s.cmp := State.tallyAt_cmp ..
@[simp] theorem State.tally_step (s : State) (e : TEvent) (c : TSource) (d0 d1 d2 : Nat) : (s.tally e c d0 d1 d2).step = s.step := State.tallyAt_step ..
@[simp] theorem State.tally_dram (s : State) (e : TEvent) (c : TSource) (d0 d1 d2 : Nat) : (s.tally e c d0 d1 d2).dram = s.dram := State.tallyAt_dram ..
@[simp] theorem State.tally_dramBad (s : State) (e : TEvent) (c : TSource) (d0 d1 d2 : Nat) : (s.tally e c d0 d1 d2).dramBad = s.dramBad := State.tallyAt_dramBad ..
@[simp] theorem State.tally_fbk (s : State) (e : TEvent) (c : TSource) (d0 d1 d2 : Nat) : (s.tally e c d0 d1 d2).fbk = s.fbk := State.tallyAt_fbk ..
@[simp] theorem State.tally_emu (s : State) (e : TEvent) (c : TSource) (d0 d1 d2 : Nat) : (s.tally e c d0 d1 d2).emu = s.emu := State.tallyAt_emu ..
@[simp] theorem State.tally_balls (s : State) (e : TEvent) (c : TSource) (d0 d1 d2 : Nat) : (s.tally e c d0 d1 d2).balls = s.balls := State.tallyAt_balls ..
@[simp] theorem State.tally_tclkGone (s : State) (e : TEvent) (c : TSource) (d0 d1 d2 : Nat) : (s.tally e c d0 d1 d2).tclkGone = s.tclkGone := State.tallyAt_tclkGone ..
@[simp] theorem State.tally_motionHalted (s : State) (e : TEvent) (c : TSource) (d0 d1 d2 : Nat) : (s.tally e c d0 d1 d2).motionHalted = s.motionHalted := State.tallyAt_motionHalted ..
@[simp] theorem State.tally_cmBad (s : State) (e : TEvent) (c : TSource) (d0 d1 d2 : Nat) : (s.tally e c d0 d1 d2).cmBad = s.cmBad := State.tallyAt_cmBad ..
@[simp] theorem State.tally_cmOut (s : State) (e : TEvent) (c : TSource) (d0 d1 d2 : Nat) : (s.tally e c d0 d1 d2).cmOut = s.cmOut := State.tallyAt_cmOut ..
@[simp] theorem State.tally_cmLast (s : State) (e : TEvent) (c : TSource) (d0 d1 d2 : Nat) : (s.tally e c d0 d1 d2).cmLast = s.cmLast := State.tallyAt_cmLast ..
@[simp] theorem State.tally_sramTold (s : State) (e : TEvent) (c : TSource) (d0 d1 d2 : Nat) : (s.tally e c d0 d1 d2).sramTold = s.sramTold := State.tallyAt_sramTold ..
@[simp] theorem State.tally_saf (s : State) (e : TEvent) (c : TSource) (d0 d1 d2 : Nat) : (s.tally e c d0 d1 d2).saf = s.saf := State.tallyAt_saf ..
@[simp] theorem State.tally_sec (s : State) (e : TEvent) (c : TSource) (d0 d1 d2 : Nat) : (s.tally e c d0 d1 d2).sec = s.sec := State.tallyAt_sec ..
@[simp] theorem State.tally_pwr (s : State) (e : TEvent) (c : TSource) (d0 d1 d2 : Nat) : (s.tally e c d0 d1 d2).pwr = s.pwr := State.tallyAt_pwr ..
@[simp] theorem State.tally_twin (s : State) (e : TEvent) (c : TSource) (d0 d1 d2 : Nat) : (s.tally e c d0 d1 d2).twin = s.twin := State.tallyAt_twin ..
@[simp] theorem State.tally_fab (s : State) (e : TEvent) (c : TSource) (d0 d1 d2 : Nat) : (s.tally e c d0 d1 d2).fab = s.fab := State.tallyAt_fab ..
@[simp] theorem State.tally_lnk (s : State) (e : TEvent) (c : TSource) (d0 d1 d2 : Nat) : (s.tally e c d0 d1 d2).lnk = s.lnk := State.tallyAt_lnk ..

/-! ## discard -/

@[simp] theorem State.discard_pending (s : State) (w : Writer) (off : Nat) (why : Discard) (v : Nat) : (s.discard w off why v).pending = s.pending := State.tally_pending ..
@[simp] theorem State.discard_free (s : State) (w : Writer) (off : Nat) (why : Discard) (v : Nat) : (s.discard w off why v).free = s.free := State.tally_free ..
@[simp] theorem State.discard_hostRead (s : State) (w : Writer) (off : Nat) (why : Discard) (v : Nat) : (s.discard w off why v).hostRead = s.hostRead := State.tally_hostRead ..
@[simp] theorem State.discard_irqs (s : State) (w : Writer) (off : Nat) (why : Discard) (v : Nat) : (s.discard w off why v).irqs = s.irqs := State.tally_irqs ..
@[simp] theorem State.discard_pcie (s : State) (w : Writer) (off : Nat) (why : Discard) (v : Nat) : (s.discard w off why v).pcie = s.pcie := State.tally_pcie ..
@[simp] theorem State.discard_timed (s : State) (w : Writer) (off : Nat) (why : Discard) (v : Nat) : (s.discard w off why v).timed = s.timed := State.tally_timed ..
@[simp] theorem State.discard_raised (s : State) (w : Writer) (off : Nat) (why : Discard) (v : Nat) : (s.discard w off why v).raised = s.raised := State.tally_raised ..
@[simp] theorem State.discard_ic (s : State) (w : Writer) (off : Nat) (why : Discard) (v : Nat) : (s.discard w off why v).ic = s.ic := State.tally_ic ..
@[simp] theorem State.discard_holdRead (s : State) (w : Writer) (off : Nat) (why : Discard) (v : Nat) : (s.discard w off why v).holdRead = s.holdRead := State.tally_holdRead ..
@[simp] theorem State.discard_holdWrite (s : State) (w : Writer) (off : Nat) (why : Discard) (v : Nat) : (s.discard w off why v).holdWrite = s.holdWrite := State.tally_holdWrite ..
@[simp] theorem State.discard_clk (s : State) (w : Writer) (off : Nat) (why : Discard) (v : Nat) : (s.discard w off why v).clk = s.clk := State.tally_clk ..
@[simp] theorem State.discard_ldg (s : State) (w : Writer) (off : Nat) (why : Discard) (v : Nat) : (s.discard w off why v).ldg = s.ldg := State.tally_ldg ..
@[simp] theorem State.discard_hostMem (s : State) (w : Writer) (off : Nat) (why : Discard) (v : Nat) : (s.discard w off why v).hostMem = s.hostMem := State.tally_hostMem ..
@[simp] theorem State.discard_hostBad (s : State) (w : Writer) (off : Nat) (why : Discard) (v : Nat) : (s.discard w off why v).hostBad = s.hostBad := State.tally_hostBad ..
@[simp] theorem State.discard_faults (s : State) (w : Writer) (off : Nat) (why : Discard) (v : Nat) : (s.discard w off why v).faults = s.faults := State.tally_faults ..
@[simp] theorem State.discard_stall (s : State) (w : Writer) (off : Nat) (why : Discard) (v : Nat) : (s.discard w off why v).stall = s.stall := State.tally_stall ..
@[simp] theorem State.discard_hwk (s : State) (w : Writer) (off : Nat) (why : Discard) (v : Nat) : (s.discard w off why v).hwk = s.hwk := State.tally_hwk ..
@[simp] theorem State.discard_core (s : State) (w : Writer) (off : Nat) (why : Discard) (v : Nat) : (s.discard w off why v).core = s.core := State.tally_core ..
@[simp] theorem State.discard_prog (s : State) (w : Writer) (off : Nat) (why : Discard) (v : Nat) : (s.discard w off why v).prog = s.prog := State.tally_prog ..
@[simp] theorem State.discard_localMem (s : State) (w : Writer) (off : Nat) (why : Discard) (v : Nat) : (s.discard w off why v).localMem = s.localMem := State.tally_localMem ..
@[simp] theorem State.discard_localBad (s : State) (w : Writer) (off : Nat) (why : Discard) (v : Nat) : (s.discard w off why v).localBad = s.localBad := State.tally_localBad ..
@[simp] theorem State.discard_localSoft (s : State) (w : Writer) (off : Nat) (why : Discard) (v : Nat) : (s.discard w off why v).localSoft = s.localSoft := State.tally_localSoft ..
@[simp] theorem State.discard_sram (s : State) (w : Writer) (off : Nat) (why : Discard) (v : Nat) : (s.discard w off why v).sram = s.sram := State.tally_sram ..
@[simp] theorem State.discard_sramBad (s : State) (w : Writer) (off : Nat) (why : Discard) (v : Nat) : (s.discard w off why v).sramBad = s.sramBad := State.tally_sramBad ..
@[simp] theorem State.discard_slice (s : State) (w : Writer) (off : Nat) (why : Discard) (v : Nat) : (s.discard w off why v).slice = s.slice := State.tally_slice ..
@[simp] theorem State.discard_line (s : State) (w : Writer) (off : Nat) (why : Discard) (v : Nat) : (s.discard w off why v).line = s.line := State.tally_line ..
@[simp] theorem State.discard_serve (s : State) (w : Writer) (off : Nat) (why : Discard) (v : Nat) : (s.discard w off why v).serve = s.serve := State.tally_serve ..
@[simp] theorem State.discard_bank (s : State) (w : Writer) (off : Nat) (why : Discard) (v : Nat) : (s.discard w off why v).bank = s.bank := State.tally_bank ..
@[simp] theorem State.discard_conv (s : State) (w : Writer) (off : Nat) (why : Discard) (v : Nat) : (s.discard w off why v).conv = s.conv := State.tally_conv ..
@[simp] theorem State.discard_mode (s : State) (w : Writer) (off : Nat) (why : Discard) (v : Nat) : (s.discard w off why v).mode = s.mode := State.tally_mode ..
@[simp] theorem State.discard_coord (s : State) (w : Writer) (off : Nat) (why : Discard) (v : Nat) : (s.discard w off why v).coord = s.coord := State.tally_coord ..
@[simp] theorem State.discard_phase (s : State) (w : Writer) (off : Nat) (why : Discard) (v : Nat) : (s.discard w off why v).phase = s.phase := State.tally_phase ..
@[simp] theorem State.discard_dl (s : State) (w : Writer) (off : Nat) (why : Discard) (v : Nat) : (s.discard w off why v).dl = s.dl := State.tally_dl ..
@[simp] theorem State.discard_grp (s : State) (w : Writer) (off : Nat) (why : Discard) (v : Nat) : (s.discard w off why v).grp = s.grp := State.tally_grp ..
@[simp] theorem State.discard_cmp (s : State) (w : Writer) (off : Nat) (why : Discard) (v : Nat) : (s.discard w off why v).cmp = s.cmp := State.tally_cmp ..
@[simp] theorem State.discard_step (s : State) (w : Writer) (off : Nat) (why : Discard) (v : Nat) : (s.discard w off why v).step = s.step := State.tally_step ..
@[simp] theorem State.discard_dram (s : State) (w : Writer) (off : Nat) (why : Discard) (v : Nat) : (s.discard w off why v).dram = s.dram := State.tally_dram ..
@[simp] theorem State.discard_dramBad (s : State) (w : Writer) (off : Nat) (why : Discard) (v : Nat) : (s.discard w off why v).dramBad = s.dramBad := State.tally_dramBad ..
@[simp] theorem State.discard_fbk (s : State) (w : Writer) (off : Nat) (why : Discard) (v : Nat) : (s.discard w off why v).fbk = s.fbk := State.tally_fbk ..
@[simp] theorem State.discard_emu (s : State) (w : Writer) (off : Nat) (why : Discard) (v : Nat) : (s.discard w off why v).emu = s.emu := State.tally_emu ..
@[simp] theorem State.discard_balls (s : State) (w : Writer) (off : Nat) (why : Discard) (v : Nat) : (s.discard w off why v).balls = s.balls := State.tally_balls ..
@[simp] theorem State.discard_tclkGone (s : State) (w : Writer) (off : Nat) (why : Discard) (v : Nat) : (s.discard w off why v).tclkGone = s.tclkGone := State.tally_tclkGone ..
@[simp] theorem State.discard_motionHalted (s : State) (w : Writer) (off : Nat) (why : Discard) (v : Nat) : (s.discard w off why v).motionHalted = s.motionHalted := State.tally_motionHalted ..
@[simp] theorem State.discard_cmBad (s : State) (w : Writer) (off : Nat) (why : Discard) (v : Nat) : (s.discard w off why v).cmBad = s.cmBad := State.tally_cmBad ..
@[simp] theorem State.discard_cmOut (s : State) (w : Writer) (off : Nat) (why : Discard) (v : Nat) : (s.discard w off why v).cmOut = s.cmOut := State.tally_cmOut ..
@[simp] theorem State.discard_cmLast (s : State) (w : Writer) (off : Nat) (why : Discard) (v : Nat) : (s.discard w off why v).cmLast = s.cmLast := State.tally_cmLast ..
@[simp] theorem State.discard_sramTold (s : State) (w : Writer) (off : Nat) (why : Discard) (v : Nat) : (s.discard w off why v).sramTold = s.sramTold := State.tally_sramTold ..
@[simp] theorem State.discard_saf (s : State) (w : Writer) (off : Nat) (why : Discard) (v : Nat) : (s.discard w off why v).saf = s.saf := State.tally_saf ..
@[simp] theorem State.discard_sec (s : State) (w : Writer) (off : Nat) (why : Discard) (v : Nat) : (s.discard w off why v).sec = s.sec := State.tally_sec ..
@[simp] theorem State.discard_pwr (s : State) (w : Writer) (off : Nat) (why : Discard) (v : Nat) : (s.discard w off why v).pwr = s.pwr := State.tally_pwr ..
@[simp] theorem State.discard_twin (s : State) (w : Writer) (off : Nat) (why : Discard) (v : Nat) : (s.discard w off why v).twin = s.twin := State.tally_twin ..
@[simp] theorem State.discard_fab (s : State) (w : Writer) (off : Nat) (why : Discard) (v : Nat) : (s.discard w off why v).fab = s.fab := State.tally_fab ..
@[simp] theorem State.discard_lnk (s : State) (w : Writer) (off : Nat) (why : Discard) (v : Nat) : (s.discard w off why v).lnk = s.lnk := State.tally_lnk ..

end Sys2Proof.Machine
end

