-- ==== Sys2Proof/Laws/Tab.lean ====
section
/-!
SUPPORT. Laws of the sorted tables that hold registers, memories and objects: a read after a write, and the canonical
form that every write keeps.
-/

namespace Sys2Proof.Machine

variable {α : Type}

theorem Tab.find?_insert_same (t : Tab α) (k : Nat) (v : α) : Tab.find? (Tab.insert t k v) k = some v := by
  induction t with
  | nil => simp [Tab.insert, Tab.find?]
  | cons e t ih =>
    obtain ⟨a, w⟩ := e
    unfold Tab.insert
    split
    · simp [Tab.find?]
    · split
      · simp [Tab.find?]
      · next h => simp [Tab.find?, h, ih]

theorem Tab.find?_insert_other (t : Tab α) {j k : Nat} (v : α) (h : j ≠ k) :
    Tab.find? (Tab.insert t k v) j = Tab.find? t j := by
  induction t with
  | nil => simp [Tab.insert, Tab.find?, h]
  | cons e t ih =>
    obtain ⟨a, w⟩ := e
    unfold Tab.insert
    split
    · simp [Tab.find?, h]
    · split
      · next hk => subst hk; simp [Tab.find?, h]
      · simp [Tab.find?, ih]

theorem Tab.find?_erase_same (t : Tab α) (k : Nat) : Tab.find? (Tab.erase t k) k = none := by
  induction t with
  | nil => rfl
  | cons e t ih =>
    obtain ⟨a, w⟩ := e
    unfold Tab.erase at ih ⊢
    by_cases h : a = k
    · simpa [h] using ih
    · have h' : k ≠ a := fun e => h e.symm
      simpa [h, h', Tab.find?] using ih

theorem Tab.find?_erase_other (t : Tab α) {j k : Nat} (h : j ≠ k) : Tab.find? (Tab.erase t k) j = Tab.find? t j := by
  induction t with
  | nil => rfl
  | cons e t ih =>
    obtain ⟨a, w⟩ := e
    unfold Tab.erase at ih ⊢
    by_cases hk : a = k
    · subst hk; simpa [h, Tab.find?] using ih
    · simp only [List.filter, hk, ne_eq, not_false_eq_true, decide_true, Tab.find?]
      split
      · rfl
      · exact ih

/-- A read after a write of the same key gives the value written. -/
@[simp] theorem Tab.get_set_same [DecidableEq α] (d : Nat → α) (t : Tab α) (k : Nat) (v : α) :
    Tab.get d (Tab.set d t k v) k = v := by
  unfold Tab.set Tab.get
  split
  · next h => simp [Tab.find?_erase_same, h]
  · simp [Tab.find?_insert_same]

/-- A write leaves every other key alone. -/
theorem Tab.get_set_other [DecidableEq α] (d : Nat → α) (t : Tab α) {j k : Nat} (v : α) (h : j ≠ k) :
    Tab.get d (Tab.set d t k v) j = Tab.get d t j := by
  unfold Tab.set Tab.get
  split
  · rw [Tab.find?_erase_other t h]
  · rw [Tab.find?_insert_other t v h]

/-- A read after a write, both cases. -/
theorem Tab.get_set [DecidableEq α] (d : Nat → α) (t : Tab α) (j k : Nat) (v : α) :
    Tab.get d (Tab.set d t k v) j = if j = k then v else Tab.get d t j := by
  by_cases h : j = k
  · subst h; simp
  · simp [Tab.get_set_other d t v h, h]

/-! ## The canonical form -/

theorem Tab.sortedAbove_mono {lo lo' : Option Nat} {t : Tab α} (h : Tab.sortedAbove lo t = true)
    (hl : ∀ l', lo' = some l' → ∃ l, lo = some l ∧ l' ≤ l) : Tab.sortedAbove lo' t = true := by
  cases t with
  | nil => rfl
  | cons e t =>
    obtain ⟨a, w⟩ := e
    simp only [Tab.sortedAbove, Bool.and_eq_true] at h ⊢
    refine ⟨?_, h.2⟩
    cases lo' with
    | none => rfl
    | some l' =>
      obtain ⟨l, rfl, hle⟩ := hl l' rfl
      have := h.1
      simp only [decide_eq_true_eq] at this ⊢
      omega

theorem Tab.sortedAbove_insert {lo : Option Nat} {t : Tab α} {k : Nat} (v : α) (h : Tab.sortedAbove lo t = true)
    (hk : ∀ l, lo = some l → l < k) : Tab.sortedAbove lo (Tab.insert t k v) = true := by
  induction t generalizing lo with
  | nil =>
    cases lo with
    | none => rfl
    | some l => simp [Tab.insert, Tab.sortedAbove, hk l rfl]
  | cons e t ih =>
    obtain ⟨a, w⟩ := e
    simp only [Tab.sortedAbove, Bool.and_eq_true] at h
    unfold Tab.insert
    split
    · next hka =>
      simp only [Tab.sortedAbove, Bool.and_eq_true, h.2, and_true]
      refine ⟨?_, by simpa using hka⟩
      cases lo with
      | none => rfl
      | some l => simpa using hk l rfl
    · split
      · next hka => subst hka; simp only [Tab.sortedAbove, Bool.and_eq_true]; exact h
      · next h1 h2 =>
        simp only [Tab.sortedAbove, Bool.and_eq_true]
        exact ⟨h.1, ih h.2 (fun l hl => by cases hl; omega)⟩

theorem Tab.sortedAbove_filter {lo : Option Nat} {t : Tab α} (p : Nat × α → Bool) (h : Tab.sortedAbove lo t = true) :
    Tab.sortedAbove lo (t.filter p) = true := by
  induction t generalizing lo with
  | nil => rfl
  | cons e t ih =>
    obtain ⟨a, w⟩ := e
    simp only [Tab.sortedAbove, Bool.and_eq_true] at h
    by_cases hp : p (a, w)
    · simp only [List.filter, hp, Tab.sortedAbove, Bool.and_eq_true]
      exact ⟨h.1, ih h.2⟩
    · simp only [List.filter, hp]
      refine Tab.sortedAbove_mono (ih h.2) ?_
      intro l' hl'
      refine ⟨a, rfl, ?_⟩
      subst hl'
      have := h.1
      simp only [decide_eq_true_eq] at this
      omega

theorem Tab.mem_insert {t : Tab α} {k : Nat} {v : α} {e : Nat × α} (h : e ∈ Tab.insert t k v) : e = (k, v) ∨ e ∈ t := by
  induction t with
  | nil => simpa [Tab.insert] using h
  | cons x t ih =>
    obtain ⟨a, w⟩ := x
    unfold Tab.insert at h
    split at h
    · simpa using h
    · split at h
      · simp only [List.mem_cons] at h ⊢
        tauto
      · simp only [List.mem_cons] at h ⊢
        rcases h with h | h
        · exact .inr (.inl h)
        · rcases ih h with h | h
          · exact .inl h
          · exact .inr (.inr h)

/-- Every write keeps a table's canonical form. -/
theorem Tab.wf_set [DecidableEq α] (d : Nat → α) {t : Tab α} (k : Nat) (v : α) (h : Tab.wf d t = true) :
    Tab.wf d (Tab.set d t k v) = true := by
  simp only [Tab.wf, Bool.and_eq_true, List.all_eq_true, decide_eq_true_eq] at h ⊢
  unfold Tab.set
  split
  · refine ⟨Tab.sortedAbove_filter _ h.1, fun e he => h.2 e ?_⟩
    exact (List.mem_filter.mp he).1
  · next hv =>
    refine ⟨Tab.sortedAbove_insert v h.1 (by simp), fun e he => ?_⟩
    rcases Tab.mem_insert he with rfl | he
    · exact hv
    · exact h.2 e he

/-! ## Byte memories -/

/-- A byte written reads back. -/
@[simp] theorem memByte_memSetByte_same (m : Tab Byte) (a : Nat) (b : Byte) : memByte (memSetByte m a b) a = b := by
  simp [memByte, memSetByte]

/-- A byte write leaves every other byte alone. -/
theorem memByte_memSetByte_other (m : Tab Byte) {a c : Nat} (b : Byte) (h : c ≠ a) :
    memByte (memSetByte m a b) c = memByte m c := by
  simp [memByte, memSetByte, Tab.get_set_other _ m b h]

/-- A write of a byte string leaves every byte outside it alone. -/
theorem memByte_memWrite_outside (m : Tab Byte) (a : Nat) (bs : List Byte) {c : Nat} (h : c < a ∨ a + bs.length ≤ c) :
    memByte (memWrite m a bs) c = memByte m c := by
  induction bs generalizing m a with
  | nil => rfl
  | cons b bs ih =>
    simp only [memWrite]
    rw [ih _ _ (by simp only [List.length_cons] at h; omega), memByte_memSetByte_other]
    simp only [List.length_cons] at h
    omega

/-- A byte string written reads back. -/
theorem memBytes_memWrite (m : Tab Byte) (a : Nat) (bs : List Byte) : memBytes (memWrite m a bs) a bs.length = bs := by
  induction bs generalizing m a with
  | nil => rfl
  | cons b bs ih =>
    simp only [memWrite, List.length_cons, memBytes, ih, List.cons.injEq, and_true]
    rw [memByte_memWrite_outside _ _ _ (by omega)]
    simp

/-- Every memory write keeps the canonical form. -/
theorem memWrite_wf {m : Tab Byte} (a : Nat) (bs : List Byte) (h : Tab.wf (fun _ => (0 : Byte)) m = true) :
    Tab.wf (fun _ => (0 : Byte)) (memWrite m a bs) = true := by
  induction bs generalizing m a with
  | nil => exact h
  | cons b bs ih => exact ih _ (Tab.wf_set _ _ _ h)

end Sys2Proof.Machine
end

