-- ==== Sys2Proof/Laws/Reg.lean ====
section
/-!
SUPPORT. Laws of registers and fields: reading back what was written, and that a write leaves every other register and
every other field of the same register alone (R2, R8).
-/

namespace Sys2Proof.Machine

/-! ## Bits of a word -/

/-- A bit of a word with a field replaced. -/
theorem withField_getLsbD (w : Word) (l n v i : Nat) :
    (withField w l n v).getLsbD i =
      (decide (i < 32) && if i < l then w.getLsbD i else if i < l + n then v.testBit (i - l) else w.getLsbD i) := by
  have key : w.toNat >>> (l + n) <<< (l + n) + (v % 2 ^ n) <<< l + w.toNat % 2 ^ l =
      2 ^ l * (2 ^ n * (w.toNat >>> (l + n)) + v % 2 ^ n) + w.toNat % 2 ^ l := by
    simp only [Nat.shiftLeft_eq, Nat.pow_add]; ring
  unfold withField
  rw [key, BitVec.getLsbD_ofNat]
  congr 1
  rw [Nat.testBit_two_pow_mul_add _ (Nat.mod_lt _ (by positivity))]
  split
  · next h => simp [Nat.testBit_mod_two_pow, h, BitVec.getLsbD]
  · next h =>
    rw [Nat.testBit_two_pow_mul_add _ (Nat.mod_lt _ (by positivity))]
    by_cases h2 : i < l + n
    · rw [if_pos (by omega), if_pos h2]
      simp [Nat.testBit_mod_two_pow]
      omega
    · rw [if_neg (by omega), if_neg h2, Nat.testBit_shiftRight, BitVec.getLsbD]
      congr 1
      omega

/-- A bit of a field's value. -/
theorem fieldOf_testBit (w : Word) (l n i : Nat) : (fieldOf w l n).testBit i = (decide (i < n) && w.getLsbD (l + i)) := by
  simp [fieldOf, bitsOf, Nat.testBit_mod_two_pow, Nat.testBit_shiftRight, BitVec.getLsbD]

theorem fieldOf_lt (w : Word) (l n : Nat) : fieldOf w l n < 2 ^ n := Nat.mod_lt _ (by positivity)

/-- A field reads back what was written into it. -/
theorem fieldOf_withField_same (w : Word) {l n : Nat} (v : Nat) (h : l + n ≤ 32) :
    fieldOf (withField w l n v) l n = v % 2 ^ n := by
  apply Nat.eq_of_testBit_eq
  intro i
  rw [fieldOf_testBit, withField_getLsbD, Nat.testBit_mod_two_pow]
  by_cases hi : i < n
  · simp [hi, show l + i < 32 by omega]
  · simp [hi]

/-- A field is untouched by a write of a field beside it. -/
theorem fieldOf_withField_other (w : Word) {l n l' n' : Nat} (v : Nat) (h : l' + n' ≤ l ∨ l + n ≤ l') :
    fieldOf (withField w l n v) l' n' = fieldOf w l' n' := by
  apply Nat.eq_of_testBit_eq
  intro i
  rw [fieldOf_testBit, fieldOf_testBit, withField_getLsbD]
  by_cases hi : i < n'
  · by_cases h32 : l' + i < 32
    · simp only [hi, h32, decide_true, Bool.true_and]
      split
      · rfl
      · rw [if_neg (by omega)]
    · have : w.getLsbD (l' + i) = false := BitVec.getLsbD_of_ge w _ (by omega)
      simp [h32, this]
  · simp [hi]

/-! ## Registers and fields of the state -/

@[simp] theorem State.reg_setReg_same (s : State) (a : Nat) (w : Word) : (s.setReg a w).reg a = w := by
  simp [State.reg, State.setReg]

theorem State.reg_setReg_other (s : State) {a b : Nat} (w : Word) (h : b ≠ a) : (s.setReg a w).reg b = s.reg b := by
  simp [State.reg, State.setReg, Tab.get_set_other _ _ _ h]

theorem State.reg_setReg (s : State) (a b : Nat) (w : Word) : (s.setReg a w).reg b = if b = a then w else s.reg b := by
  simp [State.reg, State.setReg, Tab.get_set]

/-- The registers alone fix what a register, a field or a pair reads. -/
theorem State.reg_congr {s t : State} (h : t.regs = s.regs) (a : Nat) : t.reg a = s.reg a := by simp [State.reg, h]

theorem State.fld_congr {s t : State} (h : t.regs = s.regs) (f : Fld) : t.fld f = s.fld f := by
  simp [State.fld, State.reg_congr h]

theorem State.flag_congr {s t : State} (h : t.regs = s.regs) (f : Fld) : t.flag f = s.flag f := by
  simp [State.flag, State.fld_congr h]

theorem State.pair_congr {s t : State} (h : t.regs = s.regs) (a : Nat) : t.pair a = s.pair a := by
  simp [State.pair, State.reg_congr h]

/-- A field reads back what was written into it. -/
theorem State.fld_setFld_same (s : State) {f : Fld} (v : Nat) (h : f.lsb + f.width ≤ 32) :
    (s.setFld f v).fld f = v % 2 ^ f.width := by
  simp [State.fld, State.setFld, fieldOf_withField_same _ _ h]

/-- Two fields share no bit. -/
def Fld.apart (f g : Fld) : Prop := f.addr ≠ g.addr ∨ f.lsb + f.width ≤ g.lsb ∨ g.lsb + g.width ≤ f.lsb

/-- A write of one field leaves a field that shares no bit with it alone. -/
theorem State.fld_setFld_other (s : State) {f g : Fld} (v : Nat) (h : g.apart f) : (s.setFld f v).fld g = s.fld g := by
  unfold State.fld State.setFld
  rw [State.reg_setReg]
  split
  · next he =>
    have h' : g.lsb + g.width ≤ f.lsb ∨ f.lsb + f.width ≤ g.lsb := by
      rcases h with h | h | h
      · exact absurd he h
      · exact .inl h
      · exact .inr h
    rw [fieldOf_withField_other _ _ h', he]
  · rfl

/-- A write of one field leaves every other register alone. -/
theorem State.reg_setFld_other (s : State) {f : Fld} (v : Nat) {a : Nat} (h : a ≠ f.addr) :
    (s.setFld f v).reg a = s.reg a := State.reg_setReg_other s _ h

/-- A flag reads back what it was set to. -/
theorem State.flag_setFlag_same (s : State) {f : Fld} (b : Bool) (h : f.lsb + f.width ≤ 32) (hw : f.width = 1) :
    (s.setFlag f b).flag f = b := by
  unfold State.flag State.setFlag
  rw [State.fld_setFld_same s _ h, hw]
  cases b <;> rfl

/-- A write of one flag leaves a field that shares no bit with it alone. -/
theorem State.fld_setFlag_other (s : State) {f g : Fld} (b : Bool) (h : g.apart f) : (s.setFlag f b).fld g = s.fld g :=
  State.fld_setFld_other s _ h

theorem State.flag_setFlag_other (s : State) {f g : Fld} (b : Bool) (h : g.apart f) : (s.setFlag f b).flag g = s.flag g := by
  simp [State.flag, State.fld_setFlag_other s b h]

/-- A counting field rises by n and stays at its largest value. -/
theorem State.fld_countFld_same (s : State) {f : Fld} (n : Nat) (h : f.lsb + f.width ≤ 32) :
    (s.countFld f n).fld f = satCount f.width (s.fld f + n) := by
  unfold State.countFld
  rw [State.fld_setFld_same s _ h]
  apply Nat.mod_eq_of_lt
  unfold satCount
  have : 0 < 2 ^ f.width := by positivity
  omega

/-- A pair reads back what was written into it. -/
theorem State.pair_setPair_same (s : State) (a v : Nat) : (s.setPair a v).pair a = v % 2 ^ 64 := by
  unfold State.pair State.setPair
  rw [State.reg_setReg_same, State.reg_setReg_other _ _ (by omega), State.reg_setReg_same]
  simp only [BitVec.toNat_ofNat]
  omega

/-- A write of a pair leaves every other register alone. -/
theorem State.reg_setPair_other (s : State) {a b : Nat} (v : Nat) (h : b ≠ a) (h4 : b ≠ a + 4) :
    (s.setPair a v).reg b = s.reg b := by
  unfold State.setPair
  rw [State.reg_setReg_other _ _ h4, State.reg_setReg_other _ _ h]

end Sys2Proof.Machine
end

