-- ==== Sys2Proof/Laws/Issue.lean ====
section
/-!
SUPPORT. What the issue of a loop-core instruction does, said once: the writes of a list of registers or accumulators,
the flow of an instruction, and an issue that no fault stops.
-/

namespace Sys2Proof.Machine

open Sys2Proof.Safety

/-! ## Registers of a core -/

theorem LCore.getR_setR (x : LCore) (r k : Nat) (w : Word) : (x.setR r w).getR k = if k = r then w else x.getR k := by
  simp [LCore.getR, LCore.setR, Tab.get_set]

theorem LCore.getA_setA (x : LCore) (i k : Nat) (v : BitVec 72) : (x.setA i v).getA k = if k = i then v else x.getA k := by
  simp [LCore.getA, LCore.setA, Tab.get_set]

/-- The core without its registers and accumulators. -/
def LCore.bare (x : LCore) : LCore := { x with r := [], a := [] }

@[simp] theorem LCore.bare_setR (x : LCore) (r : Nat) (w : Word) : (x.setR r w).bare = x.bare := rfl
@[simp] theorem LCore.bare_setA (x : LCore) (r : Nat) (w : BitVec 72) : (x.setA r w).bare = x.bare := rfl

theorem LCore.bare_writes (es : List (Nat × Word)) (x : LCore) :
    (es.foldl (fun x e => LCore.write x e.1 e.2) x).bare = x.bare := by
  induction es generalizing x with
  | nil => rfl
  | cons e es ih => rw [List.foldl_cons, ih]; rfl

theorem LCore.bare_accs (es : List (Nat × BitVec 72)) (x : LCore) :
    (es.foldl (fun x e => LCore.setA x e.1 e.2) x).bare = x.bare := by
  induction es generalizing x with
  | nil => rfl
  | cons e es ih => rw [List.foldl_cons, ih]; rfl

theorem LCore.a_writes (es : List (Nat × Word)) (x : LCore) :
    (es.foldl (fun x e => LCore.write x e.1 e.2) x).a = x.a := by
  induction es generalizing x with
  | nil => rfl
  | cons e es ih => rw [List.foldl_cons, ih]; rfl

theorem LCore.r_accs (es : List (Nat × BitVec 72)) (x : LCore) :
    (es.foldl (fun x e => LCore.setA x e.1 e.2) x).r = x.r := by
  induction es generalizing x with
  | nil => rfl
  | cons e es ih => rw [List.foldl_cons, ih]; rfl

/-- A list of register writes leaves in a register the last word written to it. -/
theorem LCore.getR_writes (es : List (Nat × Word)) (x : LCore) (k : Nat) :
    (es.foldl (fun x e => LCore.write x e.1 e.2) x).getR k =
      match lastFor es k with
      | some w => if k = 51 then w &&& 0x37F else w
      | none => x.getR k := by
  induction es using List.reverseRecOn with
  | nil => rfl
  | append_singleton es e ih =>
    rw [List.foldl_append, List.foldl_cons, List.foldl_nil, LCore.write, LCore.getR_setR, ih]
    simp only [lastFor, List.reverse_append, List.reverse_cons, List.reverse_nil, List.nil_append, List.singleton_append,
      List.find?_cons]
    by_cases h : k = e.1
    · subst h; simp [srMask]
    · rw [if_neg h, beq_false_of_ne (Ne.symm h)]

/-- A list of accumulator writes leaves in an accumulator the last value written to it. -/
theorem LCore.getA_writes (es : List (Nat × BitVec 72)) (x : LCore) (k : Nat) :
    (es.foldl (fun x e => LCore.setA x e.1 e.2) x).getA k = accAfter x es k := by
  induction es using List.reverseRecOn with
  | nil => rfl
  | append_singleton es e ih =>
    rw [List.foldl_append]
    simp only [List.foldl_cons, List.foldl_nil, LCore.getA_setA, ih, accAfter, lastFor, List.reverse_append,
      List.reverse_cons, List.reverse_nil, List.nil_append, List.singleton_append, List.find?_cons]
    by_cases h : k = e.1
    · subst h; simp
    · rw [if_neg h, beq_false_of_ne (Ne.symm h)]

theorem lastFor_append {α : Type} (es fs : List (Nat × α)) (k : Nat) :
    lastFor (es ++ fs) k = (lastFor fs k).or (lastFor es k) := by
  simp only [lastFor, List.reverse_append, List.find?_append]
  cases List.find? (fun e => e.1 == k) fs.reverse <;> rfl

/-- Registers, accumulators and the rest of a core after its results and the pending load are written. -/
theorem LCore.results_boundary (x : LCore) (rs : List (Nat × Word)) (as' : List (Nat × BitVec 72))
    (next : List (Nat × Word)) :
    (∀ k, ((x.results rs as').boundary next).getR k = regAfter x rs k) ∧
      (∀ k, ((x.results rs as').boundary next).getA k = accAfter x as' k) ∧
      ((x.results rs as').boundary next).bare = { x.bare with pend := next } := by
  have hb : (x.results rs as').bare = x.bare := by
    unfold LCore.results; simp only [LCore.bare_accs, LCore.bare_writes]
  have hp : (x.results rs as').pend = x.pend := by
    have h := congrArg LCore.pend hb
    exact h
  refine ⟨fun k => ?_, fun k => ?_, ?_⟩
  · have h1 : ∀ k, (x.results rs as').getR k = (rs.foldl (fun x e => LCore.write x e.1 e.2) x).getR k := by
      intro k; simp [LCore.results, LCore.getR, LCore.r_accs]
    have : ((x.results rs as').boundary next).getR k =
        (((x.results rs as').pend).foldl (fun x e => LCore.write x e.1 e.2) (x.results rs as')).getR k := rfl
    rw [this, LCore.getR_writes, h1, LCore.getR_writes, hp, regAfter, lastFor_append]
    cases lastFor x.pend k <;> rfl
  · have : ((x.results rs as').boundary next).getA k = (x.results rs as').getA k := by
      simp only [LCore.boundary, LCore.getA, LCore.a_writes]
    have h2 : (x.results rs as').getA k = accAfter x as' k := by
      simp only [LCore.results]
      rw [LCore.getA_writes]
      simp [accAfter, LCore.getA, LCore.a_writes]
    rw [this, h2]
  · have : ((x.results rs as').boundary next).bare =
        { (((x.results rs as').pend).foldl (fun x e => LCore.write x e.1 e.2) (x.results rs as')).bare with
          pend := next } := rfl
    rw [this, LCore.bare_writes, hb]

/-! ## Flow -/

/-- A core at no loop level that leaves no delay slot goes on at the next word and changes nothing else. -/
theorem LCore.goOn_plain (x : LCore) (last : Nat) (hl : x.levels = 0) (hb : x.branch = none) :
    x.goOn last = { x with pc := last + 4, iterEnd := false } := by
  simp [LCore.goOn, LCore.loopEnd, hl, LCore.useSlot, hb]

/-- Loop ends touch the loop counters, the level count and nothing else of a core. -/
theorem LCore.loopEnd_same (fuel : Nat) (x : LCore) (last : Nat) (it : Bool) :
    (∀ k, k < 48 ∨ (k = 51 ∧ x.levels ≤ 3) → (LCore.loopEnd fuel x last it).1.getR k = x.getR k) ∧
      (LCore.loopEnd fuel x last it).1.a = x.a ∧
      { (LCore.loopEnd fuel x last it).1.bare with levels := x.levels } = x.bare := by
  induction fuel generalizing x last it with
  | zero => exact ⟨fun _ _ => rfl, rfl, rfl⟩
  | succ n ih =>
    unfold LCore.loopEnd
    simp only
    split
    · exact ⟨fun _ _ => rfl, rfl, rfl⟩
    · next h0 =>
      have hlv : ¬ x.levels = 0 := by intro h; simp [h] at h0
      split
      · obtain ⟨h1, h2, h3⟩ := ih { x with levels := x.levels - 1 } last (it || !x.isRep (x.levels - 1))
        refine ⟨fun k hk => h1 k (hk.imp_right fun h => ⟨h.1, ?_⟩), h2, ?_⟩
        · have := h.2
          show x.levels - 1 ≤ 3
          omega
        have := congrArg (fun y : LCore => { y with levels := x.levels }) h3
        exact this
      · refine ⟨fun k hk => ?_, rfl, rfl⟩
        rw [LCore.getR_setR, if_neg]
        omega

/-- A core without its registers and its place in the program. -/
def LCore.parked (x : LCore) : LCore :=
  { x with r := [], a := [], pc := 0, levels := 0, branch := none, iterEnd := false }

theorem LCore.useSlot_same (x : LCore) : x.useSlot.r = x.r ∧ x.useSlot.a = x.a ∧ x.useSlot.parked = x.parked := by
  unfold LCore.useSlot
  repeat' split
  all_goals exact ⟨rfl, rfl, rfl⟩

/-- Going on after a word leaves the registers but the loop counters, the accumulators and everything but the place of
the core as they were. -/
theorem LCore.goOn_same (x : LCore) (last : Nat) :
    (∀ k, k < 48 ∨ (k = 51 ∧ x.levels ≤ 3) ∨ x.levels = 0 → (x.goOn last).getR k = x.getR k) ∧
      (∀ k, (x.goOn last).getA k = x.getA k) ∧ (x.goOn last).parked = x.parked := by
  obtain ⟨h1, h2, h3⟩ := LCore.loopEnd_same 4 x last false
  refine ⟨fun k hk => ?_, fun k => ?_, ?_⟩
  · have hr : (x.goOn last).getR k = (LCore.loopEnd 4 x last false).1.getR k := by
      simp only [LCore.goOn, LCore.getR, (LCore.useSlot_same _).1]
    rw [hr]
    rcases hk with hk | hk | hk
    · exact h1 k (.inl hk)
    · exact h1 k (.inr hk)
    · simp [LCore.loopEnd, hk]
  · simp only [LCore.goOn, LCore.getA, (LCore.useSlot_same _).2.1, h2]
  · have h4 := congrArg LCore.parked h3
    simp only [LCore.goOn]
    rw [(LCore.useSlot_same _).2.2]
    exact h4

/-! ## Issue -/

/-- What `mayIssue` says of the faults that are the same for every instruction. -/
theorem mayIssue_fault {s : State} {c : Nat} {op : Op} (hm : mayIssue s c op.place = true) (hi : op.illegal = false)
    (ha : ∀ a, op.accRead = some a → (s.atIssue c).accBy.contains a = false) :
    (s.coreOf c).issues = true ∧ s.issueFault (s.atIssue c) op = op.fault s (s.atIssue c) := by
  simp only [mayIssue, Bool.and_eq_true, decide_eq_true_eq, Bool.not_eq_true'] at hm
  obtain ⟨⟨⟨⟨⟨h1, h2⟩, h3⟩, hw⟩, h4⟩, h5⟩ := hm
  refine ⟨h1, ?_⟩
  have h6 : (s.atIssue c).commonFault (op.illegal || s.wordIllegal (s.atIssue c).pc) op.place op.accRead = none := by
    unfold LCore.commonFault
    rw [if_neg (by omega), if_neg (by omega), hi, hw, if_neg (by simp), h4, if_neg (by simp), if_neg (by omega)]
    cases h : op.accRead with
    | none => rfl
    | some a => simp only [ha a h]; rfl
  simp [State.issueFault, h2, h6]

/-- An issue that no fault stops: the core takes its results and goes on, the count of issues rises, and what the
instruction does beyond its core follows. -/
theorem State.issue_eq {s : State} {c : Nat} {op : Op} (hm : mayIssue s c op.place = true) (hi : op.illegal = false)
    (ha : ∀ a, op.accRead = some a → (s.atIssue c).accBy.contains a = false)
    (hf : op.fault s (s.atIssue c) = none) :
    s.issue c op = (op.also.getD fun s _ => s)
      ((s.setCore c ((s.atIssue c).issued op (op.eff s (s.atIssue c)))).countIssue c) (s.atIssue c) := by
  obtain ⟨h1, h2⟩ := mayIssue_fault hm hi ha
  simp only [State.issue, h1, h2, hf, Bool.not_true, Bool.false_eq_true, if_false]
  cases op.also <;> rfl

/-- The core after an instruction without flow whose result is there at once. -/
theorem LCore.issued_seq (x : LCore) (op : Op) (e : Eff) (hl : op.late = false) (hw : e.flow = .seq) :
    resultsIn x (x.issued op e) e.regs e.accs e.load op.accBy ∧ goesOn x (x.issued op e) ∧ sameRest x (x.issued op e) := by
  obtain ⟨h1, h2, h3⟩ := LCore.results_boundary x e.regs e.accs e.load
  set y := (x.results e.regs e.accs).boundary e.load with hy
  let z : LCore := { y with accBy := op.accBy, runLen := x.runLen + 1 }
  have hz : x.issued op e = (z.goOn z.pc).stepped := by simp [LCore.issued, hl, hw, LCore.flow, LCore.loopCount, z, hy]
  obtain ⟨g1, g2, g3⟩ := LCore.goOn_same z z.pc
  have hlev : z.levels = x.levels := by have h := congrArg LCore.levels h3; exact h
  have hbr : z.branch = x.branch := by have h := congrArg LCore.branch h3; exact h
  have hpc : z.pc = x.pc := by have h := congrArg LCore.pc h3; exact h
  have st : ∀ w : LCore, w.stepped.r = w.r ∧ w.stepped.a = w.a ∧ w.stepped.step = false ∧
      w.stepped.haltReq = (w.haltReq || w.step) ∧ fixedPart w.stepped = fixedPart w ∧ w.stepped.pc = w.pc ∧
      w.stepped.levels = w.levels ∧ w.stepped.branch = w.branch ∧ w.stepped.pend = w.pend ∧
      w.stepped.accBy = w.accBy ∧ w.stepped.runLen = w.runLen := by
    intro w
    unfold LCore.stepped
    cases h : w.step <;> simp [h, fixedPart]
  obtain ⟨s1, s2, s3, s4, s5, s6, s7, s8, s9, s10, s11⟩ := st (z.goOn z.pc)
  rw [hz]
  refine ⟨⟨fun k hk => ?_, fun k => ?_, ?_, ?_, ?_, s3, ?_⟩, fun hl0 hb0 => ?_, ?_⟩
  · have : (z.goOn z.pc).stepped.getR k = (z.goOn z.pc).getR k := by simp [LCore.getR, s1]
    rw [this, g1 k (by rw [hlev]; exact hk)]
    exact h1 k
  · have : (z.goOn z.pc).stepped.getA k = (z.goOn z.pc).getA k := by simp [LCore.getA, s2]
    rw [this, g2 k]
    exact h2 k
  · rw [s9]; have h := (congrArg LCore.pend g3); have h' := congrArg LCore.pend h3; exact h.trans h'
  · rw [s10]; have h := congrArg LCore.accBy g3; exact h
  · rw [s11]; have h := congrArg LCore.runLen g3; exact h
  · rw [s4]
    have a1 : (z.goOn z.pc).haltReq = x.haltReq := by
      have h := congrArg LCore.haltReq g3
      have h' := congrArg LCore.haltReq h3
      exact h.trans h'
    have a2 : (z.goOn z.pc).step = x.step := by
      have h := congrArg LCore.step g3
      have h' := congrArg LCore.step h3
      exact h.trans h'
    rw [a1, a2]
  · rw [s6, s7, s8, LCore.goOn_plain z _ (hlev.trans hl0) (hbr.trans hb0)]
    exact ⟨by rw [hpc], hlev.trans hl0, hbr.trans hb0⟩
  · have a3 : fixedPart (z.goOn z.pc) = fixedPart z := by have h := congrArg (fun w => fixedPart w) g3; exact h
    have a4 : fixedPart z = fixedPart x := by have h := congrArg (fun w => fixedPart w) h3; exact h
    exact s5.trans (a3.trans a4)

/-- The count of issues rises by one and no other register changes (R295). -/
theorem State.countIssue_reg (s : State) (c a : Nat) :
    (s.countIssue c).reg a = if a = A.LC_ISSUED c then s.reg a + 1 else s.reg a := by
  have hw : ∀ w : Word, withField w 0 32 (fieldOf w 0 32 + 1) = w + 1 := by
    intro w
    apply BitVec.eq_of_toNat_eq
    have h0 : fieldOf w 0 32 = w.toNat := by simp [fieldOf, bitsOf, Nat.mod_eq_of_lt w.isLt]
    have h1 : w.toNat >>> 32 = 0 := by rw [Nat.shiftRight_eq_div_pow]; exact Nat.div_eq_of_lt w.isLt
    simp [withField, h0, h1, BitVec.toNat_add, Nat.mod_one]
  rw [State.countIssue, State.wrapFld, State.setFld, State.reg_setReg, State.fld]
  have hadr : (F.LC_ISSUED_count c).addr = A.LC_ISSUED c := rfl
  rw [hadr]
  by_cases h : a = A.LC_ISSUED c
  · rw [if_pos h, if_pos h, h]; exact hw _
  · rw [if_neg h, if_neg h]

/-- An issue that no fault stops, of an instruction without flow and without effect beyond its core, completes. -/
theorem State.issue_completes {s : State} {c : Nat} {op : Op} (hm : mayIssue s c op.place = true)
    (hi : op.illegal = false) (ha : ∀ a, op.accRead = some a → (s.atIssue c).accBy.contains a = false)
    (hf : op.fault s (s.atIssue c) = none) (hl : op.late = false) (hs : op.also = none)
    (hw : (op.eff s (s.atIssue c)).flow = .seq) (hp : (op.eff s (s.atIssue c)).load = []) :
    completes s (s.issue c op) c (op.eff s (s.atIssue c)).regs (op.eff s (s.atIssue c)).accs op.accBy := by
  obtain ⟨h1, h2, h3⟩ := LCore.issued_seq (s.atIssue c) op (op.eff s (s.atIssue c)) hl hw
  rw [State.issue_eq hm hi ha hf, hs, Option.getD_none]
  have hc : ((s.setCore c ((s.atIssue c).issued op (op.eff s (s.atIssue c)))).countIssue c).coreOf c =
      (s.atIssue c).issued op (op.eff s (s.atIssue c)) := by
    simp [State.coreOf, State.countIssue, State.setCore, State.wrapFld]
  rw [hp] at h1
  refine ⟨rfl, ⟨fun k hk => ?_, fun a h => ?_, ?_⟩, ?_, ?_, ?_⟩
  · simp [State.coreOf, State.countIssue, State.setCore, State.wrapFld, Tab.get_set_other _ _ _ hk]
  · rw [State.countIssue_reg, if_neg h]; rfl
  · rw [State.countIssue_reg, if_pos rfl]; rfl
  all_goals rw [hc]; assumption

end Sys2Proof.Machine
end

