-- ==== Sys2Proof/Tests/Slice0.lean ====
section
/-!
SUPPORT. The model's own tests: ill-formed commands, instruction words of the loop cores, single steps with results taken
from the spec, and a witness for the hypotheses of every statement that has some.
-/

namespace Sys2Proof.Tests

open Sys2Proof.Machine Sys2Proof.Safety

/-! ## Ill-formed commands -/

theorem test_wf_refuses :
    ∀ i ∈ [Instr.mov 0 52 0, .mov 0 0 53, .ld 0 52 0 0 0, .ld 0 0 0 0 1, .st 0 53 0 0 0, .st 0 0 0 1 4, .ldd 0 16 0 0 0,
        .ldd 0 3 0 0 0, .ldd 0 2 0 3 8, .std 0 16 0 0 0, .std 0 1 0 0 0, .std 0 2 0 1 8, .aset 0 0 0 41, .dli 0 1 0 0,
        .bankFault 0 0, .stallEnable 0 true, .cmConversion [0], .registerWrite false 0 0 0, .registerRead false 0 0],
      i.wf = false := by decide

theorem test_wf_accepts :
    ∀ i ∈ [Instr.mov 0 51 52, .ld 0 51 0 2 1, .st 0 52 0 2 4, .ldd 0 14 0 2 8, .std 0 14 0 2 8, .aset 0 0 0 40,
        .dli 0 14 0 0, .bankFault 0 4, .stallEnable 255 true, .cmConversion (List.replicate 9 0),
        .registerWrite false 0 8 0, .registerRead false 0 1], i.wf = true := by decide

/-! ## Words of the loop cores' instructions, written out from R289 to R292 -/

/-- The five words of the averaging example that follows R294. -/
theorem test_words_example :
    decodeCore 3 0x14128000 = some (.ld 3 1 1 1 0) ∧ decodeCore 3 0xCC040004 = some (.blk 3 4 1) ∧
      decodeCore 3 0x94011300 = some (.macl 3 0 0 1 1 1 true) ∧ decodeCore 3 0x04000000 = some (.nop 3) ∧
      decodeCore 3 0xACC40000 = some (.ext 3 3 0 16) := by decide

/-- One word a family: MOVI d2, #-1; SEL; ADD d1, d2, d3; SHLI d1, d2, #5; CMP d2, d3; MAC2; ASET a1, d4, #40; B NE, -2;
JR p5; REPR d3; DONE with re-arm; DLI d4, d1, d2; TAKE. -/
theorem test_words_families :
    decodeCore 0 0b00001100100000001111111111111111 = some (.movi 0 2 0xFFFF) ∧
      decodeCore 0 0b10000000010010001100100000000000 = some (.sel 0 1 2 3 .NE) ∧
      decodeCore 0 0b00100100010010001100000000000000 = some (.add 0 1 2 3) ∧
      decodeCore 0 0b01100100010010000000000000000101 = some (.shli 0 1 2 5) ∧
      decodeCore 0 0b01110000000010001100000000000000 = some (.cmp 0 2 3) ∧
      decodeCore 0 0b10010010000100100011010000000000 = some (.mac2 0 1 1 2 3 4) ∧
      decodeCore 0 0b10100001000110100000000000000000 = some (.aset 0 1 4 40) ∧
      decodeCore 0 0b10111000100000001111111111111110 = some (.b 0 .NE 0xFFFE) ∧
      decodeCore 0 0b11000010100000000000000000000000 = some (.jr 0 5) ∧
      decodeCore 0 0b11001000110000000000000000000000 = some (.repr 0 3) ∧
      decodeCore 0 0b11011000000000000000000000000001 = some (.done 0 true) ∧
      decodeCore 0 0b11101001000001001000000000000000 = some (.dli 0 4 1 2) ∧
      decodeCore 0 0b11010100000000000000000000000000 = some (.take 0) := by decide

/-- Reserved opcodes, reserved bits and reserved values are ILLEGAL (R289). -/
theorem test_words_illegal :
    decodeCore 0 0 = none ∧ decodeCore 0 0x04000001 = none ∧ decodeCore 0 0x0B400000 = none ∧
      decodeCore 0 0xE9400000 = none := by decide

/-! ## States for the witnesses and the single steps -/

/-- A device in a cell mode, released from reset, otherwise as after it. -/
def inMode (m : Nat) : State := { State.reset.setFld F.MODE_CELL_mode m with pwr := { held := false } }

/-- CONFIGURE, with core C0 as given and three NOP words in area 0, from 0x4000 on. -/
def coreAt (x : LCore) : State :=
  { inMode 2 with core := [(0, x)], prog := [(0, (List.replicate 3 [0, 0, 0, 4]).flatten)] }

/-- A core that runs, with the registers given. -/
def ready (rs : List (Nat × Word)) : LCore := { status := .running, pc := 0x4000, r := rs }

/-! ## Single steps, with results from the spec's examples -/

/-- The field of core C0 after a command; `d` where the command does not run. -/
def coreAfter {α : Type} (i : Instr) (x : LCore) (d : α) (f : LCore → α) : α :=
  match exec i (coreAt x) with
  | .next t => f (Tab.get (fun _ => {}) t.core 0)
  | _ => d

/-- EXT of the averaging example after R294: 0x4_8000_0000 shifted right by 16 is 294,912. -/
theorem test_ext_example :
    coreAfter (.ext 0 3 0 16) { ready [] with a := [(0, 0x480000000)] } [] LCore.r = [(3, 294912)] := by decide

/-- MACL of the averaging example: 8,192 times 65,536 joins a0. -/
theorem test_macl_example :
    coreAfter (.macl 0 0 0 1 1 1 true) { ready [(0, 8192), (1, 65536), (21, 0x10)] with a := [] } [] LCore.a =
      [(0, 8192 * 65536)] := by decide

/-- A taken branch has two delay slots (R272). -/
theorem test_branch_slots :
    (coreAfter (.b 0 .AL 8) (ready []) none LCore.branch).map (·.slots) = some 2 := by decide

/-- The record of a write of SAF.TIMING after R493: class configuration, WRITE_DISCARDED, d0 0x00E8_0034. -/
theorem test_safety_write_example :
    (match exec (.registerWrite false 0x280034 4 5) (inMode 4) with
      | .next t => t.tly.ring.map fun (r : TallyRec) => (r.code, r.d0)
      | _ => []) = [(1, 0x00E80034)] := by decide

/-- The duties of the stepper example after R156. -/
theorem test_stepper_example : quietDuties 12500 128 512 = [8459, 4041, 8459, 4041] := by decide

/-- Speeds of the example after R205, as counts over microseconds: at 200, 300, 390, 420 and 520. -/
theorem test_speed_example :
    runSpeed [200, 0] 100 200 = (1, 200) ∧ runSpeed [300, 200, 0] 100 300 = (1, 100) ∧
      runSpeed [390, 350] 100 390 = (1, 40) ∧ runSpeed [420, 390, 350] 100 420 = (2, 70) ∧
      runSpeed [420, 390, 350] 100 520 = (1, 100) := by decide

set_option maxRecDepth 8000 in
/-- The tuning example after R233: code 2,321 against offset 2,048 at scale 1,200 is 327,600; the reference stands at
206,451 after 63 runs of 3,277 toward 209,715, and the 64th reaches it. -/
theorem test_tuning_example :
    amps (overlay (overlay (List.replicate 32 0) 24 (toBytes 2 2048)) 16 (toBytes 4 1200)) (2321 + 2 ^ 12) 24 16 = 327600 ∧
      (List.range 63).foldl (fun r _ => ramped r 209715 3277) 0 = 206451 ∧ ramped 206451 209715 3277 = 209715 := by decide

/-! ## Witnesses: loop cores -/

theorem witness_data_instructions :
    mayIssue (coreAt (ready [])) 0 .plain = true ∧ (ready []).levels = 0 ∧ (ready []).branch = none ∧
      (40 : BitVec 6).toNat ≤ 40 ∧ (3 : Fin 4).val ∉ ({ ready [] with accBy := [0] } : LCore).accBy := by decide

theorem witness_address_updates :
    let x := ready [(16, 0x10C), (24, 0xFFFFFFF0), (32, 0x100), (40, 16)]
    let pn := (x.getR 16).toNat
    let b := (x.getR 32).toNat
    let l := (x.getR 40).toNat
    l ≠ 0 ∧ |(x.getR 24).toInt| ≤ l ∧ b ≤ pn ∧ pn < b + l ∧ b + l ≤ 2 ^ 32 := by decide

theorem witness_local_memory :
    let s := coreAt (ready [(16, 0xFFFC), (17, 0xFFF8)])
    let x := s.atIssue 0
    mayIssue s 0 .plain = true ∧ (x.address ⟨0, 0, 0⟩).1 < 0x10000 ∧ (x.address ⟨0, 0, 0⟩).1 % 4 = 0 ∧
      (x.address ⟨1, 1, 0⟩).1 % 8 = 0 ∧ formOk ⟨0, 0, 0⟩ ∧ formOk ⟨0, 2, 4⟩ ∧ s.localBad = [] ∧ s.localSoft = [] ∧
      mayIssue { s with localSoft := [0xFFFC] } 0 .plain = true := by
  refine ⟨?_, ?_, ?_, ?_, .inr rfl, .inl rfl, ?_⟩ <;> decide

theorem witness_shared_and_window :
    let s := coreAt (ready [(16, 0x10000000), (17, 0x107FFFFC), (18, 0x20000000), (19, 0x203FFFFC)])
    let x := s.atIssue 0
    mayIssue s 0 .plain = true ∧ s.inDual x = false ∧ (x.address ⟨0, 0, 0⟩).1 = 0x10000000 ∧
      (x.address ⟨1, 0, 0⟩).1 = 0x107FFFFC ∧ (x.address ⟨2, 0, 0⟩).1 = 0x20000000 ∧
      (x.address ⟨3, 0, 0⟩).1 = 0x203FFFFC ∧ x.stores.length < 8 := by decide

theorem witness_full_queues :
    let o : StoreOp := { window := false, addr := 0, words := [1], order := 0 }
    let q : PostOp := { out := .post 1 0 0, sender := 5, order := 0 }
    let s := coreAt { ready [(16, 0x10000000)] with stores := List.replicate 8 o, posts := List.replicate 8 q, stall := 5 }
    mayIssue s 0 .token = true ∧ mayIssue s 0 .plain = true ∧ s.inDual (s.atIssue 0) = false ∧
      ¬(s.atIssue 0).stores.length < 8 ∧ ¬(s.atIssue 0).posts.length < 8 := by decide

theorem witness_load_returns :
    let own : StoreOp := { window := false, addr := 0, words := [7], order := 2 }
    let s := coreAt { ready [] with status := .stalled (.load false 0 [5]), stores := [own] }
    let w := coreAt { ready [] with status := .stalled (.load true 0 [5]) }
    let two : State := { s with core := [(0, s.coreOf 0), (1, s.coreOf 0)] }
    s.hwk.votes = [] ∧ s.fab.tries = [] ∧ two.sramGranted 0 = true ∧ two.sramGranted 1 = false ∧
      (two.coreOf 1).status = .stalled (.load false 0 [5]) ∧
    (s.coreOf 0).status = .stalled (.load false 0 [5]) ∧ s.sramGranted 0 = true ∧ 0 ∉ s.sramBad ∧
      s.inDual (s.coreOf 0) = false ∧ (s.coreOf 0).stores = [] ++ [own] ∧
      (w.coreOf 0).status = .stalled (.load true 0 [5]) := by decide

theorem witness_outputs_take_effect :
    let o : StoreOp := { window := false, addr := 0x7DFFFC, words := [7], order := 0 }
    let w : StoreOp := { window := true, addr := 0x280034, words := [7], order := 0 }
    let q : PostOp := { out := .post 9 1 4, sender := 5, order := 0 }
    let s := coreAt { ready [] with stores := [o], posts := [q] }
    let load : LCore := { ready [] with status := .stalled (.load false 0 [5]), stall := 5 }
    s.hwk.votes = [] ∧ s.fab.tries = [] ∧ (s.coreOf 0).stores = o :: [] ∧ (s.coreOf 0).status = .running ∧
      s.sramGranted 0 = true ∧ ({ s with core := [(0, s.coreOf 0), (1, s.coreOf 0)] } : State).sramGranted 1 = false ∧
      load.status = .stalled (.load false 0 [5]) ∧ o.addr + 4 * o.words.length ≤ 0x7E0000 ∧
      s.faults = [] ∧ w.window = true ∧ inPwm w.addr = false ∧ (s.coreOf 0).posts = q :: [] := by decide

theorem witness_post_ready :
    let q : PostOp := { out := .post 9 1 4, sender := 5, order := 0 }
    let o : StoreOp := { window := false, addr := 0, words := [7], order := 0 }
    ({ ready [] with posts := [q] } : LCore).postReady q = true ∧
      ({ ready [] with posts := [{ q with order := 1 }], stores := [o] } : LCore).postReady { q with order := 1 } = false := by
  decide

theorem witness_branches_and_loops :
    let s := coreAt (ready [(3, 0xFF), (4, 0xFFFF), (21, 0xFFFC)])
    let x := s.atIssue 0
    mayIssue s 0 .branch = true ∧ mayIssue s 0 .rep = true ∧ mayIssue s 0 .blk = true ∧ s.sec.job = none ∧ x.levels = 0 ∧
      x.pc + 8 < 0x10000 ∧ x.runLen ≤ 253 ∧ s.wordIllegal (x.pc + 4) = false ∧ s.wordIllegal (x.pc + 8) = false ∧ (x.getR (16 + 5)).toNat % 4 = 0 ∧ (x.getR (16 + 5)).toNat < 0x10000 ∧
      (x.d 3).toNat ≤ 255 ∧ (x.d 4).toNat ≤ 65535 ∧ x.runLen + (255 : BitVec 8).toNat ≤ 255 ∧ x.haltReq = false ∧
      x.preempt = false ∧ x.step = false := by decide

theorem witness_take_sync_done :
    let s := (coreAt { ready [] with stall := 5 }).setFlag (F.ST_CFG_enable 5) true
    let x := s.atIssue 0
    mayIssue (coreAt (ready [])) 0 .take = true ∧ mayIssue s 0 .bkpt = true ∧ mayIssue s 0 .done = true ∧ x.withdraw = false ∧
      x.stall < 256 ∧ (s.stallOf x.stall).dual = false ∧ s.flag (F.ST_CFG_enable x.stall) = true ∧
      (s.stallOf x.stall).wasOff = false ∧ s.hwk.lawWait = [] ∧ x.stores = [] ∧ x.posts = [] ∧ s.lawByte 5 0 = 0 ∧
      (s.grpOf 7).ffStart = none ∧
      (x.runLen : Nat) < 256 ∧ ({ ready [] with posts := [{ out := .post 1 0 0, sender := 5, order := 0 }] } : LCore).posts ≠ [] := by
  decide

/-- A record of kind VEL with enable, for stall 5. -/
theorem witness_law_run :
    let s : State := { coreAt { ready [] with stall := 5 } with sram := memWrite [] 0x7E0500 [2, 7, 1] }
    mayIssue s 0 .done = true ∧ s.lawByte 5 0 = 2 ∧ (s.lawByte 5 2).testBit 0 = true ∧
      (s.stallOf 5).snapFresh.testBit 7 = false := by decide

theorem witness_guarded :
    let s := coreAt { ready [(2, 0x4000), (3, 0x30000)] with stall := 5 }
    let g := coreAt { ready [] with status := .stalled (.cmtg 7) }
    let p := coreAt { ready [] with status := .stalled (.postg 7 9 1 4) }
    let d := coreAt { ready [] with status := .stalled (.dli 4 2 9 1 4 77) }
    mayIssue s 0 .token = true ∧ s.inDual (s.atIssue 0) = false ∧ ((s.atIssue 0).d 2).toNat / 2 ^ 12 % 8 ≤ 4 ∧
      ((s.atIssue 0).d 2).toNat / 2 ^ 16 % 4 ≠ 3 ∧ (g.coreOf 0).status = .stalled (.cmtg 7) ∧ (g.coreOf 0).stores = [] ∧
      (p.coreOf 0).status = .stalled (.postg 7 9 1 4) ∧ (p.coreOf 0).posts = [] ∧ (p.coreOf 0).stores = [] ∧
      p.inDual (p.coreOf 0) = false ∧ (d.coreOf 0).status = .stalled (.dli 4 2 9 1 4 77) := by decide

theorem witness_core_faults :
    let s := coreAt { ready [(16, 0x20400000), (17, 2), (18, 0xFFFC), (3, 256), (4, 0x5000)] with accBy := [1] }
    let x := s.atIssue 0
    let slot := coreAt { ready [] with branch := some { target := none, slots := 2 } }
    let empty := coreAt { ready [] with pc := 0x5000 }
    let odd := coreAt { ready [] with pc := 0x4002 }
    (s.coreOf 0).issues = true ∧ x.stall = 0 ∧ s.areaBusy x.pc = false ∧ x.pc < 0x10000 ∧ x.runLen < 256 ∧
      1 ∈ x.accBy ∧ mayIssue s 0 .rep = true ∧ 255 < (x.d 3).toNat ∧ mayIssue s 0 .plain = true ∧
      0x20400000 ≤ (x.getR 16).toNat ∧ (x.getR 17).toNat % 4 ≠ 0 ∧ (x.getR 18).toNat < 0x10000 ∧
      (empty.coreOf 0).issues = true ∧ empty.wordIllegal 0x5000 = true ∧ (odd.coreOf 0).issues = true ∧ s.wordIllegal x.pc = false ∧
      (slot.atIssue 0).inSlot = true ∧ ((coreAt { ready [] with pc := 0x10000 }).coreOf 0).issues = true ∧
      256 ≤ ((coreAt { ready [] with runLen := 256, levels := 1 }).atIssue 0).runLen ∧
      mayIssue (coreAt { ready [] with levels := 3 }) 0 .blk = true := by decide

theorem witness_operand_fault :
    let s := (coreAt { ready [(4, 0x5000)] with stall := 5 }).setFlag (F.ST_CFG_enable 5) true
    let x := s.atIssue 0
    mayIssue s 0 .token = true ∧ x.stall < 256 ∧ (s.stallOf x.stall).dual = false ∧
      s.flag (F.ST_CFG_enable x.stall) = true ∧ (s.stallOf x.stall).wasOff = false ∧ s.hwk.lawWait = [] ∧
      4 < (x.d 4).toNat / 2 ^ 12 % 8 := by decide

theorem witness_attentions :
    let h := coreAt { ready [] with haltReq := true, iterEnd := true }
    let p := coreAt { ready [] with preempt := true, iterEnd := true, stall := 5 }
    let n := coreAt { ready [] with haltReq := true, levels := 1 }
    let o : StoreOp := { window := false, addr := 0, words := [7], order := 0 }
    let d := coreAt { ready [] with haltReq := true, status := .stalled (.done true), stores := [o] }
    let e := coreAt { ready [] with levels := 1, status := .stalled .sync, stores := [o] }
    (d.coreOf 0).status = .stalled (.done true) ∧ (d.coreOf 0).ctx = none ∧ (d.coreOf 0).atPoint = true ∧
      (d.coreOf 0).haltReq = true ∧ (e.coreOf 0).atPoint = false ∧ (h.coreOf 0).status = .running ∧ (h.coreOf 0).ctx = none ∧ (h.coreOf 0).atPoint = true ∧
      (h.coreOf 0).haltReq = true ∧ (p.coreOf 0).atPoint = true ∧ (p.coreOf 0).haltReq = false ∧
      (p.coreOf 0).preempt = true ∧ (p.coreOf 0).stall ≠ 0 ∧ (p.coreOf 0).stall < 256 ∧
      (p.coreOf 0).withdraw = false ∧ (n.coreOf 0).atPoint = false ∧ (n.coreOf 0).ctx = none := by decide

theorem witness_debug :
    let s := coreAt (ready [])
    let closed := s.setFld F.SEC_DBG_state 0
    let halted := coreAt { ready [] with ctx := some [1, 2] }
    s.cellMode ≠ 1 ∧ closed.cellMode ≠ 1 ∧ closed.debugOpen = false ∧ (s.setFld F.SEC_DBG_state 1).debugOpen = true ∧
      (s.coreOf 0).ctx = none ∧ (halted.coreOf 0).ctx = some [1, 2] ∧ (halted.coreOf 0).withdraw = false ∧
      (halted.coreOf 0).haltedInTake = false := by decide

/-! ## Witnesses: slices, banks, faults -/

/-- Slice 7 in group 3. -/
def mapped (s : State) : State := s.setReg (A.MODE_SLICEMAP 0) 0xB0000000

theorem witness_trips :
    let s := (mapped (inMode 4)).setFlag (F.OC_CFG_ia_en 7) true
    let busy := s.setFld (F.GRP_STATUS_state 3) 2
    s.flag (F.OC_CFG_ia_en 7) = true ∧ (s.setFld (F.OC_TH_high 7 0) 4094).fld (F.OC_TH_high 7 0) < 4095 ∧
      s.fld (F.OC_CFG_filt 7) ≤ (0xFFFFF : BitVec 20).toNat / 2 ^ 0 % 32 ∧
      (1 : BitVec 8).toNat &&& (s.setFld (F.FB_ERRCFG_trip 7) 1).fld (F.FB_ERRCFG_trip 7) ≠ 0 ∧
      s.bitFld F.SYS_FAULT_bank_inh 0 = false ∧ s.cellMode ≠ 7 ∧ (inMode 7).cellMode = 7 ∧ s.flag (F.OC_TRIP_latched 7) = false ∧
      s.sliceGroup 7 = some 3 ∧ s.cellMode ≠ 1 ∧ s.groupState 3 = 0 ∧ s.enabledSides 7 0 = 0 ∧
      s.fld (F.FB_ERR_src 7) &&& s.fld (F.FB_ERRCFG_trip 7) = 0 ∧ busy.sliceGroup 7 = some 3 ∧ busy.groupState 3 ≠ 0 ∧
      (s.setFld (F.OC_TH_high 7 0) 4094).enabledSides 7 1 ≠ 0 := by decide

theorem witness_bank_faults :
    let s := (mapped (inMode 4)).setFld F.SYS_FAULT_bank_inh 0x81
    let t := s.setFld F.SYS_BANKCLR_busy 1
    s.cellMode ≠ 1 ∧ s.bitFld F.SYS_FAULT_bank_inh 0 = true ∧ s.bitFld F.SYS_FAULT_bank_inh 7 = true ∧
      s.bitFld F.SYS_BANKCLR_busy 0 = false ∧ s.bankGroups 0 = [3] ∧ s.groupState 3 = 0 ∧ (s.grpOf 3).start = none ∧
      s.bankGroups 7 = [] ∧ s.bitFld F.SYS_FAULT_bank_inh 1 = false ∧ t.bitFld F.SYS_BANKCLR_busy 0 = true ∧
      ({} : RetestResult).conv = 0 ∧ ({} : RetestResult).comp = 0 ∧ ({} : RetestResult).trip = 0 ∧
      ({ sync := true } : RetestResult).sync = true := by decide

theorem witness_escalation :
    let s : State := { inMode 5 with faults := [{ region := 0, cause := 1, object := 3, since := 0 }] }
    let t : State := { s with tclkGone := true, pwr := { held := false } }
    2 ≤ s.cellMode ∧ (∃ f, s.faults.find? (fun f => !f.escalated) = some f) ∧ s.tclkGone = false ∧ s.flag F.SAF_STATUS_fault = false ∧
      1 ≤ (6 : BitVec 4).toNat ∧ 7 ≤ (15 : BitVec 4).toNat ∧ 2 ≤ (inMode 2).cellMode ∧ 2 ≤ t.cellMode ∧ t.tclkGone = true ∧ t.pwr.held = false := by
  refine ⟨by decide, ⟨_, rfl⟩, ?_⟩; decide

theorem witness_cell_mode_change :
    let c : Change := { id := 0, target := 4, epoch := 0, old := 3, cmd := none }
    let s : State := { (inMode 3).setFld (F.GRP_STATUS_state 7) 1 with mode := { change := some c } }
    let w : State := { s with mode := { change := some { c with confirming := true, participants := 128 } } }
    let p : Peer := { mode := 4, target := 4, pendingChange := false, confirmed := true, id := 0, epoch := 0, age := 9 }
    let d : State := { inMode 4 with mode := { peers := [(5, p)] } }
    s.mode.change = some c ∧ c.target < 8 ∧ c.old < 8 ∧ c.confirming = false ∧ s.cellMode ∈ [3, 4, 5, 6] ∧
      c.target ∈ [4, 5, 6] ∧ s.groupState 7 ≠ 0 ∧ s.flag (F.GRP_STATUS_confirmed 7) = false ∧
      w.mode.change = some { c with confirming := true, participants := 128 } ∧ (128 : Nat).testBit 7 = true ∧
      w.now ≤ w.changeDeadline c ∧ w.fld F.MODE_XCFG_peers = 0 ∧ (∀ k, k < 8 → k ≠ 7 → (128 : Nat).testBit k = true → False) ∧
      d.cellMode ∈ [4, 5, 6] ∧ d.mode.change = none ∧ ((5 : BitVec 12).toNat, p) ∈ d.mode.peers ∧
      d.fld F.MODE_XCFG_timeout ≤ p.age := by decide

/-- A device that may enter STANDBY: grid set, master of its own time, image in force, memory trained. -/
def ready3 : State :=
  let s := ((inMode 2).setFlag F.RT_STATUS_grid true).setFld F.RT_STATUS_state 4
  let s := (s.setFlag F.SAF_STATUS_image_ok true).setFlag F.MEM_STAT_ready true
  s.setPair A.MODE_REQ_EPOCH 50000000

theorem witness_mode_request :
    let s := ready3
    s.cellMode = 2 ∧ s.isStandby = false ∧
      s.changeCheck 3 (s.pair A.MODE_REQ_EPOCH) (s.epochBoundary (s.pair A.MODE_REQ_EPOCH)) = none ∧ (inMode 4).cellMode ≠ 1 ∧
      (inMode 4).cellMode ≠ 2 := by decide

theorem witness_group_handshakes :
    let s : State := { mapped (inMode 4) with grp := [(3, { start := some 0 })] }
    let x : Stop := { target := 0, reason := 3, deadline := 0 }
    let t : State := { (mapped (inMode 4)).setFld (F.GRP_STATUS_state 3) 2 with grp := [(3, { stop := some x })] }
    let still := (t.setFlag (F.SG_STAT_still 3) true).setFlag (F.SG_STAT_pstop 3) true
    let hold : State := { still with grp := [(3, { stop := some { x with target := 1 } })] }
    (hold.grpOf 3).stop = some { x with target := 1 } ∧ hold.flag (F.SG_STAT_pstop 3) = true ∧
      hold.flag (F.SG_STAT_still 3) = true ∧ (t.grpOf 3).stop = some x ∧ x.target = 0 ∧ (s.grpOf 3).start ≠ none ∧
      s.lawFaulted 3 = false ∧ s.lawsRunning 3 = true ∧ s.groupSlices 3 = [7] ∧
      s.groupState 3 = 0 ∧ t.groupState 3 ≠ 0 ∧ (t.grpOf 3).stop ≠ none ∧ t.flag (F.SG_STAT_pstop 3) = false ∧
      (t.setFlag (F.SG_STAT_pstop 3) true).flag (F.SG_STAT_pstop 3) = true := by decide

theorem witness_slices :
    let s : State := { inMode 4 with slice := [(5, { held := false, carrierDue := true, committed := true })] }
    let s := (s.setFlag (F.S_STATUS_pending 5) true).setReg (A.S_PERIOD 5) 3125
    let e : State := { inMode 4 with slice := [(5, { held := false, wave := 8 })], clk := { time := 1 } }
    let on := e.setFlag F.RT_STATUS_grid true
    (e.sliceOf 5).frozen = none ∧ (e.sliceOf 5).carrierDue = false ∧ e.flag F.RT_STATUS_grid = false ∧
      on.flag F.RT_STATUS_grid = true ∧ (on.sliceOf 5).carrierDue = false ∧ (on.sliceOf 5).begun = false ∧ (e.sliceOf 5).reloadAt ≤ e.clk.raw ∧ (s.sliceOf 5).held = false ∧
      (s.sliceOf 5).frozen = none ∧ (s.sliceOf 5).carrierDue = true ∧ (s.sliceOf 5).early = false ∧
      s.quietMode 5 = false ∧ s.flag (F.S_STATUS_pending 5) = true ∧ (s.sliceOf 5).periodOnly = false ∧
      s.dividesCarrier 5 (s.fld (F.S_PERIOD_period 5)) = true ∧ (e.sliceOf 5).held = false ∧
      (e.sliceOf 5).wave.testBit 3 = true ∧ e.fld (F.S_ACT_DUTY_duty 5 3) % 2 ^ 16 < e.periodOf 5 ∧ e.tclkGone = false := by
  decide

theorem witness_commit :
    let s : State := { inMode 4 with clk := { time := 1 } }
    s.cellMode ≠ 1 ∧ (s.sliceOf 5).wrote = [] ∧ s.quietMode 5 = false ∧ s.reloadHere 5 = false ∧ s.carrierHere 5 = false ∧
      (s.sliceOf 5).wasTransfer = false ∧ (s.setFld (F.STP_CFG_mode 5) 1).quietMode 5 = true := by decide

theorem witness_calibration_halt_rates :
    let s := inMode 4
    let t : State := { s with bank := [(7, { rateWait := true })] }
    (s.lineOf 63 4).retired = false ∧ (s.bankOf 7).swap = none ∧
      (s.lineServing 63 4 = (4 : Fin 5).val ∨ s.lineServing 63 4 = 5) ∧ s.tclkGone = false ∧ 64 ≤ (64 : BitVec 7).toNat ∧ (63 : BitVec 7).toNat < 64 ∧
      s.cellMode ≠ 1 ∧ s.debugOpen = true ∧ s.motionHalted = false ∧ ({ s with motionHalted := true } : State).debugOpen = true ∧
      (t.bankOf 7).rateWait = true ∧ (t.sliceOf 63).frozen = none := by decide

/-! ## Witnesses: converters -/

theorem witness_conversions :
    let s : State := { inMode 4 with conv := [(24, { ent := [(15, { due := [9] })] })] }
    let r : CvRun := { entries := [(15, 3, 0)], start := 7 }
    let t : State := { inMode 4 with conv := [(24, { run := some r })] }
    ((s.convOf 24).entry 15).due.head? = some 9 ∧ (s.convOf 24).run = none ∧ s.tclkGone = false ∧
      (∀ k, k < 16 → k ≠ 15 → ((s.convOf 24).entry k).due.head? ≠ some 9) ∧ (t.convOf 24).run = some r ∧ r.convs = 0 ∧
      (t.convOf 24).pendingTrig = none ∧ ((t.convOf 24).entry 15).skip = 0 ∧ ((t.convOf 24).entry 15).depth = 0 ∧
      ((t.convOf 24).entry 15).filter.length ≤ 1 ∧ t.fld (F.CV_SEQ_DEST_stall 24 15) = 0 := by decide

theorem witness_comparator_tests :
    let s : State := { inMode 4 with bank := [(7, { test := some 15 })] }
    (15 : Nat) < 16 ∧ s.tclkGone = false ∧ (s.bankOf 0).compOut = 0 ∧ (s.bankOf 0).test = none ∧ (s.bankOf 7).test = some 15 ∧
      ([0, 1, 2, 3, 4, 5, 6, 7, 4095] : List (BitVec 12)).length = 9 := by decide

/-! ## Witnesses: time, coordinates, compare, delay lists -/

theorem witness_coordinates :
    let s := (inMode 4).setFld (F.K_CFG_source 15) 1
    s.tclkGone = false ∧ s.hwk.votes = [] ∧ s.saf.published = none ∧ s.fab.tries = [] ∧ s.ldg.outst = [] ∧
      s.toTick.asOf.coordSource 15 = 1 ∧ s.clk.lastTick % 1000 = 0 ∧ s.now < s.clk.lastTick + 1000 ∧
      ({ s with timed := { regs := s.regs } } : State).asOf.coordSource 15 = 1 ∧ ({ s with tclkGone := true } : State).tclkGone = true ∧ s.coordSource 15 = 1 ∧
      (s.coordOf 15).override = [] ∧ s.coordState 15 ≠ 3 := by decide

/-- A compare entry that fires when late, without repeats. -/
def lateEntry : CmpEntry :=
  { key := 5, interval := 0, rep := 0, tag := 9, coord := 0, down := false, fireLate := true, act := 0, slice := 0, out := 0,
    width := 0, stall := 0, slot := 0, data := 0, raw := 0, lateSince := some 3 }

/-- The link schedule runs: channel A enabled, its schedule checked, the node ACTIVE. -/
def linked (s : State) : State :=
  ((s.setFlag F.LNK_CFG_ena_a true).setFlag (F.CH_STAT_sched_ok 0) true).setFld F.LNK_STATE_state 4

theorem witness_compare_events :
    let s : State := { linked (inMode 4) with cmp := { entries := [lateEntry] } }
    let t : State := { inMode 4 with cmp := { actions := [{ slice := 63, out := 3, width := 65535, due := 9 }], pulses := [(63, some 4)] } }
    s.scheduleRuns = true ∧ (inMode 4).scheduleRuns = false ∧ s.cmp.entries = [lateEntry] ∧ lateEntry.coord < 16 ∧ lateEntry.lateSince ≠ none ∧
      lateEntry.rep = 0 ∧ t.cmp.actions = [{ slice := 63, out := 3, width := 65535, due := 9 }] ∧ (3 : Nat) < 4 ∧ t.tclkGone = false ∧
      t.pulseOf 63 = some 4 ∧ s.motionStopped = false ∧ t.motionStopped = false ∧ (inMode 7).motionStopped = true := by decide

theorem witness_delay_and_pitch :
    let e : DlEntry := { key := 0, dir := 0, stall := 255, slot := 7, data := 1, side := 0, late := false }
    let c : Track := { seg := { kind := 4, timeout := 5 }, slot := 0 }
    let s : State := { inMode 4 with dl := [(4, { due := [(e, 3)] })], grp := [(7, { cur := some c })] }
    (s.dlist 4).due = (e, 3) :: [] ∧ e.stall ≠ 0 ∧ (s.grpOf 7).cur = some c ∧ c.seg.kind = 4 ∧ c.seg.timeout ≠ 0 ∧
      s.queueState 7 ≠ 5 ∧ c.passed = false ∧ s.pitchGranted 7 c.seg.pitch = false := by decide

theorem witness_civil_time :
    let s := (inMode 4).setFlag F.RT_CTRL_pps_en true
    let far : State := { s with clk := { pps := some 0 } }
    let edge : State := { s with clk := { time := 1000500000 * 2 ^ 32, pps := some 0 } }
    s.flag F.RT_CTRL_pps_en = true ∧ true = !s.flag F.RT_CTRL_pps_pol ∧ s.clk.pps = none ∧
      s.flag F.RT_CTRL_pps_track = false ∧ far.clk.pps = some 0 ∧ ¬0 + 1000000000 ≤ far.now + 500000 ∧
      0 + 1000000000 ≤ edge.now + 500000 ∧ edge.now ≤ 0 + 1000500000 ∧ s.flag F.RT_STATUS_pps_lost = false ∧
      s.cellMode ≠ 1 ∧ s.clk.tracking = none ∧ (BitVec.setWidth 32 (858993 : BitVec 64)).toInt.natAbs ≤ 858993 ∧
      ¬(BitVec.setWidth 32 (858994 : BitVec 64)).toInt.natAbs ≤ 858993 := by decide

theorem witness_phase_and_link :
    let s := (inMode 4).setFlag F.CRD_PHASE_locked true
    let s : State := { s with clk := { time := 25000000 * 2 ^ 32 }, phase := { lastEdge := some 0 } }
    let t : State := { (inMode 4).setFld (F.K_CFG_source 15) 3 with coord := [(15, { stale := 255 })] }
    true = !s.flag F.CRD_PHASE_pol ∧ s.phase.lastEdge = some 0 ∧ 40 * (s.now - 0) ≤ 1000000000 ∧
      1000000000 ≤ 70 * (s.now - 0) ∧ s.flag F.CRD_PHASE_locked = true ∧ t.coordSource 15 = 3 ∧
      t.fld (F.K_CFG_timeout 15) ≤ (t.coordOf 15).stale ∧ t.coordState 15 ≠ 2 := by decide

/-! ## Witnesses: host commands -/

/-- Ledger 0 with completion ledger 0 open, one descriptor to fetch, the host reachable. -/
def hosted (s : State) : State :=
  let s := ((s.setFlag F.LDG_STAT_ready true).setFlag F.LDG_STAT_link true).setFlag (F.CMD_CFG_enable 0) true
  let s := ((s.setFld (F.CMD_CFG_window 0) 1).setFlag (F.CPL_CFG_enable 0) true).setFld (F.CPL_CFG_size 0) 6
  { s with ldg := { s.ldg with cmd := [(0, { producer := 1 })] } }

/-- Sequence number 1 of ledger 0. -/
def head1 : CmdHead := { ledger := 0, seq := 1 }

/-- The hypotheses of `acceptsNow`, as one truth value. -/
def acceptable (s : State) (h : CmdHead) (c : HostCmd) (bs : List Byte) : Bool :=
  let n := h.ledger.val
  s.canDispose n && h.seq.toNat == (s.cursor n).disposed + 1 &&
    (match s.checkCmd (descrOf h c) c with | .ok b => b == bs | .error _ => false) &&
    !s.mirrorWaits n h.seq.toNat && s.hostOut && s.ldg.outst.isEmpty

theorem acceptable_spec {s : State} {h : CmdHead} {c : HostCmd} {bs : List Byte} (p : acceptable s h c bs = true) :
    acceptsNow s h c bs := by
  simp only [acceptable, Bool.and_eq_true, Bool.not_eq_true', beq_iff_eq, List.isEmpty_iff] at p
  obtain ⟨⟨⟨⟨⟨a, b⟩, c'⟩, d⟩, e⟩, f⟩ := p
  refine ⟨a, b, ?_, d, e, by simp [f], by simp [f]⟩
  split at c' <;> simp_all

theorem witness_rejections :
    let s := hosted (inMode 4)
    (inMode 4).canDispose 0 = false ∧ s.canDispose 0 = true ∧ (0 : BitVec 64).toNat ≤ (s.cursor 0).disposed ∧
      (s.cursor 0).disposed + 1 < (2 : BitVec 64).toNat ∧ head1.seq.toNat = (s.cursor 0).disposed + 1 ∧
      (match s.checkCmd (descrOf head1 (.segSkip 8)) (.segSkip 8) with
        | .error e => e.1 != .seqDup && e.1 != .seqGap | .ok _ => false) = true ∧
      s.postsCompletions = true ∧ s.ldg.outst = [] ∧ s.flag F.LDG_STAT_ready = true ∧ s.hostOut = true ∧ s.flag F.LDG_CFG_anchor_en = false ∧
      s.flag (F.CPL_CFG_enable 0) = true ∧
      ringHeld (s.fld (F.CPL_PRODUCED_count 0)) (s.fld (F.CPL_CONSUMED_count 0)) + 2 ≤ 2 ^ s.fld (F.CPL_CFG_size 0) := by
  decide

theorem witness_motion_commands :
    let s := (hosted (inMode 4)).setFld (F.K_CFG_groups 0) 255
    let q := s.setFld (F.MG_QCOUNT_count 7) 1
    let k := s.setFld (F.K_CFG_source 15) 5
    acceptsNow s head1 (.segAppend 7 0 0 0) [] ∧ s.ringSlots 7 ≤ 65536 ∧ acceptsNow q head1 (.segSkip 7) [] ∧
      q.queued 7 ≠ 0 ∧ acceptsNow s head1 (.segFlush 7) [] ∧ acceptsNow s head1 (.payloadSet 7 16 1 0 0) [] ∧
      acceptsNow s head1 (.compareRemove 9) [] ∧ acceptsNow s head1 (.dlInsert 4 2 255 7 1 5) [] ∧
      acceptsNow s head1 (.dlCancel 4 255 7) [] ∧ acceptsNow s head1 (.stallToken 255 7 1) [] ∧
      acceptsNow k head1 (.coordStep 15 5 1) [] ∧ acceptsNow s head1 (.overrideSet 15 1024) [] := by
  refine ⟨acceptable_spec ?_, ?_, acceptable_spec ?_, ?_, acceptable_spec ?_, acceptable_spec ?_, acceptable_spec ?_,
    acceptable_spec ?_, acceptable_spec ?_, acceptable_spec ?_, acceptable_spec ?_, acceptable_spec ?_⟩ <;> decide

/-- A compare entry of repeat count 0 that acts on nothing. -/
theorem witness_compare_add : acceptsNow ((hosted (inMode 4)).setFld (F.K_CFG_source 0) 1) head1 (.compareAdd 5) [] := by
  refine acceptable_spec ?_; decide

/-- The same with an image in force and group 3 of one slice that the image knows. -/
def startable : State :=
  let s := (mapped (hosted (inMode 4))).setFlag F.SAF_STATUS_image_ok true
  let s := (s.setFld (F.GRP_STATUS_joints 3) 1).setFld F.SAF_STO_fault 0
  { s with saf := { image := { groups := [(3, { joints := 1 })] } }
           sram := memWrite [] 0x7E0500 [1, 7, 1] }

set_option maxRecDepth 8000 in
theorem witness_mode_and_group_commands :
    let s := hosted (inMode 3)
    let g := startable
    let hold := (hosted (inMode 4)).setFld (F.GRP_STATUS_state 3) 1
    let on := (hosted (inMode 4)).setFld (F.GRP_STATUS_state 3) 2
    acceptsNow s head1 (.modeSet 7 9 0) [] ∧ acceptsNow s head1 (.modeSet 4 9 50000000) [] ∧
      acceptsNow g head1 (.groupSet 3 1) [] ∧ g.groupState 3 = 0 ∧ g.stoRemains 3 = false ∧ g.lawsAwaited 3 = true ∧
      acceptsNow hold head1 (.groupSet 3 2) [] ∧ hold.groupState 3 = 1 ∧ acceptsNow on head1 (.groupSet 3 1) [] ∧
      on.groupState 3 = 2 ∧ acceptsNow on head1 (.groupSet 3 0) [] ∧ (on.grpOf 3).stop = none := by
  refine ⟨acceptable_spec ?_, acceptable_spec ?_, acceptable_spec ?_, ?_, ?_, ?_, acceptable_spec ?_, ?_, acceptable_spec ?_,
    ?_, acceptable_spec ?_, ?_⟩ <;> decide

theorem witness_ledger_commands :
    let s := hosted (inMode 4)
    let law : State := { s with hostMem := [(0, 128)] }
    let a := s.setFlag F.SEC_PROV_provisioned true
    acceptsNow s head1 .nop [] ∧ acceptsNow s head1 .status [] ∧ s.ldg.outst = [] ∧
      acceptsNow law head1 (.lawParam 255 0 1 0) [128] ∧ law.lawBusy 255 = false ∧ law.hwk.lawWait = [] ∧
      acceptsNow a head1 (.attest 0x100000 3840 7) [] ∧
      a.pair (A.CPL_BASE 0) + 64 * 2 ^ a.fld (F.CPL_CFG_size 0) ≤ (0x100000 : BitVec 64).toNat := by
  refine ⟨acceptable_spec ?_, acceptable_spec ?_, ?_, acceptable_spec ?_, ?_, ?_, acceptable_spec ?_, ?_⟩ <;> decide

/-- A step of coordinate 15 that waits, and the ABORT of its command. -/
theorem witness_abort :
    let s := (hosted (inMode 4)).setFld (F.CMD_CFG_window 0) 2
    let o : Outst :=
      { ledger := 0, seq := 1, cmd := .coordStep 15 5 1, fence := false, irq := false, begun := true, final := none }
    let x : HostStep := { cmd := some (0, 1), delta := 5, duration := 1 }
    let s : State := { s with ldg := { s.ldg with cmd := [(0, { producer := 1, disposed := 1, accepted := 1 })], outst := [o] },
                              coord := [(15, { steps := [x] })] }
    let h : CmdHead := { ledger := 0, seq := 2 }
    acceptsNow s h (.abort 1) [] ∧ s.ldg.outst = [o] ∧ o.final = none ∧ s.abortEarly 0 1 = false ∧
      ∃ y ∈ (s.coordOf 15).steps, y.cmd = some (0, 1) ∧ y.progress = 0 := by
  refine ⟨⟨by decide, by decide, by rfl, by decide, by decide, by decide, by decide⟩, by decide, by decide, by decide, ?_⟩
  decide

/-! ## Witnesses: segments, steppers, feedback -/

theorem witness_segments_and_steps :
    let s : State := { (inMode 4).setFld (F.MG_QCOUNT_count 7) 1 with grp := [(7, { ffStart := some 0 })] }
    let f := ((inMode 4).setFlag (F.MG_FF_enable 7) true).setFld (F.MG_FF_stall 7) 255
    let f := f.setFld (F.GRP_STATUS_state 7) 2
    let p : State := { (mapped (inMode 4)).setFld (F.STP_CFG_mode 7) 1 with step := [(7, { due := some 4 })] }
    let done : State := { inMode 4 with grp := [(7, { ffStart := some 0, ffDone := true })] }
    let next : State := { f with grp := [(7, { ffNext := some [1, 2] })] }
    0 < s.queued 7 ∧ (s.grpOf 7).fetched.length < 4 ∧ s.motionStopped = false ∧ (s.grpOf 7).ffStart = some 0 ∧
      (s.grpOf 7).ffDone = false ∧ (done.grpOf 7).ffDone = true ∧ (f.grpOf 7).ffStart = none ∧
      (next.grpOf 7).ffNext = some [1, 2] ∧ (next.grpOf 7).ffAt = none ∧
      f.isStandby = false ∧ f.flag (F.MG_FF_enable 7) = true ∧ f.fld (F.MG_FF_stall 7) ≠ 0 ∧ f.groupState 7 ≠ 0 ∧
      f.tclkGone = false ∧ f.fld (F.MODEL_COUNT_count 7) = f.fld (F.GRP_STATUS_joints 7) ∧
      (f.setFld (F.MODEL_COUNT_count 7) 6).fld (F.MODEL_COUNT_count 7) ≠ f.fld (F.GRP_STATUS_joints 7) ∧ (f.grpOf 7).ffMiss = 0 ∧
      (p.stepperOf 7).due = some 4 ∧ p.sliceGroup 7 ≠ none ∧ p.fld (F.STP_CFG_mode 7) ≠ 0 := by decide

theorem witness_counting_ports :
    let s := (inMode 4).setFld (F.FB_CFG_mode 63) 1
    let t : State := { s.setFld (F.FB_FSTAT_valid 63) 1 with fbk := [(63, { lastEdge := some 4 })] }
    let hall := (inMode 4).setFld (F.FB_CFG_mode 63) 2
    let lines (new : Nat) : Nat := s.filtered 63 (s.fbkOf 63).lines new 0xFFFFFF
    s.fbMode 63 = 1 ∧ s.fld (F.FB_CFG_index 63) = 0 ∧ ((s.fbkOf 63).lines % 4, lines 1 % 4) ∈ [(0, 1), (1, 3), (3, 2), (2, 0)] ∧
      (s.fbkOf 63).lines % 4 ^^^ lines 3 % 4 = 3 ∧ lines 0 = (s.fbkOf 63).lines ∧ s.cellMode ≠ 1 ∧ hall.fbMode 63 = 2 ∧
      hall.filtered 63 (hall.fbkOf 63).lines 7 0xFFFFFF = 7 ∧
      (s.fbkOf 63).indexAt = none ∧ (s.fbkOf 63).lastEdge = none ∧ (t.fbkOf 63).lastEdge = some 4 ∧ 4 / countUnit = t.clk.time / countUnit ∧ t.fbIncremental 63 = true ∧
      (t.fbkOf 63).lastEdge = some 4 ∧ t.fld (F.FB_FSTAT_valid 63) ≠ 0 := by decide

theorem witness_frames_and_latches :
    let q : State := { ((inMode 4).setFlag (F.FB_DEST_pen 63) true).setFld (F.FB_DEST_stall 63) 255 with
      fbk := [(63, { due := [4] })] }
    let l : State := { (inMode 4).setFld (F.FB_CFG_mode 63) 3 with fbk := [(63, { due := [4], lines := 2 })] }
    let f : State := { (inMode 4).setFld (F.FB_CFG_mode 63) 3 with fbk := [(63, { frame := some 4 })] }
    let f := (f.setFld (F.FB_SER_st 63) 32).setFld (F.FB_SER_mt 63) 0
    let b : State := { (inMode 4).setFld (F.FB_CFG_mode 63) 4 with fbk := [(63, { frame := some 4 })] }
    (q.fbkOf 63).due = 4 :: [] ∧ q.tclkGone = false ∧ q.fbSerial 63 = false ∧ q.flag (F.FB_DEST_pen 63) = true ∧
      q.fld (F.FB_DEST_stall 63) ≠ 0 ∧ (l.fbkOf 63).due = 4 :: [] ∧ l.fbSerial 63 = true ∧ (l.fbkOf 63).frame = none ∧
      (l.fbkOf 63).frameFree ≤ l.clk.time ∧ (l.fbkOf 63).lines.testBit 1 = true ∧ (f.fbkOf 63).frame = some 4 ∧
      f.fbMode 63 = 3 ∧ f.fld (F.FB_SER_parity 63) = 0 ∧ f.fld (F.FB_SER_mt 63) = 0 ∧ f.fld (F.FB_SER_lead 63) = 0 ∧
      f.flag (F.FB_SER_gray 63) = false ∧ f.fld (F.FB_MAXSTEP_step 63) = 0 ∧ 32 = f.fld (F.FB_SER_st 63) ∧
      (0xFFFFFFFF : BitVec 128).toNat < 2 ^ 32 ∧ (b.fbkOf 63).frame = some 4 ∧ b.fbMode 63 = 4 ∧
      (b.ackInTime 63 false 0 && b.startInTime 63 0) = false ∧
      (b.ackInTime 63 true 0 && b.startInTime 63 255) = false := by decide

theorem witness_emulation :
    let s : State := { (inMode 4).setFlag (F.EMU_CFG_src 7) true with emu := [(7, { target := 2 ^ 63 - 1 })] }
    let t := s.setFlag (F.EMU_CFG_enable 7) true
    t.flag (F.EMU_CFG_src 7) = true ∧ t.flag (F.EMU_CFG_enable 7) = true ∧ -2 ^ 63 ≤ t.emuTarget 7 ∧
      t.emuTarget 7 < 2 ^ 63 ∧ t.emuTarget 7 ≠ t.ipair (A.EMU_EMITTED 7) ∧ s.cellMode ≠ 1 ∧
      s.flag (F.EMU_CFG_enable 7) = false := by decide

/-! ## Witnesses: the hawker -/

theorem witness_tokens_and_dispatch :
    let tk : Tok := { stall := 255, slot := 7, data := 1, source := 8, sent := 0 }
    let s : State := { inMode 4 with hwk := { tokens := [tk] } }
    let on := s.setFlag (F.ST_CFG_enable 255) true
    let waits := (on.setFld (F.ST_STATE_state 255) 1).setFld (F.ST_CFG_mask 255) 128
    let e : QExec := { stall := 255, exec := 0, ready := 0 }
    let d : State := { inMode 4 with core := [(11, { status := .take })], hwk := { queue := [e] } }
    let full : State := { s with hwk := { tokens := [tk], held := [{ tk with source := 5 }, tk] } }
    let late : State := { full with ic := { since4 := 15 } }
    s.hwk.tokens = tk :: [] ∧ s.hwk.votes = [] ∧ tokenClass tk.source = some 4 ∧ tokenClass 5 = some 0 ∧
      full.nextHeld = some { tk with source := 5 } ∧ late.nextHeld = some tk ∧ s.hwk.held = [] ∧ s.nextHeld = none ∧ tk.stall < 256 ∧ tk.slot < 8 ∧ tk.cmd = none ∧ s.flag (F.ST_CFG_enable 255) = false ∧
      on.flag (F.ST_CFG_enable 255) = true ∧ on.stallState 255 ≠ 1 ∧ waits.stallState 255 = 1 ∧
      (waits.freshBits 255 ||| 2 ^ 7) &&& waits.fld (F.ST_CFG_mask 255) = waits.fld (F.ST_CFG_mask 255) ∧
      d.nextDispatch = some (e, 11) ∧ e.restore = false ∧ (∀ q ∈ d.hwk.queue, q.stall < 256) := by decide

theorem witness_stalls :
    let s := (inMode 4).setFld (F.ST_STATE_state 255) 4
    let c := inMode 2
    let on := c.setFlag (F.ST_CFG_enable 255) true
    let d : State := { (inMode 4).setFld (F.ST_STATE_state 255) 2 with stall := [(255, { deadline := some 4 })] }
    d.hwk.votes = [] ∧ s.cellMode ≠ 1 ∧ s.stallState 255 = 4 ∧ (inMode 4).stallState 255 ≠ 4 ∧ (findReg (A.ST_CFG 255)).isSome = true ∧
      c.flag (F.ST_CFG_enable 255) = !true ∧ on.flag (F.ST_CFG_enable 255) = !false ∧ c.stallState 255 ≠ 3 ∧
      c.stallState 255 ≠ 5 ∧ (d.stallOf 255).deadline = some 4 ∧ (d.stallOf 255).missCounted = false ∧
      d.stallState 255 ∈ [2, 3, 5] := by decide

/-- The enable bit of stall 255 may be written in CONFIGURE. -/
theorem witness_stall_enable :
    let s := inMode 2
    let old := (s.reg (A.ST_CFG 255)).toNat
    (match findReg (A.ST_CFG 255) with
      | some (r, is) => (match s.prepare r is old old old (setBitNat old 0 true) with
        | .ok v => v == setBitNat old 0 true
        | .error _ => false)
      | none => false) = true := by decide

theorem witness_selftests :
    let s : State := { inMode 4 with core := [(0, { status := .take })] }
    let t : State := { inMode 4 with core := [(11, { status := .selftest })] }
    let q := s.setFlag (F.HC_HEALTH_quarantined 11) true
    s.nextTested = some (0, false) ∧ (s.coreOf 0).ctx = none ∧ (s.coreOf 0).stall = 0 ∧ s.tclkGone = false ∧
      (t.coreOf 11).status = .selftest ∧ q.cellMode ≠ 1 ∧ q.fld (F.HC_HEALTH_qcount 11) < 3 ∧ q.quarantined 11 = true ∧
      11 ∉ q.hwk.retests ∧ 3 ≤ (q.setFld (F.HC_HEALTH_qcount 11) 3).fld (F.HC_HEALTH_qcount 11) := by decide

/-! ## Witnesses: the safety region -/

/-- A safety image in force. -/
def safe (i : SafImage) : State :=
  { (inMode 4).setFlag F.SAF_STATUS_image_ok true with saf := { image := i }, pwr := { held := false, safetyUp := true } }

theorem witness_separation :
    let s := safe {}
    let late : State := { s with saf := { lastClocks := some (-20000) } }
    late.imageOk = true ∧ late.saf.published = none ∧ late.saf.waiting = none ∧ late.pwr.safetyUp = true ∧ late.saf.lastClocks = some (-20000) ∧ late.flag F.SAF_STATUS_fault = false ∧
      101 * ((late.sepCycle / 25 : Nat) : Int) <
        100 * ((late.advanceTo (late.nextSepBoundary * nsUnit)).safetyClocks - -20000) ∧ s.tclkGone = false ∧ s.pwr.safetyUp = true ∧ s.imageOk = true ∧ s.saf.waiting = none ∧ (inMode 4).imageOk = false ∧
      s.fld F.MODE_SEP_rate ≠ 1 ∧ (s.setFld F.MODE_SEP_rate 1).fld F.MODE_SEP_rate = 1 := by decide

theorem witness_safety_inputs :
    let i : SInput := { fn := 1, groups := 128 }
    let c : SConn := { node := 5, conn := 9, slotCount := 1 }
    let s : State := { safe { inputs := [(15, i)], conns := [(15, c)], pitches := [(63, { home := 4095 })] } with
      saf := { image := { inputs := [(15, i)], conns := [(15, c)], pitches := [(63, { home := 4095 })] },
               inputs := [(15, { state := 0, odd := some 3 })], conn := [(15, { good := some 3 })] } }
    let r := (s.setFld (F.SCONN_STAT_state 15) 1).setFld F.SAF_STO_a 1
    s.imageOk = true ∧ s.pwr.safetyUp = true ∧ Tab.find? s.saf.image.conns 15 = some c ∧ bytesAt [9, 0] 0 2 = c.conn ∧
      (s.ubkairOk 15 c [9, 0] && presenceOk c []) = false ∧ (r.connOf 15).good = some 3 ∧ r.connState 15 = 1 ∧
      (s.inputRec 15).shows false false = some 1 ∧ (s.inputRec 15).fn = 1 ∧ (s.safeIn 15).state = 0 ∧
      (s.inputRec 15).groups.testBit 7 = true ∧ (s.inputRec 15).shows true true = some 0 ∧ (s.safeIn 0).state ≤ 1 ∧
      (s.safeIn 15).odd = some 3 ∧ r.bitFld F.SAF_STO_a 0 = true ∧ s.pitchLocal 63 = false ∧
      4 ≤ Tab.get (fun _ => 4) s.saf.homeAge (s.pitchHome 63) := by decide

set_option maxRecDepth 20000 in
/-- A frame of one record that says nothing, for a connection of seed and watchdog 0; its CRC is computed. -/
theorem witness_good_frame :
    let c : SConn := { node := 5, conn := 9, slotCount := 1 }
    let body : List Byte := toBytes 2 9 ++ toBytes 4 1 ++ toBytes 2 0 ++ (1 :: List.replicate 47 0)
    let bytes := body ++ toBytes 4 (safetyCrc 0 5 (body ++ [0, 0, 0, 0]))
    ((inMode 4).ubkairOk 15 c bytes && presenceOk c ((bytes.drop 8).take (bytes.length - 12))) = true := by decide

/-! ## Witnesses: Camyel Link and twin -/

theorem witness_link_ports :
    let s := (inMode 4).setFlag (F.PORT_STAT_up 1 1) true
    let t := s.setFlag (F.PORT_STAT_up 1 0) true
    let p : State := { s with lnk := { port := [(3, { probing := true })] } }
    (inMode 4).portUp 1 1 = false ∧ s.portUp 1 1 = true ∧ (p.lport 1 1).probing = true ∧ s.cellMode ≠ 1 ∧
      s.portSends 1 1 s.clk.time (s.clk.time + 64 * 2 ^ 32) = false ∧
      (let u := s.probeMoment 1 1
       u.portSends 1 1 u.clk.time (u.clk.time + 1) = false ∧
       let w : State := { u with lnk := { u.lnk with wire := [{ ch := 1, port := 1, start := u.clk.time, sent := .frame [0] }] } }
       w.portSends 1 1 w.clk.time (w.clk.time + 1) = true) ∧
      (s.portsOf 1).all (fun y => s.portUp y.1 y.2) = false ∧ (t.portsOf 1).all (fun y => t.portUp y.1 y.2) = true := by
  decide

/-- Entry 0 of channel A: of this type, from this sender, in a schedule of one entry; the node is 1. -/
def scheduled (typ sender : Nat) : State :=
  let s := ((linked (inMode 4)).setFld F.LNK_CFG_node 1).setFld (F.CH_SCHED_N_count 0) 1
  let s := (s.setFld (F.SCHED_START_start 0 0) 12000).setFld (F.SCHED_LEN_length 0 0) 60000
  let s := (s.setFld (F.SCHED_LEN_sender 0 0) sender).setFld (F.SCHED_KIND_type 0 0) typ
  (s.setFld (F.SCHED_KIND_plen 0 0) 4).setFlag (F.PORT_STAT_up 0 1) true

set_option maxRecDepth 20000 in
theorem witness_schedule :
    let s := scheduled 1 1
    let m := scheduled 1 2
    (inMode 4).schedCount 0 = 0 ∧ s.cellMode ≠ 1 ∧ s.chanOn 0 = true ∧ 0 < s.schedCount 0 ∧ s.entryError 0 0 = 0 ∧
      (scheduled 1 0).schedCount 0 = 1 ∧ (scheduled 1 0).entryError 0 0 ≠ 0 ∧
      s.node ≠ 0 ∧ s.tclkGone = false ∧ s.clk.tracked = 0 ∧ (s.sentry 0 0).sender = s.node ∧ (s.sentry 0 0).typ = 1 ∧
      (s.sentry 0 0).mcount = 0 ∧ s.twinBatten 0 0 true = none ∧ 0 < s.fld F.LNK_LEAD_lead ∧
      s.clk.time + s.fld F.LNK_LEAD_lead * 1000 * 2 ^ 32 ≤
        (2 * s.nextInstance 0 0 * s.linkCycle + 5 * (s.sentry 0 0).start) * 2 ^ 31 ∧
      ((scheduled 2 1).sentry 0 0).typ = 2 ∧ (scheduled 2 1).linkState' = 4 ∧ (m.sentry 0 0).sender ≠ m.node ∧
      s.fab.tries = [] ∧ (m.linkNow / m.linkCycle, 0) ∉ (m.lchan 0).got ∧ (m.linkNow / m.linkCycle, 0) ∉ (m.lchan 0).missed := by decide

set_option maxRecDepth 20000 in
/-- A NULL frame of node 2 in batten 0, seen at its scheduled instant in cycle 0. -/
theorem witness_null_frame :
    let s := scheduled 1 2
    let s : State := { s with clk := { time := (30000 + s.fld F.LNK_TIMING_eave) * 2 ^ 32 } }
    let bytes := frameBytes 2 2 0 0 0 []
    let f := parseFrame bytes
    let d := s.deviation (s.sentry 0 0) (s.transmitAt 0 1 0 f)
    s.portUp 0 1 = true ∧ s.linkState' = 4 ∧ s.chanOn (s.chanOfPort 0) = true ∧ headerGood bytes = true ∧
      f.source ≠ s.node ∧ s.frameEntry 0 f = some (s.sentry 0 0) ∧ s.frameIdent 0 (s.sentry 0 0) d.1 f = true ∧
      s.inWindow d.2 = true ∧ f.length ≤ 4 * (s.sentry 0 0).plen ∧ f.fcsOk = true ∧ f.typ = 2 ∧
      (d.1.toNat, f.batten) ∉ (s.lchan 0).got ∧ headerGood (bytes.set 0 0) = false := by decide

set_option maxRecDepth 20000 in
theorem witness_cycle_end_and_listen :
    let s := linked (inMode 4)
    let l := (s.setFld F.LNK_STATE_state 1)
    s.fld F.TWN_STAT_role = 0 ∧ s.linkState' = 4 ∧ s.lnk.vals = [] ∧ s.lnk.sentSync = false ∧ l.linkState' = 1 := by decide

theorem witness_twin_roles :
    let p := ((linked (inMode 4)).setFld F.TWN_STAT_role 1).setFld F.TWN_CFG_loss 8
    let p : State := { p with twin := { quiet := 8 } }
    let a : State := { (inMode 4).setFld F.TWN_STAT_role 3 with twin := { peerRole := 2 } }
    let b := (linked ((inMode 4).setFld F.TWN_STAT_role 2)).setFlag F.TWN_STAT_act_in true
    let b := (b.setFlag (F.PORT_STAT_up 1 0) true).setFlag (F.PORT_STAT_up 1 1) true
    let b : State := { b with twin := { peerRole := 3, loss := 255, fbkAge := 16 } }
    let d : State := { b with twin := { decision := some (5, 125000) } }
    p.mayStart = true ∧ p.flag F.TWN_CFG_prefer = false ∧ (inMode 4).mayStart = false ∧ p.cellMode ≠ 1 ∧
      a.fld F.TWN_STAT_role = 3 ∧ a.twin.peerRole = 2 ∧ a.flag F.TWN_STAT_act_in = false ∧ a.twin.riseAt = none ∧
      (a.setFlag F.TWN_STAT_act_in true).flag F.TWN_STAT_act_in = true ∧
      b.fld F.TWN_STAT_role = 2 ∧ b.twin.decision = none ∧ b.fld F.TWN_CFG_loss ≤ b.twin.loss ∧
      healthy b.healthWord = true ∧ b.flag F.TWN_STAT_act_in = true ∧ b.twin.peerRole = 3 ∧
      d.fld F.TWN_STAT_role = 2 ∧ d.twin.decision = some (5, 125000) := by decide

theorem witness_yield_and_confirm :
    let y : State := { (inMode 4).setFld F.TWN_STAT_role 3 with twin := { riseAt := some 4, yielding := true } }
    let w : Verifying := { head := { ledger := 15, seq := 1 }, cmd := .nop, data := [] }
    let t : State := { inMode 4 with ldg := { twinWait := [(w, 8)] } }
    y.fld F.TWN_STAT_role = 3 ∧ y.twin.riseAt ≠ none ∧ y.allInhibited = true ∧ y.ldg.twinWait = [] ∧
      y.twin.yielding = true ∧ t.ldg.twinWait = [(w, 8)] ∧ ({ hosted (inMode 4) with ldg := { twinWait := [(w, 8)] } } : State).mayDispose 0 = true ∧
      w.head.ledger = 15 := by decide

/-! ## Witnesses: the host interface -/

theorem witness_registers :
    let s := inMode 2
    let pairAt := (0x2001C : BitVec 22)
    s.hwk.votes = [] ∧ s.fab.tries = [] ∧ findReg 0x24 = none ∧ ¬(((3 : Fin 9).val = 4) ∧ (0 : BitVec 22).toNat % 4 = 0) ∧ (findReg A.LNK_LEAD).isSome = true ∧
      (findReg (A.MODE_REQ_EPOCH)).isSome = true ∧ (findReg (A.MODE_REQ_EPOCH + 4)).isSome = true ∧
      findReg pairAt.toNat = findReg pairAt.toNat ∧ s.cellMode = 2 ∧ (inMode 3).cellMode ≠ 1 ∧ (inMode 3).cellMode ≠ 2 ∧
      1 ≤ (100 : BitVec 64).toNat % 2 ^ 32 % 2 ^ 7 ∧ (100 : BitVec 64).toNat % 2 ^ 32 % 2 ^ 7 ≤ 100 ∧
      (101 : BitVec 64).toNat % 2 ^ 32 % 2 ^ 7 > 100 ∧ s.flag F.RT_CTRL_standalone = false ∧ s.linkState' ≠ 6 ∧
      1 ≤ fieldOf (s.reg A.RT_CTRL) 8 8 ∧ fieldOf (s.reg A.RT_CTRL) 8 8 ≤ 200 ∧ s.flag F.LNK_CFG_ena_a = false := by decide

theorem witness_register_links :
    let s := (inMode 2).setFld F.LNK_CFG_node 9
    let s := s.setFlag (F.CH_STAT_sched_ok 0) true
    let on := s.setFlag F.LNK_CFG_ena_a true
    let m := (s.setFlag F.RT_CTRL_standalone true).setFld F.LNK_STATE_state 6
    s.node ≠ 0 ∧ s.linkState' = 0 ∧ s.flag (F.CH_STAT_sched_ok 0) = true ∧ s.flag F.LNK_CFG_ena_a = false ∧
      on.flag F.LNK_CFG_ena_a = true ∧ on.linkState' ≠ 6 ∧ m.flag F.RT_CTRL_standalone = true ∧ m.linkState' = 6 := by decide

theorem witness_rings :
    let s := (hosted (inMode 4)).setFld (F.CPL_PRODUCED_count 15) 1
    let f : State := { s with ldg := { cpl := [(15, { fullSince := some 4, unsignalled := 1 })],
                                       tal := [(3, { unsignalled := 1 })] } }
    let r : TallyRec := { stamp := 0, seq := 0, cls := 2, flags := 0, code := 1, source := 0, d0 := 0, d1 := 0, d2 := 0, ledger := 3 }
    let t : State := { s.setFlag (F.TAL_CFG_enable 3) true with tly := { ring := [r] } }
    s.cellMode ≠ 1 ∧ (1 + 2 ^ 32 - s.fld (F.CMD_CONSUMED_count 0)) % 2 ^ 32 ≤ 2 ^ s.fld (F.CMD_CFG_size 0) ∧
      ((s.cursor 0).producer + 2 ^ 32 - s.fld (F.CMD_CONSUMED_count 0)) % 2 ^ 32 ≤ 1 ∧
      ¬(0xFFFFFFFF + 2 ^ 32 - s.fld (F.CMD_CONSUMED_count 0)) % 2 ^ 32 ≤ 2 ^ s.fld (F.CMD_CFG_size 0) ∧
      s.fld (F.CPL_CONSUMED_count 15) = 0 ∧ s.fld (F.CPL_PRODUCED_count 15) = 1 ∧ s.fld (F.TAL_PRODUCED_count 3) = 0 ∧
      (f.cplSide 15).fullSince = some 4 ∧ (s.cplSide 15).fullSince = none ∧ (f.cplSide 15).unsignalled ≠ 0 ∧
      (f.talSide 3).unsignalled ≠ 0 ∧ t.hostOut = true ∧ t.flag (F.TAL_CFG_enable 3) = true ∧
      ringHeld (t.fld (F.TAL_PRODUCED_count 3)) (t.fld (F.TAL_CONSUMED_count 3)) < 2 ^ t.fld (F.TAL_CFG_size 3) ∧
      t.tly.ring.find? (fun r => r.ledger == 3) = some r ∧ s.hostUp = true ∧ (inMode 4).hostUp = false ∧
      s.ldg.outst = [] ∧ s.ldg.twinWait = [] ∧
      s.ldg.verify = [] ∧ s.twin.disps = [] ∧ hostReaches { link := true, busMaster := true } = true ∧
      hostReaches { link := true, busMaster := true, d3hot := true } = false := by decide

theorem witness_fetch :
    let s := hosted (inMode 4)
    let bs := toBytes 8 1 ++ toBytes 2 1 ++ toBytes 54 0
    let t : State := { s with hostMem := memWrite [] 0 bs }
    let bad : State := { s with hostBad := [0], ldg := { s.ldg with fetchFails := [(0, 2)] } }
    t.canDispose 0 = true ∧ t.readBuffer (t.pair (A.CMD_BASE 0)) 64 = some bs ∧ (parseDescr 0 bs).head = head1 ∧
      (parseDescr 0 bs).opcode = 1 ∧ (parseDescr 0 bs).cmd = some .nop ∧ (parseDescr 0 bs).clean = true ∧
      bad.canDispose 0 = true ∧ bad.readBuffer (bad.pair (A.CMD_BASE 0)) 64 = none ∧ tabNat bad.ldg.fetchFails 0 = 2 := by
  decide

theorem witness_images_wait :
    let s := hosted (inMode 2)
    let bs : List Byte := toBytes 8 0 ++ toBytes 4 64 ++ toBytes 52 0
    let t : State := { s with hostMem := memWrite [] 0 bs }
    let v : Verifying := { head := head1, cmd := .imageLoad 1 7 0 64, data := bs.take 8 }
    (match t.checkCmd (descrOf head1 (.safetyLoad 0 64)) (.safetyLoad 0 64) with | .ok b => b == bs | .error _ => false) = true ∧
      (match t.checkCmd (descrOf head1 (.imageLoad 1 7 0 64)) (.imageLoad 1 7 0 64) with
        | .ok b => b == bs | .error _ => false) = true ∧
      t.canDispose 0 = true ∧ t.modeCheck v.cmd = none ∧ t.ownCheck v.cmd v.data = none ∧
      t.imageCheck v.data 64 (some (1, 7)) ≠ .none ∧ t.ldg.verify = [] ∧ t.mirrorWaits 0 1 = false ∧
      ({ t with ldg := { t.ldg with verify := [v] } } : State).mayDispose 0 = true := by decide

theorem witness_points :
    let s := hosted (inMode 4)
    let d (k : Nat) : State := { s with dram := memWrite [] 0 (toBytes 8 (k * 2 ^ 32)), fab := { due := [0] } }
    let odd : State := { d 3 with dram := memWrite (d 3).dram (2 ^ 20) [1] }
    s.fab.tries = [] ∧ s.cellMode ≠ 1 ∧ s.fld F.FAB_PSEL_point = 0 ∧ s.pointKind 0 = 0 ∧ (d 3).pointKind 0 = 3 ∧ (d 3).sramBad = [] ∧
      (d 3).dramBad = [] ∧ (d 3).pointVer 0 % 2 = 0 ∧ odd.pointVer 0 % 2 = 1 ∧ 0 ∈ (d 3).fab.due ∧ (d 3).hostOut = true ∧
      (inMode 4).hostOut = false := by decide

theorem witness_resets :
    let s := (inMode 2).setFlag F.SEC_RSTCFG_hot true
    let r : State := { inMode 2 with pwr := { held := true } }
    let t := (inMode 1).setFlag F.MEM_STAT_training true
    s.flag F.SEC_RSTCFG_hot = true ∧ (inMode 2).flag F.SEC_RSTCFG_hot = false ∧ r.pwr.held = true ∧ r.tclkGone = false ∧
      ({ r with pwr := { held := false } } : State).pwr.held = false ∧ t.flag F.MEM_STAT_training = true ∧
      s.scrubs .sram (2 ^ 23 - 1) = true ∧ s.scrubs .sram (2 ^ 23) = false ∧ s.scrubs .retention (2 ^ 18 - 1) = true ∧
      s.scrubs (.localData 11) (2 ^ 16 - 1) = true ∧ s.scrubs .dram 0 = false ∧
      ((s.setFlag F.MEM_STAT_ready true).setFld F.MEM_SIZE_mib 1).scrubs .dram (2 ^ 20 - 1) = true ∧
      (inMode 2).cellMode = 2 ∧ (inMode 4).cellMode = 4 := by decide

/-- A bundle of one entry of 8 bytes at offset 256. -/
def bundled : State :=
  let s := State.reset.setFlag F.LDG_STAT_link true
  { s with pwr := { held := false },
           hostMem := memWrite (memWrite [] 0 (toBytes 4 0x4C444E42 ++ toBytes 60 1)) 64 (toBytes 8 256 ++ toBytes 8 8) }

set_option maxRecDepth 20000 in
theorem witness_boot :
    let s := bundled
    let w : State := { State.reset with pwr := { held := false } }
    let v : State := { s.setFld F.SEC_BOOT_state 2 with sec := { bundle := [(9, 8, [1])] } }
    let c := s.setFld F.SEC_BOOT_state 3
    s.cellMode = 1 ∧ s.pwr.held = false ∧ s.fld F.SEC_BOOT_state ≤ 1 ∧ s.hostUp = true ∧ w.hostUp = false ∧
      w.sec.waitTold = false ∧ (match bundleEntries s 0 with | .ok es => es == [(256, 8)] | .error _ => false) = true ∧
      (match bundleEntries s 4096 with | .ok _ => false | .error e => e.1 == .imageInvalid && e.2 == 0) = true ∧
      s.readBuffer 256 8 ≠ none ∧ v.fld F.SEC_BOOT_state = 2 ∧ v.sec.bundle = (9, 8, [1]) :: [] ∧
      v.imageCheck [1] 8 none ≠ .none ∧ c.fld F.SEC_BOOT_state = 3 ∧ c.cellMode = 1 ∧ (∀ im ∈ c.sec.good, im.area ≤ 8) ∧ c.ldg.badRecords = [] ∧
      (c.setFlag F.MEM_RET_STAT_valid true).flag F.MEM_RET_STAT_valid = true ∧
      (s.setFld F.SEC_BOOT_state 5).fld F.SEC_BOOT_state = 5 ∧ State.reset.pwr.held = true := by decide

set_option maxRecDepth 20000 in
theorem witness_image_loading :
    let im : Image := { kind := 1, area := 8, revision := 5, digest := [], payload := [1] }
    let j : LoadJob := { cmd := none, image := im, since := 0 }
    let s : State := { inMode 2 with sec := { job := some j } }
    let held : State := { s.setFld (F.ST_STATE_state 255) 3 with core := [] }
    let f : LoadJob := { j with image := { im with kind := 2, area := 0 }, written := true, loaded := true }
    s.sec.job = some j ∧ j.image.area ≤ 8 ∧ j.written = false ∧ s.heldRun = false ∧ held.lawBusy 255 = true ∧
      ({ j with written := true } : LoadJob).loaded = false ∧ f.image.kind = 2 ∧ f.loaded = true ∧ (inMode 2).sec.job = none := by
  decide

theorem witness_security :
    let s := (inMode 2).setFld F.SEC_KPROG_slot 11
    let up := s.setFlag F.LDG_STAT_link true
    let k := s.setFld F.SEC_KEYSTAT_present 0x800
    let b : State := { s with sec := { burn := some (11, [1]) } }
    let p := s.setFlag F.SEC_PROV_busy true
    let l := s.setFld F.SEC_DBG_state 0
    let o := s.setFld F.SEC_DBG_state 2
    let r := s.setReg A.SEC_FWREV 5
    s.cellMode = 2 ∧ fieldOf (r.reg A.SEC_ROLLBACK) 0 8 < (5 : BitVec 8).toNat ∧
      (5 : BitVec 8).toNat ≤ (r.reg A.SEC_FWREV).toNat ∧ 2 ≤ s.fld F.SEC_KPROG_slot ∧ s.fld F.SEC_KPROG_slot ≤ 11 ∧
      s.bitFld F.SEC_KEYSTAT_present 11 = false ∧ s.flag F.SEC_KPROG_busy = false ∧ s.hostUp = false ∧ up.hostUp = true ∧
      up.hostBad = [] ∧ b.sec.burn = some (11, [1]) ∧ s.sec.burn = none ∧
      (k.bitFld F.SEC_KEYSTAT_present 11 && !k.bitFld F.SEC_KEYSTAT_revoked 11) = true ∧
      s.flag F.SEC_PROV_provisioned = false ∧ s.flag F.SEC_PROV_busy = false ∧ p.flag F.SEC_PROV_busy = true ∧
      l.fld F.SEC_DBG_fails < 8 ∧ l.fld F.SEC_DBG_state ≠ 1 ∧ o.fld F.SEC_DBG_state = 2 ∧
      (o.fld F.SEC_DBG_scope).testBit 1 = false ∧ ((o.setFld F.SEC_DBG_scope 2).fld F.SEC_DBG_scope).testBit 1 = true ∧
      (o.setFld F.SEC_DBG_scope 2).cellMode = 2 := by decide

theorem witness_encoding_and_form :
    (Instr.mov 0 51 52).wf = true ∧ (encodeCore (.mov 0 51 52)).isSome = true ∧ memoryOk State.reset = true ∧
      memoryOk (coreAt (ready [(16, 0x10)])) = true := by decide

end Sys2Proof.Tests
end

section
/-!
SUPPORT. Tally: what stays of a record that has entered, what an event leaves in the ring, and that a discarded write leaves
nothing but its record (R430 to R433, R493).
-/

namespace Sys2Proof.Machine

open Sys2Proof.Safety

/-! ## What a record keeps -/

/-- Class, code and first data word of a record: neither a merge nor a new sequence number changes them (R427, R433). -/
def TallyRec.tag (r : TallyRec) : Nat × Nat × Nat := (r.cls, r.code, r.d0)

/-- The tags of the records in the ring, oldest first. -/
def State.tags (s : State) : List (Nat × Nat × Nat) := s.tly.ring.map TallyRec.tag

@[simp] theorem TallyRec.tag_merge (t r : TallyRec) : (t.merge r).tag = t.tag := rfl

theorem State.length_tags (s : State) : s.tags.length = s.tly.ring.length := List.length_map _

/-- A change of the last element that meets a condition touches that one element. -/
theorem changeLast_eq_some {α : Type} {p : α → Bool} {f : α → α} {xs ys : List α} (h : changeLast p f xs = some ys) :
    ∃ pre x post, xs = pre ++ x :: post ∧ p x = true ∧ ys = pre ++ f x :: post := by
  induction xs generalizing ys with
  | nil => simp [changeLast] at h
  | cons x xs ih =>
    unfold changeLast at h
    cases hc : changeLast p f xs with
    | some zs =>
      obtain ⟨pre, y, post, rfl, hp, rfl⟩ := ih hc
      simp only [hc, Option.some.injEq] at h
      exact ⟨x :: pre, y, post, rfl, hp, h.symm⟩
    | none =>
      simp only [hc, Option.ite_none_right_eq_some, Option.some.injEq] at h
      exact ⟨[], x, xs, rfl, h.1, h.2.symm⟩

/-- New sequence numbers leave the tags of records as they are. -/
theorem tags_renumber {ts : List TallyRec} {qs : List Nat} (h : ts.length ≤ qs.length) :
    (List.zipWith (fun (t : TallyRec) q => { t with seq := q }) ts qs).map TallyRec.tag = ts.map TallyRec.tag := by
  induction ts generalizing qs with
  | nil => rfl
  | cons t ts ih =>
    cases qs with
    | nil => simp at h
    | cons q qs => simpa [TallyRec.tag] using ih (by simpa using h)

/-- A record that enters the ring joins those that stand there (R427). -/
theorem tags_tallyEnter (r : TallyRec) (ring : List TallyRec) :
    ((tallyEnter r ring).map TallyRec.tag).Perm (r.tag :: ring.map TallyRec.tag) := by
  simp only [tallyEnter]
  generalize ring.findIdx _ = i
  rw [List.map_append, tags_renumber (by simp), List.map_cons]
  refine List.perm_middle.trans (List.Perm.of_eq ?_)
  rw [← List.map_append, List.take_append_drop]

/-! ## One event -/

/-- Below the stage that merges different values, a merge target holds the value of its event (R432). -/
theorem TallyRec.matches_tag {stage : Nat} {r t : TallyRec} (h : r.matches stage t = true) :
    t.cls = r.cls ∧ t.code = r.code ∧ (stage ≤ 1 → t.d0 = r.d0) := by
  simp only [TallyRec.matches, Bool.and_eq_true, Bool.or_eq_true, beq_iff_eq, decide_eq_true_eq] at h
  obtain ⟨⟨⟨hc, ho⟩, -⟩, hd⟩ := h
  refine ⟨hc.symm, ho.symm, fun hs => ?_⟩
  rcases hd with hd | hd
  · omega
  · exact hd.symm

/-- Below 3,584 records no stage merges different values (R432). -/
theorem tallyStage_le_one (hiwater : Nat) {occ : Nat} (h : occ < 3584) : tallyStage hiwater occ ≤ 1 := by
  simp only [tallyStage, if_pos h]
  split <;> omega

/-- While no record enters, an event leaves the state as it is (R435). -/
theorem State.tallyPut_silent {s : State} (r : TallyRec) (h : ¬recording s) : s.tallyPut r = s := by
  have hc : (s.pwr.held || s.flag F.PIN_SUPPLY_warn) = true := by
    by_contra hc
    exact h (by simpa [recording] using hc)
  rw [State.tallyPut, if_pos hc]

/-- An event is merged into a record of its class and code, or becomes a record beside the others (R430, R432). -/
theorem State.tags_tallyPut {s : State} (r : TallyRec) (h : recording s) :
    ((s.tallyPut r).tags = s.tags ∧
        ∃ x ∈ s.tags, x.1 = r.cls ∧ x.2.1 = r.code ∧ (s.tly.ring.length < 3584 → x.2.2 = r.d0)) ∨
      (s.tallyPut r).tags.Perm (r.tag :: s.tags) := by
  obtain ⟨hp, hw⟩ := h
  unfold State.tallyPut
  rw [if_neg (by simp [hp, hw])]
  dsimp only
  split
  · next ring hm =>
    left
    split at hm
    · cases hm
    obtain ⟨pre, t, post, hr, hmatch, rfl⟩ := changeLast_eq_some hm
    obtain ⟨hcls, hcode, hd0⟩ := TallyRec.matches_tag hmatch
    refine ⟨by simp [State.tags, hr], t.tag, by simp [State.tags, hr], hcls, hcode, fun hl => ?_⟩
    exact hd0 (tallyStage_le_one _ hl)
  · right
    exact tags_tallyEnter _ _

/-- An event leaves every register alone but the count of merges and the largest occupancy (R432, R444). -/
theorem State.reg_tallyPut (s : State) (r : TallyRec) {a : Nat} (hm : a ≠ A.TLY_MERGED) (ho : a ≠ A.TLY_OCC) :
    (s.tallyPut r).reg a = s.reg a := by
  unfold State.tallyPut
  split
  · rfl
  · dsimp only
    split
    · exact State.reg_setFld_other s _ hm
    · exact State.reg_setFld_other _ _ ho

/-- Beside the registers and the tally an event leaves the state as it is. -/
theorem State.rest_tallyPut (s : State) (r : TallyRec) : { s.tallyPut r with regs := s.regs, tly := s.tly } = s := by
  unfold State.tallyPut
  split
  · rfl
  · dsimp only
    split <;> rfl

/-- The tags that stand in the ring stay there, and at most one joins them. -/
theorem State.tags_tallyPut_keeps (s : State) (r : TallyRec) :
    s.tags ⊆ (s.tallyPut r).tags ∧ (s.tallyPut r).tly.ring.length ≤ s.tly.ring.length + 1 := by
  rw [← State.length_tags, ← State.length_tags]
  by_cases h : recording s
  · rcases State.tags_tallyPut r h with ⟨he, -⟩ | hp
    · rw [he]
      exact ⟨List.Subset.refl _, by omega⟩
    · exact ⟨fun x hx => hp.mem_iff.mpr (List.mem_cons_of_mem _ hx), by rw [hp.length_eq]; simp⟩
  · rw [State.tallyPut_silent r h]
    exact ⟨List.Subset.refl _, by omega⟩

/-- After an event a record of its class and code stands in the ring, with its first data word below the stage that merges
different values. -/
theorem State.tallyPut_stands {s : State} (r : TallyRec) (h : recording s) :
    ∃ x ∈ (s.tallyPut r).tags, x.1 = r.cls ∧ x.2.1 = r.code ∧ (s.tly.ring.length < 3584 → x.2.2 = r.d0) := by
  rcases State.tags_tallyPut r h with ⟨he, hx⟩ | hp
  · rwa [he]
  · exact ⟨r.tag, hp.mem_iff.mpr List.mem_cons_self, rfl, rfl, fun _ => rfl⟩

/-! ## Nothing but records -/

theorem State.ring_ne_nil_of_mem_tags {s : State} {x : Nat × Nat × Nat} (h : x ∈ s.tags) : s.tly.ring ≠ [] := by
  intro he
  simp [State.tags, he] at h

theorem State.tallyPut_onlyRecorded (s : State) (r : TallyRec) : onlyRecorded s (s.tallyPut r) :=
  ⟨fun h => let ⟨_, hx, _⟩ := State.tallyPut_stands r h; State.ring_ne_nil_of_mem_tags hx,
    State.rest_tallyPut s r, fun _ => State.reg_tallyPut s r⟩

/-- Records enter after a record as before it. -/
theorem recording_iff_of_onlyRecorded {s t : State} (h : onlyRecorded s t) : recording t ↔ recording s := by
  obtain ⟨-, hrest, hreg⟩ := h
  have hp : t.pwr = s.pwr := by
    have he := congrArg State.pwr hrest
    exact he
  have hw : t.flag F.PIN_SUPPLY_warn = s.flag F.PIN_SUPPLY_warn := by
    rw [State.flag, State.flag, State.fld, State.fld, hreg F.PIN_SUPPLY_warn.addr (by decide) (by decide)]
  rw [recording, recording, hp, hw]

theorem onlyRecorded_trans {s t u : State} (h : onlyRecorded s t) (k : onlyRecorded t u) : onlyRecorded s u := by
  obtain ⟨hlog, hrest', hreg'⟩ := k
  have hrec := recording_iff_of_onlyRecorded h
  obtain ⟨-, hrest, hreg⟩ := h
  refine ⟨fun hs => hlog (hrec.mpr hs), ?_, fun a hm ho => (hreg' a hm ho).trans (hreg a hm ho)⟩
  have he := congrArg (fun x : State => { x with regs := s.regs, tly := s.tly }) hrest'
  exact he.trans hrest

/-! ## Discarded writes -/

/-- Where records enter in s, the tally of t holds a record of class configuration (class 2); if two events after s still
stay below the stage that merges different values, it holds one with offset k (R432, R493). -/
def noted (s t : State) (k : Nat) : Prop :=
  recording s → (∃ r ∈ t.tly.ring, r.cls = 2) ∧
    (s.tly.ring.length + 1 < 3584 → ∃ r ∈ t.tly.ring, r.cls = 2 ∧ r.d0 % 2 ^ 22 = k)

theorem noted_iff_tags {s t : State} {k : Nat} :
    noted s t k ↔ (recording s → (∃ x ∈ t.tags, x.1 = 2) ∧
      (s.tly.ring.length + 1 < 3584 → ∃ x ∈ t.tags, x.1 = 2 ∧ x.2.2 % 2 ^ 22 = k)) := by
  simp [noted, State.tags, TallyRec.tag]

/-- The record of a discarded write (R436, R493). -/
def State.discardRecord (s : State) (w : Writer) (off : Nat) (why : Discard) (v : Nat) : TallyRec :=
  { stamp := s.now, seq := 0, cls := 2, flags := s.fld F.RT_STATUS_state, code := 1, source := w.source.code,
    d0 := (off % 2 ^ 22 + why.code * 2 ^ 22 + w.kind * 2 ^ 26) % 2 ^ 32, d1 := v % 2 ^ 32, d2 := 0, ledger := 0 }

theorem State.discard_eq_tallyPut (s : State) (w : Writer) (off : Nat) (why : Discard) (v : Nat) :
    s.discard w off why v = s.tallyPut (s.discardRecord w off why v) := rfl

/-- The record's first data word gives the offset of the write in its low 22 bits. -/
theorem State.discardRecord_offset (s : State) (w : Writer) {off : Nat} (h : off < 2 ^ 22) (why : Discard) (v : Nat) :
    (s.discardRecord w off why v).d0 % 2 ^ 22 = off := by
  dsimp only [State.discardRecord]
  omega

theorem State.discard_onlyRecorded (s : State) (w : Writer) (off : Nat) (why : Discard) (v : Nat) :
    onlyRecorded s (s.discard w off why v) := by
  rw [State.discard_eq_tallyPut]
  exact State.tallyPut_onlyRecorded s _

/-- What stood in the tally before a write is discarded stands there after it. -/
theorem noted.discard {s t : State} {k : Nat} (h : noted s t k) (w : Writer) (off : Nat) (why : Discard) (v : Nat) :
    noted s (t.discard w off why v) k := by
  rw [noted_iff_tags] at h ⊢
  intro hs
  obtain ⟨⟨x, hx, hcls⟩, hoff⟩ := h hs
  obtain ⟨hkeep, -⟩ := State.tags_tallyPut_keeps t (t.discardRecord w off why v)
  rw [State.discard_eq_tallyPut]
  exact ⟨⟨x, hkeep hx, hcls⟩, fun hl => let ⟨y, hy, hp⟩ := hoff hl; ⟨y, hkeep hy, hp⟩⟩

/-- A discarded write is noted with its offset, as the first or the second record since s. -/
theorem State.discard_noted {s t : State} (hst : recording s → recording t)
    (hlen : t.tly.ring.length ≤ s.tly.ring.length + 1) (w : Writer) {off : Nat} (hoff : off < 2 ^ 22) (why : Discard)
    (v : Nat) : noted s (t.discard w off why v) off := by
  rw [noted_iff_tags]
  intro hs
  obtain ⟨x, hx, hcls, -, hd0⟩ := State.tallyPut_stands (t.discardRecord w off why v) (hst hs)
  refine ⟨⟨x, hx, hcls⟩, fun hl => ⟨x, hx, hcls, ?_⟩⟩
  rw [hd0 (by omega), State.discardRecord_offset t w hoff]

/-- One discarded write leaves nothing but its record. -/
theorem State.discard_leaves (s : State) (w : Writer) {off : Nat} (hoff : off < 2 ^ 22) (why : Discard) (v : Nat) :
    onlyRecorded s (s.discard w off why v) ∧ noted s (s.discard w off why v) off :=
  ⟨State.discard_onlyRecorded .., State.discard_noted id (by omega) w hoff why v⟩

/-- Two discarded writes leave nothing but their records. -/
theorem State.discard_discard_leaves (s : State) (w : Writer) {off off' : Nat} (hoff : off < 2 ^ 22)
    (hoff' : off' < 2 ^ 22) (why : Discard) (v v' : Nat) :
    let t := (s.discard w off why v).discard w off' why v'
    onlyRecorded s t ∧ noted s t off ∧ noted s t off' := by
  have hone := State.discard_onlyRecorded s w off why v
  obtain ⟨-, hlen⟩ := State.tags_tallyPut_keeps s (s.discardRecord w off why v)
  exact ⟨onlyRecorded_trans hone (State.discard_onlyRecorded ..),
    (State.discard_leaves s w hoff why v).2.discard w off' why v',
    State.discard_noted (recording_iff_of_onlyRecorded hone).mpr hlen w hoff' why v'⟩

end Sys2Proof.Machine
end

section
/-!
PROOF. Accesses of the host that reach no register: of another width or alignment, or at an offset that none occupies
(R7, R35). Settles O51.
-/

namespace Sys2Proof.Machine

open Sys2Proof.Safety

/-! ## What an access finds -/

/-- Where no comparison of votes has ended, an access finds the state as it stands (R254). -/
theorem State.votesNow_of_settled {s : State} (h : settled s) : s.votesNow = s := by
  have hnone : (s.hwk.votes.any fun v => decide (v.2 ≤ s.clk.time)) = false := by
    rw [List.any_eq_false]
    intro v hv
    simpa using h.1 v hv
  rw [State.votesNow, State.settleBy, hnone]
  rfl

/-- With no read being repeated, none has ended (R439). -/
theorem State.readsEnd_of_no_tries {s : State} (h : s.fab.tries = []) : s.readsEnd = s := by
  simp [State.readsEnd, State.triesEnd, h]

@[simp] theorem State.bridged_fab (s : State) (bar2 : Bool) (off : Nat) : (s.bridged bar2 off).fab = s.fab := by
  unfold State.bridged
  split <;> rfl

/-- A grant of class 4 touches nothing on which the tally depends: what is noted since an access has passed the bridge is
noted since it began (R26, R27). -/
theorem noted.of_bridged {s t : State} {bar2 : Bool} {off k : Nat} (h : noted (s.bridged bar2 off) t k) :
    noted s t k := by
  unfold State.bridged at h
  split at h <;> exact h

/-! ## Offsets that no register occupies -/

/-- No register of the BAR lies at offset k (R35). -/
def unoccupied (bar2 : Bool) (k : Nat) : Prop := if bar2 then k % 0x100 ≠ 0 ∨ 0x2400 ≤ k else findReg k = none

theorem unoccupied_true {k : Nat} : unoccupied true k ↔ k % 0x100 ≠ 0 ∨ 0x2400 ≤ k := by simp [unoccupied]

theorem unoccupied_false {k : Nat} : unoccupied false k ↔ findReg k = none := by simp [unoccupied]

theorem State.bar2Read_unoccupied (s : State) {off : Nat} (h : unoccupied true off) : s.bar2Read off = 0 := by
  simp [State.bar2Read, unoccupied_true.mp h]

theorem State.bar2Write_unoccupied (s : State) {off : Nat} (v : Nat) (h : unoccupied true off) :
    s.bar2Write off v = s.discard .host off .unoccupied v := by
  simp [State.bar2Write, unoccupied_true.mp h]

theorem State.read32_unoccupied (s : State) (agent : Nat) {off : Nat} (h : unoccupied false off) :
    s.read32 agent off = (s, 0) := by
  simp [State.read32, unoccupied_false.mp h]

theorem State.hostWrite32_unoccupied (s : State) {off : Nat} (v : Nat) (h : unoccupied false off) :
    s.hostWrite32 off v = s.discard .host off .unoccupied (v % 2 ^ 32) := by
  simp [State.hostWrite32, State.hostWhole, unoccupied_false.mp h]

theorem State.read64_unoccupied (s : State) (agent : Nat) {off : Nat} (h : unoccupied false off)
    (h4 : unoccupied false (off + 4)) : s.read64 agent off = (s, 0) := by
  simp [State.read64, unoccupied_false.mp h, State.read32_unoccupied s agent h4]

theorem State.hostWrite64_unoccupied (s : State) {off : Nat} (v : Nat) (h : unoccupied false off)
    (h4 : unoccupied false (off + 4)) :
    s.hostWrite64 off v = (s.discard .host off .unoccupied (v % 2 ^ 32 % 2 ^ 32)).discard .host (off + 4) .unoccupied
      (v / 2 ^ 32 % 2 ^ 32) := by
  simp only [State.hostWrite64, unoccupied_false.mp h, State.hostWrite32_unoccupied _ _ h,
    State.hostWrite32_unoccupied _ _ h4]

/-! ## Accesses that reach no register -/

/-- A read gives 0 and changes nothing else; a write changes nothing and leaves its records, at `off` and at `more`. -/
def accessStrays (s : State) (bar2 : Bool) (off n : Nat) (data : BitVec 64) (more : Option Nat) : Prop :=
  s.registerRead bar2 off n = { s with hostRead := 0 } ∧
    onlyRecorded s (s.registerWrite bar2 off n data) ∧ noted s (s.registerWrite bar2 off n data) off ∧
    ∀ k, more = some k → noted s (s.registerWrite bar2 off n data) k

section
variable {s : State} {bar2 : Bool} {off n : Nat} {data : BitVec 64}

/-- A write that is one discard strays at its own offset alone. -/
theorem accessStrays_of_discard (hoff : off < 2 ^ 22) (hr : s.registerRead bar2 off n = { s with hostRead := 0 })
    (hw : ∃ why v, s.registerWrite bar2 off n data = s.discard .host off why v) :
    accessStrays s bar2 off n data none := by
  obtain ⟨why, v, hw⟩ := hw
  obtain ⟨hrec, hnote⟩ := State.discard_leaves s .host hoff why v
  rw [accessStrays, hw]
  exact ⟨hr, hrec, hnote, nofun⟩

/-- R7: an access of another width or alignment. -/
theorem accessStrays_width (ht : s.fab.tries = []) (hoff : off < 2 ^ 22) (h4 : ¬(n = 4 ∧ off % 4 = 0))
    (h8 : ¬(n = 8 ∧ off % 8 = 0)) : accessStrays s bar2 off n data none := by
  refine accessStrays_of_discard hoff ?_ ⟨.width, data.toNat % 2 ^ (8 * n) % 2 ^ 32, ?_⟩
  · simp only [State.registerRead, State.readsEnd_of_no_tries ht, if_neg h4, if_neg h8]
  · have hok : ¬((n = 4 ∧ off % 4 = 0) ∨ (n = 8 ∧ off % 8 = 0 ∧ bar2 = false)) := by tauto
    simp only [State.registerWrite, State.readsEnd_of_no_tries ht, if_pos hok]

/-- R35: an aligned 32-bit access where no register is. -/
theorem accessStrays_word (ht : s.fab.tries = []) (hoff : off < 2 ^ 22) (h4 : off % 4 = 0) (hf : unoccupied bar2 off) :
    accessStrays s bar2 off 4 data none := by
  refine accessStrays_of_discard hoff ?_ ⟨.unoccupied, data.toNat % 2 ^ 32, ?_⟩
  · cases bar2
    · simp [State.registerRead, State.readsEnd_of_no_tries ht, h4, State.read32_unoccupied s 0 hf]
    · simp [State.registerRead, State.readsEnd_of_no_tries ht, h4, State.bar2Read_unoccupied s hf]
  · cases bar2
    · simp [State.registerWrite, State.readsEnd_of_no_tries ht, h4, State.hostWrite32_unoccupied s _ hf]
    · simp [State.registerWrite, State.readsEnd_of_no_tries ht, h4, State.bar2Write_unoccupied s _ hf]

/-- R35: an aligned 64-bit access of BAR0 where neither word is a register: a write is one of two words. -/
theorem accessStrays_double (ht : s.fab.tries = []) (hoff : off < 2 ^ 22) (h8 : off % 8 = 0)
    (hf : unoccupied false off) (hf4 : unoccupied false (off + 4)) :
    accessStrays s false off 8 data (some (off + 4)) := by
  have hw : s.registerWrite false off 8 data = s.hostWrite64 off (data.toNat % 2 ^ (8 * 8)) := by
    simp [State.registerWrite, State.readsEnd_of_no_tries ht, h8]
  rw [accessStrays, hw, State.hostWrite64_unoccupied s _ hf hf4]
  obtain ⟨hrec, hlo, hhi⟩ := State.discard_discard_leaves s .host hoff (show off + 4 < 2 ^ 22 by omega) .unoccupied _ _
  refine ⟨?_, hrec, hlo, fun k hk => ?_⟩
  · simp [State.registerRead, State.readsEnd_of_no_tries ht, h8, State.read64_unoccupied s 0 hf hf4]
  · cases hk
    exact hhi

/-- R7: a 64-bit access of BAR2, of which a write is one of another width. -/
theorem accessStrays_double_bar2 (ht : s.fab.tries = []) (hoff : off < 2 ^ 22) (h8 : off % 8 = 0)
    (hf : unoccupied true off) (hf4 : unoccupied true (off + 4)) : accessStrays s true off 8 data none := by
  refine accessStrays_of_discard hoff ?_ ⟨.width, data.toNat % 2 ^ (8 * 8) % 2 ^ 32, ?_⟩
  · simp [State.registerRead, State.readsEnd_of_no_tries ht, h8, State.bar2Read_unoccupied s hf,
      State.bar2Read_unoccupied s hf4]
  · simp [State.registerWrite, State.readsEnd_of_no_tries ht]

end

theorem exec_registerRead (bar2 : Bool) (off : BitVec 22) (n : Fin 9) (s : State) :
    exec (.registerRead bar2 off n) s =
      .next ((s.votesNow.bridged bar2 off.toNat).registerRead bar2 off.toNat n.val) := rfl

theorem exec_registerWrite (bar2 : Bool) (off : BitVec 22) (n : Fin 9) (data : BitVec 64) (s : State) :
    exec (.registerWrite bar2 off n data) s =
      .next ((s.votesNow.bridged bar2 off.toNat).registerWrite bar2 off.toNat n.val data) := rfl

/-- The two commands of an access that strays, from a state in which no vote has ended before it. -/
theorem exec_of_accessStrays {s : State} {bar2 : Bool} {off : BitVec 22} {n : Fin 9} {data : BitVec 64}
    {more : Option Nat} (hs : settled s)
    (h : accessStrays (s.bridged bar2 off.toNat) bar2 off.toNat n.val data more) :
    let b := s.bridged bar2 off.toNat
    exec (.registerRead bar2 off n) s = .next { b with hostRead := 0 } ∧
      ∃ t, exec (.registerWrite bar2 off n data) s = .next t ∧ onlyRecorded b t ∧ noted s t off.toNat ∧
        ∀ k, more = some k → noted s t k := by
  obtain ⟨hread, hrec, hnote, hmore⟩ := h
  rw [exec_registerRead, exec_registerWrite, State.votesNow_of_settled hs, hread]
  exact ⟨rfl, _, rfl, hrec, hnote.of_bridged, fun k hk => (hmore k hk).of_bridged⟩

/-- Settles O51: each kind of access that reaches no register is a read of 0 and one discarded write, or two for the words
of a 64-bit write of BAR0. -/
theorem strayAccesses : Obligations.StrayAccesses := by
  unfold Obligations.StrayAccesses
  intro s bar2 off n data hs
  have ht : (s.bridged bar2 off.toNat).fab.tries = [] := by rw [State.bridged_fab, hs.2]
  refine ⟨fun h4 h8 => exec_of_accessStrays hs (accessStrays_width ht off.isLt h4 h8), fun hn h4 hf => ?_,
    fun hn h8 hf hf4 => ?_⟩
  · refine exec_of_accessStrays hs ?_
    rw [hn]
    exact accessStrays_word ht off.isLt h4 hf
  · refine exec_of_accessStrays hs ?_
    rw [hn]
    cases bar2
    · exact accessStrays_double ht off.isLt h8 hf hf4
    · exact accessStrays_double_bar2 ht off.isLt h8 hf hf4

end Sys2Proof.Machine
end

section
/-!
PROOF. Restoring division: one DSTEP in numbers, what k of 32 steps leave in the accumulator, and DSTEP as an instruction
that completes (R273). Settles O7.
-/

namespace Sys2Proof.Machine

open Sys2Proof.Safety

/-! ## One step -/

/-- An accumulator shifted left by one, its bit 71 lost. -/
theorem toNat_shiftLeft_one (a : BitVec 72) : (a <<< 1).toNat = a.toNat * 2 % 2 ^ 72 := by
  rw [BitVec.toNat_shiftLeft, Nat.shiftLeft_eq, Nat.pow_one]

/-- R273: where bits [71:32] of the shifted accumulator reach the divisor, it is taken off there and bit 0, which the shift
left clear, becomes 1. -/
theorem toNat_divStep (a : BitVec 72) (d : Word) :
    (divStep a d).toNat =
      if d.toNat ≤ (a <<< 1).toNat / 2 ^ 32 then (a <<< 1).toNat - d.toNat * 2 ^ 32 + 1 else (a <<< 1).toNat := by
  rw [toNat_shiftLeft_one, divStep]
  split <;> rw [BitVec.toNat_ofNat] <;> omega

/-- R273 as it is written for bit vectors. -/
theorem divStep_eq (a : BitVec 72) (d : Word) :
    divStep a d =
      if d.toNat ≤ (a <<< 1).toNat / 2 ^ 32 then ((a <<< 1) - (d.setWidth 72 <<< 32)) ||| 1 else a <<< 1 := by
  apply BitVec.eq_of_toNat_eq
  rw [toNat_divStep]
  split
  · next h =>
    have hd : (d.setWidth 72 <<< 32).toNat = d.toNat * 2 ^ 32 := by
      rw [BitVec.toNat_shiftLeft, Nat.shiftLeft_eq, BitVec.toNat_setWidth]
      omega
    have hsub : ((a <<< 1) - (d.setWidth 72 <<< 32)).toNat = (a <<< 1).toNat - d.toNat * 2 ^ 32 := by
      rw [BitVec.toNat_sub_of_le (by rw [BitVec.le_def, hd]; omega), hd]
    obtain ⟨m, hm⟩ : ∃ m, (a <<< 1).toNat - d.toNat * 2 ^ 32 = 2 ^ 1 * m :=
      ⟨a.toNat % 2 ^ 71 - d.toNat * 2 ^ 31, by rw [toNat_shiftLeft_one]; omega⟩
    rw [BitVec.toNat_or, hsub, hm]
    exact Nat.two_pow_add_eq_or_of_lt (by decide) m
  · rfl

/-- A step on an accumulator whose double has `hi` in bits [71:32] and `lo` below. -/
theorem toNat_divStep_of_double {a : BitVec 72} {hi lo : Nat} (d : Word) (h : a.toNat * 2 = hi * 2 ^ 32 + lo)
    (hhi : hi < 2 ^ 40) (hlo : lo < 2 ^ 32) :
    (divStep a d).toNat = if d.toNat ≤ hi then (hi - d.toNat) * 2 ^ 32 + (lo + 1) else hi * 2 ^ 32 + lo := by
  have ht : (a <<< 1).toNat = hi * 2 ^ 32 + lo := by rw [toNat_shiftLeft_one]; omega
  have hdiv : (hi * 2 ^ 32 + lo) / 2 ^ 32 = hi := by omega
  rw [toNat_divStep, ht, hdiv]
  split
  · omega
  · rfl

/-! ## 32 steps -/

/-- What an accumulator `v` holds after k steps of the division of n by d, with j steps to come: from bit 32 up the
remainder r of the dividend's bits used so far, below bit 32 its j bits not yet used, and in the low k bits the quotient q;
with divisor 0 every bit of q is 1. -/
def dividing (n d j k v : Nat) : Prop :=
  ∃ q r l, v = r * 2 ^ 32 + (l * 2 ^ k + q) ∧ n = (d * q + r) * 2 ^ j + l ∧ l < 2 ^ j ∧ q < 2 ^ k ∧
    (d ≠ 0 → r < d) ∧ (d = 0 → q + 1 = 2 ^ k)

/-- The unused bits of the dividend and a quotient fit below bit 32. -/
theorem lowHalf_lt {j k l q : Nat} (hl : l < 2 ^ j) (hq : q < 2 ^ k) (hjk : j + k = 32) : l * 2 ^ k + q < 2 ^ 32 :=
  calc l * 2 ^ k + q < (l + 1) * 2 ^ k := by rw [Nat.succ_mul]; omega
    _ ≤ 2 ^ j * 2 ^ k := Nat.mul_le_mul_right _ hl
    _ = 2 ^ 32 := by rw [← Nat.pow_add, hjk]

theorem dividing_divStep {n j k : Nat} {d : Word} {a : BitVec 72} (hn : n < 2 ^ 32) (hjk : j + 1 + k = 32)
    (h : dividing n d.toNat (j + 1) k a.toNat) : dividing n d.toNat j (k + 1) (divStep a d).toNat := by
  obtain ⟨q, r, l, ha, hnq, hl, hq, hr, h0⟩ := h
  have hpj := Nat.pow_succ 2 j
  have hpk := Nat.pow_succ 2 k
  -- the next bit b of the dividend moves up into the remainder
  obtain ⟨b, l', hb, hl', rfl⟩ : ∃ b l', b < 2 ∧ l' < 2 ^ j ∧ l = b * 2 ^ j + l' :=
    ⟨l / 2 ^ j, l % 2 ^ j, Nat.div_lt_of_lt_mul (by omega), Nat.mod_lt _ (by positivity), (Nat.div_add_mod' l _).symm⟩
  have hrn : r ≤ n := by
    calc r ≤ d.toNat * q + r := Nat.le_add_left ..
      _ ≤ (d.toNat * q + r) * 2 ^ (j + 1) := Nat.le_mul_of_pos_right _ (by positivity)
      _ ≤ n := by omega
  have h32 : 2 ^ j * 2 ^ (k + 1) = 2 ^ 32 := by rw [← Nat.pow_add]; congr 1; omega
  have hdouble : a.toNat * 2 = (2 * r + b) * 2 ^ 32 + (l' * 2 ^ (k + 1) + 2 * q) := by
    rw [ha, ← h32, hpk]; ring
  have hn' : n = (d.toNat * (2 * q) + (2 * r + b)) * 2 ^ j + l' := by rw [hnq, hpj]; ring
  rw [toNat_divStep_of_double d hdouble (by omega) (lowHalf_lt hl' (by omega) (by omega))]
  split
  · next hd =>
    refine ⟨2 * q + 1, 2 * r + b - d.toNat, l', by ring, ?_, hl', by omega, by omega, by omega⟩
    rw [hn', Nat.mul_succ]
    congr 2
    omega
  · exact ⟨2 * q, 2 * r + b, l', rfl, hn', hl', by omega, by omega, by omega⟩

/-- The invariant of the division, from a dividend in bits [31:0] and 0 above. -/
theorem dividing_iterate (n d : Word) {j k : Nat} (hjk : j + k = 32) :
    dividing n.toNat d.toNat j k ((fun a => divStep a d)^[k] (n.setWidth 72)).toNat := by
  induction k generalizing j with
  | zero =>
    obtain rfl : j = 32 := hjk
    have hn : (n.setWidth 72).toNat = n.toNat := by rw [BitVec.toNat_setWidth]; omega
    exact ⟨0, 0, n.toNat, hn.trans (by omega), by simp, n.isLt, by decide, Nat.pos_of_ne_zero, fun _ => rfl⟩
  | succ k ih =>
    rw [Function.iterate_succ_apply']
    exact dividing_divStep n.isLt (by omega) (ih (by omega))

/-- What the 32 steps leave: quotient and remainder, or for divisor 0 ones and the dividend. -/
theorem dividing_done {n d v : Nat} (hn : n < 2 ^ 32) (h : dividing n d 0 32 v) :
    (d ≠ 0 → v % 2 ^ 32 = n / d ∧ v / 2 ^ 32 % 2 ^ 32 = n % d) ∧
      (d = 0 → v % 2 ^ 32 = 2 ^ 32 - 1 ∧ v / 2 ^ 32 % 2 ^ 32 = n) := by
  obtain ⟨q, r, l, hv, hnq, hl, hq, hr, h0⟩ := h
  obtain rfl : l = 0 := by omega
  have hn' : r + d * q = n := by omega
  have hlow : v % 2 ^ 32 = q := by omega
  have hhigh : v / 2 ^ 32 % 2 ^ 32 = r := by omega
  rw [hlow, hhigh]
  refine ⟨fun hd => ?_, ?_⟩
  · obtain ⟨hdiv, hmod⟩ := (Nat.div_mod_unique (Nat.pos_of_ne_zero hd)).mpr ⟨hn', hr hd⟩
    exact ⟨hdiv.symm, hmod.symm⟩
  · rintro rfl
    exact ⟨by have := h0 rfl; omega, by omega⟩

/-! ## The instruction -/

theorem exec_dstep (c : Fin 12) (ax : Fin 4) (ds : Fin 16) (s : State) :
    exec (.dstep c ax ds) s = execDstep c ax ds s := rfl

/-- DSTEP writes its step to its accumulator, raises no fault of its own and completes. -/
theorem execDstep_completes {s : State} {c : Fin 12} (ax : Fin 4) (ds : Fin 16) (hm : mayIssue s c .plain) :
    ∃ t, execDstep c ax ds s = .next t ∧
      completes s t c [] [(ax, divStep ((s.atIssue c).getA ax) ((s.atIssue c).d ds))] [ax] :=
  ⟨_, rfl, State.issue_completes hm rfl (fun _ h => nomatch h) rfl rfl rfl rfl rfl⟩

/-- Settles O7: DSTEP completes with one step of R273, and 32 steps keep the invariant `dividing` up to quotient and
remainder. -/
theorem divisionSteps : Obligations.DivisionSteps := by
  unfold Obligations.DivisionSteps
  refine ⟨fun s c ax ds hm => ?_, fun n d => ?_⟩
  · obtain ⟨t, ht, hc⟩ := execDstep_completes ax ds hm
    exact ⟨t, (exec_dstep c ax ds s).trans ht, hc, divStep_eq _ _⟩
  · obtain ⟨hquot, hzero⟩ := dividing_done n.isLt (dividing_iterate n d rfl)
    exact ⟨fun hd => hquot fun h => hd (BitVec.eq_of_toNat_eq h), fun hd => hzero (congrArg BitVec.toNat hd)⟩

end Sys2Proof.Machine
end
